-- ==== Sys2Proof/Word.lean ====
section
/-! DEFINITION. The words of the FJB-5264 (R5, R23) and the sparse tables that State is built from. -/
namespace Sys2Proof

/-- One byte of a memory, an image or a flit. -/
abbrev Byte := BitVec 8
/-- One register, one scalar value or one grain/flesh pair (R5, R23, R72). -/
abbrev U64 := BitVec 64
/-- One Harness word, check value or scalar instruction (R23, R78, R215). -/
abbrev U32 := BitVec 32
/-- Plain memory in canonical form: pairs of address and byte, addresses strictly rising, no zero byte. -/
abbrev Mem := List (Nat × BitVec 8)
/-- A sparse table: pairs of index and entry, indices rising. -/
abbrev SMap (α : Type) := List (Nat × α)

end Sys2Proof
end

