-- ==== Sys2Proof/Syntax.lean ====
section
/-! DEFINITION. The commands of the FJB-5264 block: one constructor of Instr per row of spec/opcode_table.json, and the
plain types of their operands. An operand that tells what the world outside the block did (a training result, a sensor
reading, the bytes of a completion, a storage upset met by a read) is a fact of the environment (assumption 4). -/
namespace Sys2Proof

/-- The function whose BAR0 carries an access: the PF, or VF `n` (1 to 32) of partition `n - 1` (R425). -/
inductive Path where
  | pf
  | vf (n : Nat)
  deriving DecidableEq, Repr

/-- The W1C interrupt status register that IRQ_STATUS_CLEAR writes (R436). -/
inductive IrqReg where
  | part (p : Nat)
  | dev
  | pwr
  deriving DecidableEq, Repr

/-- A storage error met by a read of the command (R201, R202, R214, R216, R233, R236). An entry that the command's
reads do not touch has no effect. -/
inductive Upset where
  /-- A single-bit error in the scratchpad row of core `c` at byte offset `a` (R201). -/
  | spmFixed (c a : Nat)
  /-- An uncorrectable error in the scratchpad row of core `c` at `a`; whether the read-back is clean (R202). -/
  | spmLost (c a : Nat) (readBackOk : Bool)
  /-- An uncorrectable error in the stored check value of scratchpad block `b` of core `c` (R216). -/
  | spmCheck (c b : Nat)
  /-- A corrected error in the line or row of the slice of partition `p` on die `d` at slice or region offset `a`. -/
  | llsFixed (d p a : Nat)
  /-- An uncorrectable error there (R214). -/
  | llsLost (d p a : Nat)
  /-- An uncorrectable error in the stored check value of LLS block `b` of that slice or, in cache mode, of HBM block `b` of
  the region in its pending-block store (R216, R237). -/
  | llsCheck (d p b : Nat)
  /-- One corrected symbol of lane `lane` (0 to 67) in the transfer at byte `a` of channel `ch` of stack `k` (R233). -/
  | hbmFixed (k ch a lane : Nat)
  /-- An uncorrectable transfer at byte `a` of channel `ch` of stack `k` (R236). -/
  | hbmLost (k ch a : Nat)
  deriving DecidableEq, Repr

/-- An instruction fetch of the running thread of a core, with the storage errors that it meets. -/
structure Fetch where
  core : Nat
  errs : List Upset
  deriving DecidableEq, Repr

/-- Where ISSUE takes its descriptor (R85): from eight registers, or from the scratchpad, with the storage errors that its read
meets. -/
inductive DescSource where
  | regs
  | spm (errs : List Upset)
  deriving DecidableEq, Repr

/-- The line of an alarm (R392): a transmit line, or a receive line with the number of windows in succession, the last included,
whose error rate exceeds 2.4e-4. -/
inductive AlarmSide where
  | tx
  | rx (windows : Nat)
  deriving DecidableEq, Repr

/-- What a scrub read of one transfer finds (R243): clean, one corrected symbol of a lane, or uncorrectable. -/
inductive ScrubReport where
  | clean
  | fixed (lane : Nat)
  | lost
  deriving DecidableEq, Repr

/-- What training measured on one HBM channel (R246): for lanes of the 68, the trained eye in timing and voltage steps, or
none for a lane that does not train at all; and the CA lanes that failed. A lane that is not listed has a full eye. -/
structure ChannelTrain where
  key : Nat
  eyes : List (Nat × Option (Nat × Nat))
  failedCa : List Nat
  deriving DecidableEq, Repr

/-- What training found for one die-to-die link (R564): the lanes repaired as (module, lane), and the modules that work
after repair. -/
structure LinkTrain where
  link : Nat
  repaired : List (Nat × Nat)
  modules : Nat
  deriving DecidableEq, Repr

/-- The environment's report of steps 3 and 4 of a tree commit; what it does not list trained without a failure. -/
structure TrainReport where
  links : List LinkTrain
  channels : List ChannelTrain
  deriving DecidableEq, Repr

/-- A stored grain/flesh word that fails its check at a tick (R455, R457): its class; the core, partition, port or reach
word it belongs to; its index; and whether the copy that it can be reloaded from passes. Classes: 0 core tack (unit core),
1 grid tack, 2 region entry, 4 receive counter (unit partition), 3 credit counter (unit port, index pair), 5 power-token holding
or free pool, 6 route, 7 XLATE, 8 reach entry (unit word, index partition), 9 scratchpad remap entry (unit core). -/
structure GfUpset where
  cls : Nat
  unit : Nat
  index : Nat
  copyOk : Bool
  deriving DecidableEq, Repr

/-- The fabric tables held as grain/flesh pairs (R456). -/
inductive GfTable where
  | route
  | xlate
  | reach
  deriving DecidableEq, Repr

/-- Status of a PCIe completion (R434): of one without error, with the storage errors that the writes it lets go meet. -/
inductive HostStatus where
  | ok (errs : List Upset)
  | unsupported
  | aborted
  | poisoned
  deriving DecidableEq, Repr

/-- The transports that carry SPDM (R447). -/
inductive Transport where
  | mctp
  | pfDoe
  | vfDoe (n : Nat)
  deriving DecidableEq, Repr

/-- One reading of a thermal sensor in units of 0.125 degC, or the failure of the sensor (R529). -/
inductive SensorReading where
  | value (t : Int)
  | failed
  deriving DecidableEq, Repr

/-- The commands of the block, one per row of spec/opcode_table.json. -/
inductive Instr where
  /-- COMMIT_SLOT_A (R36): HARN_CTL command 0x1 starts a tree commit of the image in flash slot A. PF write of HARN_CTL.cmd 0x1. -/
  | commitSlotA
  /-- COMMIT_SLOT_B (R36): HARN_CTL command 0x2 starts a tree commit of the image in flash slot B. PF write of HARN_CTL.cmd 0x2. -/
  | commitSlotB
  /-- COMMIT_PUSH (R37): HARN_CTL command 0x3 starts a tree commit of the image at HARN_PUSH_ADDR and HARN_PUSH_LEN, first taking a drained Framed device to Bare. PF write of HARN_CTL.cmd 0x3; the image lies at HARN_PUSH_ADDR, HARN_PUSH_LEN. -/
  | commitPush
  /-- ARM (R51): HARN_CTL command 0x4 takes a Framed device to Armed so that strap commits are accepted. PF write of HARN_CTL.cmd 0x4. -/
  | arm
  /-- DRAIN (R62): HARN_CTL command 0x5 takes an Armed device with no Armed partition to Framed, or is recorded to take effect after running Harness operations. PF write of HARN_CTL.cmd 0x5. -/
  | drain
  /-- DRAIN_TAKES_EFFECT (R64): A recorded DRAIN takes effect once the running strap commit or RELEASE and the strap commits queued before it have finished. A recorded DRAIN takes effect. -/
  | drainTakesEffect
  /-- WRITE_SLOT_A (R38): HARN_CTL command 0x6 copies the committed tree image from staging into flash slot A, marking it invalid first and valid last. PF write of HARN_CTL.cmd 0x6. -/
  | writeSlotA
  /-- WRITE_SLOT_B (R38): HARN_CTL command 0x7 copies the committed tree image from staging into flash slot B, marking it invalid first and valid last. PF write of HARN_CTL.cmd 0x7. -/
  | writeSlotB
  /-- SLOT_WRITE_DONE (R39): A flash slot write finishes by writing the slot's valid word in the slot control block under R40. The flash has taken the slot's image. -/
  | slotWriteDone
  /-- RAISE_SEQ (R32): HARN_CTL command 0x8 raises the fused minimum tree sequence to that of the committed image, at most 64. PF write of HARN_CTL.cmd 0x8. -/
  | raiseSeq
  /-- STRAP_PUSH (R56): Command 0x9 in HARN_CTL or PART_STRAP_CTL requests a strap commit for a partition, started at once or queued under R58. STRAP_PUSH for partition p, by HARN_CTL (PF) or by PART_STRAP_CTL of VF p + 1. -/
  | strapPush (via : Path) (p : Nat)
  /-- UNLOAD (R53): Command 0xA discards a partition's strap, stops its cores and returns it to Framed with its memory unchanged. UNLOAD of partition p, by HARN_CTL (PF) or by PART_STRAP_CTL of VF p + 1. -/
  | unload (via : Path) (p : Nat)
  /-- RELEASE (R446): HARN_CTL command 0xB starts the release of a partition: its cores stop, its state and memory are zeroed, and it returns to Framed. PF write of HARN_CTL.cmd 0xB naming partition p. -/
  | release (p : Nat)
  /-- RELEASE_STEP_END (R446): A step of a RELEASE finishes, so that the next step starts or the partition enters Framed. The running step of the RELEASE ends. -/
  | releaseStepEnd
  /-- STRAP_QUEUE_START (R58): A queued strap commit request starts, in arrival order, once the running strap commit or RELEASE has ended, and its conditions are checked again. The oldest queued strap commit request starts. -/
  | strapQueueStart
  /-- TREE_COMMIT_STEP_END (R42): A step of a tree commit finishes, so that the next step starts or the device enters Framed after step 6. The running tree-commit step ends; r is what the training of steps 3 and 4 found. -/
  | treeCommitStepEnd (r : TrainReport)
  /-- HARN_TIMEOUT (R42): A commit step that exceeds its maximum time fails the commit with HARN_TIMEOUT. The running commit step exceeds its maximum. -/
  | harnTimeout
  /-- STRAP_COMMIT_STEP_END (R56): A step of a strap commit finishes, so that the next step starts or the partition enters Armed after step 4. The running strap-commit step ends. -/
  | strapCommitStepEnd
  /-- HARN_BOOT_WRITE (R40): A GF write to HARN_BOOT sets autoload and the preferred slot and updates the slot control block within 50 ms. PF write of HARN_BOOT. -/
  | harnBootWrite (v : BitVec 64)
  /-- REGISTER_WRITE (R7): A host write to a register that has no behaviour of its own is applied under its access code. One aligned 8-byte write at offset off of the BAR0 of a function. -/
  | registerWrite (via : Path) (off : Nat) (v : BitVec 64)
  /-- MALFORMED_BAR_ACCESS (R575): A BAR0 request that is not one aligned 8-byte access is not performed; a read completes with Unsupported Request. A BAR0 request that is not one aligned 8-byte access. -/
  | malformedBarAccess (via : Path) (off size : Nat) (isWrite : Bool)
  /-- THRM_MAXHOLD_READ (R579): A read of THRM_MAXHOLD returns the held maximum and resets it to the current temperature. PF read of THRM_MAXHOLD[d]. -/
  | thrmMaxholdRead (d : Nat)
  /-- ERR_INTAKE_READ (R579): A read of ERR_INTAKE returns the peak occupancy and clears it. PF read of ERR_INTAKE. -/
  | errIntakeRead
  /-- IRQ_STATUS_CLEAR (R436): A W1C write to PART_IRQ_STAT, DEV_IRQ_STAT or PWR_IRQ_STAT clears cause bits so that a further message for that cause can be sent. W1C write to PART_IRQ_STAT, DEV_IRQ_STAT or PWR_IRQ_STAT. -/
  | irqStatusClear (which : IrqReg) (v : BitVec 64)
  /-- ADD (R80): Scalar ADD writes rs1 + rs2 modulo 2^64 into rd. Issued by the running thread of core c. -/
  | add (c : Nat) (rd rs1 rs2 : Fin 32)
  /-- SUB (R80): Scalar SUB writes rs1 − rs2 modulo 2^64 into rd. Issued by the running thread of core c. -/
  | sub (c : Nat) (rd rs1 rs2 : Fin 32)
  /-- AND (R80): Scalar AND writes the bitwise and of rs1 and rs2. Issued by the running thread of core c. -/
  | and (c : Nat) (rd rs1 rs2 : Fin 32)
  /-- OR (R80): Scalar OR writes the bitwise or of rs1 and rs2. Issued by the running thread of core c. -/
  | or (c : Nat) (rd rs1 rs2 : Fin 32)
  /-- XOR (R80): Scalar XOR writes the bitwise exclusive or of rs1 and rs2. Issued by the running thread of core c. -/
  | xor (c : Nat) (rd rs1 rs2 : Fin 32)
  /-- SHL (R80): Scalar SHL shifts rs1 left by rs2[5:0]. Issued by the running thread of core c. -/
  | shl (c : Nat) (rd rs1 rs2 : Fin 32)
  /-- SHR (R80): Scalar SHR shifts rs1 right by rs2[5:0] with zeros entering. Issued by the running thread of core c. -/
  | shr (c : Nat) (rd rs1 rs2 : Fin 32)
  /-- SRA (R80): Scalar SRA shifts rs1 right by rs2[5:0] with sign copies entering. Issued by the running thread of core c. -/
  | sra (c : Nat) (rd rs1 rs2 : Fin 32)
  /-- SLT (R80): Scalar SLT writes 1 if rs1 is less than rs2 as signed values, otherwise 0. Issued by the running thread of core c. -/
  | slt (c : Nat) (rd rs1 rs2 : Fin 32)
  /-- SLTU (R80): Scalar SLTU writes 1 if rs1 is less than rs2 as unsigned values, otherwise 0. Issued by the running thread of core c. -/
  | sltu (c : Nat) (rd rs1 rs2 : Fin 32)
  /-- MIN (R80): Scalar MIN writes the signed minimum of rs1 and rs2. Issued by the running thread of core c. -/
  | min (c : Nat) (rd rs1 rs2 : Fin 32)
  /-- MAX (R80): Scalar MAX writes the signed maximum of rs1 and rs2. Issued by the running thread of core c. -/
  | max (c : Nat) (rd rs1 rs2 : Fin 32)
  /-- MUL (R80): Scalar MUL writes the low 64 bits of the product. Issued by the running thread of core c. -/
  | mul (c : Nat) (rd rs1 rs2 : Fin 32)
  /-- MULH (R80): Scalar MULH writes the high 64 bits of the signed 128-bit product. Issued by the running thread of core c. -/
  | mulh (c : Nat) (rd rs1 rs2 : Fin 32)
  /-- DIV (R80): Scalar DIV writes the signed quotient rounded toward zero, with defined results for division by zero and overflow. Issued by the running thread of core c. -/
  | div (c : Nat) (rd rs1 rs2 : Fin 32)
  /-- REM (R80): Scalar REM writes the remainder with the sign of rs1, with defined results for division by zero and overflow. Issued by the running thread of core c. -/
  | rem (c : Nat) (rd rs1 rs2 : Fin 32)
  /-- ADDI (R80): Scalar ADDI adds the sign-extended imm13 to rs1. Issued by the running thread of core c. -/
  | addi (c : Nat) (rd rs1 : Fin 32) (imm : BitVec 13)
  /-- ANDI (R80): Scalar ANDI ands rs1 with the sign-extended imm13. Issued by the running thread of core c. -/
  | andi (c : Nat) (rd rs1 : Fin 32) (imm : BitVec 13)
  /-- ORI (R80): Scalar ORI ors rs1 with the sign-extended imm13. Issued by the running thread of core c. -/
  | ori (c : Nat) (rd rs1 : Fin 32) (imm : BitVec 13)
  /-- XORI (R80): Scalar XORI exclusive-ors rs1 with the sign-extended imm13. Issued by the running thread of core c. -/
  | xori (c : Nat) (rd rs1 : Fin 32) (imm : BitVec 13)
  /-- SHLI (R80): Scalar SHLI shifts rs1 left by imm[5:0]. Issued by the running thread of core c. -/
  | shli (c : Nat) (rd rs1 : Fin 32) (imm : BitVec 13)
  /-- SHRI (R80): Scalar SHRI shifts rs1 right logically by imm[5:0]. Issued by the running thread of core c. -/
  | shri (c : Nat) (rd rs1 : Fin 32) (imm : BitVec 13)
  /-- SRAI (R80): Scalar SRAI shifts rs1 right arithmetically by imm[5:0]. Issued by the running thread of core c. -/
  | srai (c : Nat) (rd rs1 : Fin 32) (imm : BitVec 13)
  /-- SLTI (R80): Scalar SLTI compares rs1 with the immediate as signed values. Issued by the running thread of core c. -/
  | slti (c : Nat) (rd rs1 : Fin 32) (imm : BitVec 13)
  /-- SLTUI (R80): Scalar SLTUI compares rs1 with the immediate as unsigned values. Issued by the running thread of core c. -/
  | sltui (c : Nat) (rd rs1 : Fin 32) (imm : BitVec 13)
  /-- LD (R77): A local load reads 1, 2, 4 or 8 bytes from the core's scratchpad through the envelope into rd, with its result 4 cc later. Local load of 2^w bytes; u lists the storage errors the read meets. -/
  | ld (c : Nat) (w : Fin 4) (rd rs1 : Fin 32) (imm : BitVec 13) (u : List Upset)
  /-- ST (R77): A local store writes 1, 2, 4 or 8 bytes to the core's scratchpad through the envelope and makes the block OPEN. Local store of 2^w bytes. -/
  | st (c : Nat) (w : Fin 4) (rs2 rs1 : Fin 32) (imm : BitVec 13)
  /-- RESERVED_INSTRUCTION (R78): An instruction with a reserved class or undefined function faults with ILLEGAL_INSN. The running thread of a core issues a word that decodes to no instruction. -/
  | reservedInstruction (f : Fetch)
  /-- BEQ (R81): Branch taken when rs1 equals rs2. Branch. -/
  | beq (c : Nat) (rs1 rs2 : Fin 32) (imm : BitVec 13)
  /-- BNE (R81): Branch taken when rs1 differs from rs2. Branch. -/
  | bne (c : Nat) (rs1 rs2 : Fin 32) (imm : BitVec 13)
  /-- BLT (R81): Branch taken when rs1 is less than rs2, signed. Branch. -/
  | blt (c : Nat) (rs1 rs2 : Fin 32) (imm : BitVec 13)
  /-- BGE (R81): Branch taken when rs1 is at least rs2, signed. Branch. -/
  | bge (c : Nat) (rs1 rs2 : Fin 32) (imm : BitVec 13)
  /-- BLTU (R81): Branch taken when rs1 is less than rs2, unsigned. Branch. -/
  | bltu (c : Nat) (rs1 rs2 : Fin 32) (imm : BitVec 13)
  /-- BGEU (R81): Branch taken when rs1 is at least rs2, unsigned. Branch. -/
  | bgeu (c : Nat) (rs1 rs2 : Fin 32) (imm : BitVec 13)
  /-- JAL (R81): JAL jumps by 4 × imm23 and writes the return address into rd. Jump and link. -/
  | jal (c : Nat) (rd : Fin 32) (imm : BitVec 23)
  /-- LUI (R81): LUI writes imm23 × 2^23 into rd. Upper immediate. -/
  | lui (c : Nat) (rd : Fin 32) (imm : BitVec 23)
  /-- JALR (R82): JALR jumps to rs1 + 4 × imm13 and writes the return address into rd. Indirect jump. -/
  | jalr (c : Nat) (rd rs1 : Fin 32) (imm : BitVec 13)
  /-- CSRR (R83): CSRR reads a CSR such as the thread number, core ID, STCH_COUNT, UPTIME_NS or an envelope field into rd. CSR read. -/
  | csrr (c : Nat) (rd : Fin 32) (csr : BitVec 13)
  /-- CSRW (R83): CSRW writes an envelope field of the issuing or another thread, checked under R106. CSR write. -/
  | csrw (c : Nat) (rs1 : Fin 32) (csr : BitVec 13)
  /-- TSTART (R82): TSTART starts a stopped thread at an entry offset, or reports that it is already started. Thread start. -/
  | tstart (c : Nat) (rd rs1 : Fin 32)
  /-- YIELD (R73): YIELD blocks the running thread so that the next ready thread issues. Yield. -/
  | yield (c : Nat)
  /-- QUANTUM_EXPIRY (R75): A thread that has issued for 512 consecutive cycles yields if another thread is ready. The running thread has issued for 512 consecutive cycles. -/
  | quantumExpiry (c : Nat)
  /-- END (R71): END stops the thread once every descriptor it issued has completed. End of the running thread. -/
  | endThread (c : Nat)
  /-- FENCE_L (R73): FENCE.L parks the thread until every far store it has issued is acknowledged. FENCE.L. -/
  | fenceL (c : Nat)
  /-- FLD (R359): A far load reads 8 bytes at a global address and parks the thread until the response arrives. Far load. -/
  | fld (c : Nat) (rd rs1 : Fin 32) (u : List Upset)
  /-- FST (R359): A far store writes 8 bytes at a global address without parking, counting against the 16 unacknowledged far stores. Far store. -/
  | fst (c : Nat) (rs1 rs2 : Fin 32) (u : List Upset)
  /-- FADD32 (R359): Far atomic add of rs2[31:0] modulo 2^32 at the home, returning the previous value. Far atomic. -/
  | fadd32 (c : Nat) (rd rs1 rs2 : Fin 32) (u : List Upset)
  /-- FADD64 (R359): Far atomic add of rs2 modulo 2^64 at the home, returning the previous value. Far atomic. -/
  | fadd64 (c : Nat) (rd rs1 rs2 : Fin 32) (u : List Upset)
  /-- FADDF (R364): Far atomic exact addition of an FP32 value into a long partial at the home, returning the previous value drained to FP32. Far atomic. -/
  | faddf (c : Nat) (rd rs1 rs2 : Fin 32) (u : List Upset)
  /-- FCAS32 (R359): Far 32-bit compare-and-swap at the home. Far atomic. -/
  | fcas32 (c : Nat) (rd rs1 rs2 rs3 : Fin 32) (u : List Upset)
  /-- FCAS64 (R359): Far 64-bit compare-and-swap at the home. Far atomic. -/
  | fcas64 (c : Nat) (rd rs1 rs2 rs3 : Fin 32) (u : List Upset)
  /-- FSWP32 (R359): Far 32-bit swap at the home. Far atomic. -/
  | fswp32 (c : Nat) (rd rs1 rs2 : Fin 32) (u : List Upset)
  /-- FSWP64 (R359): Far 64-bit swap at the home. Far atomic. -/
  | fswp64 (c : Nat) (rd rs1 rs2 : Fin 32) (u : List Upset)
  /-- FMIN32 (R359): Far 32-bit signed minimum at the home. Far atomic. -/
  | fmin32 (c : Nat) (rd rs1 rs2 : Fin 32) (u : List Upset)
  /-- FMIN64 (R359): Far 64-bit signed minimum at the home. Far atomic. -/
  | fmin64 (c : Nat) (rd rs1 rs2 : Fin 32) (u : List Upset)
  /-- FMAX32 (R359): Far 32-bit signed maximum at the home. Far atomic. -/
  | fmax32 (c : Nat) (rd rs1 rs2 : Fin 32) (u : List Upset)
  /-- FMAX64 (R359): Far 64-bit signed maximum at the home. Far atomic. -/
  | fmax64 (c : Nat) (rd rs1 rs2 : Fin 32) (u : List Upset)
  /-- TSET (R261): TSET sets a core tack. Core tack set. -/
  | tset (c : Nat) (t : Fin 32)
  /-- TCLR (R261): TCLR clears a core tack. Core tack clear. -/
  | tclr (c : Nat) (t : Fin 32)
  /-- TWAIT (R261): TWAIT parks the thread until a core tack is set. Wait for a core tack. -/
  | twait (c : Nat) (t : Fin 32)
  /-- TWAITC (R261): TWAITC parks the thread until a core tack is set and clears it when satisfied. Wait for a core tack and clear it. -/
  | twaitc (c : Nat) (t : Fin 32)
  /-- TTEST (R261): TTEST writes the value of a core tack into a register. Test of a core tack. -/
  | ttest (c : Nat) (rd t : Fin 32)
  /-- GTSET (R261): GTSET sets a grid tack on this device. Grid tack set. -/
  | gtset (c : Nat) (g : Fin 1024)
  /-- GTCLR (R261): GTCLR clears a grid tack on this device. Grid tack clear. -/
  | gtclr (c : Nat) (g : Fin 1024)
  /-- GTWAIT (R261): GTWAIT parks the thread until a grid tack is set. Wait for a grid tack. -/
  | gtwait (c : Nat) (g : Fin 1024)
  /-- GTWAITC (R261): GTWAITC parks until a grid tack is set and clears it when satisfied. Wait for a grid tack and clear it. -/
  | gtwaitc (c : Nat) (g : Fin 1024)
  /-- GTTEST (R261): GTTEST writes the value of a grid tack into a register. Test of a grid tack. -/
  | gttest (c : Nat) (rd : Fin 32) (g : Fin 1024)
  /-- GTSETR (R272): GTSETR sends a remote tack set to a grid tack of a partition on another node, optionally flagged. Remote tack set. -/
  | gtsetr (c : Nat) (rs1 : Fin 32) (g : Fin 1024)
  /-- CINCH (R274): CINCH fences far stores, arrives at a cinch line and parks the thread until the line releases. Arrival at a cinch line. -/
  | cinch (c : Nat) (line : Fin 64)
  /-- CINCH_RELEASE (R275): A cinch line releases once every participant has arrived, readying all parked threads and clearing the arrivals. The line's release. -/
  | cinchRelease (line : Fin 64)
  /-- RXARM (R270): RXARM arms a receive counter to set a grid tack when a byte threshold is reached. Arming of a receive counter. -/
  | rxarm (c : Nat) (rs1 : Fin 32) (g : Fin 1024)
  /-- RXWAIT (R270): RXWAIT parks the thread until a receive counter reaches a threshold. Wait for a receive counter. -/
  | rxwait (c : Nat) (rs1 : Fin 32)
  /-- ISSUE (R85): ISSUE checks a 64-byte descriptor from scratchpad or registers and places it in its engine's queue, parking on a full queue. Issue of a descriptor. -/
  | issue (c : Nat) (eng : Fin 4) (src : DescSource) (rs1 : Fin 32)
  /-- DESCRIPTOR_COMPLETE (R90): A descriptor completes, sets its tack, raises its completion interrupt if asked, and frees its engine resources. The k-th descriptor in progress in an engine completes. -/
  | descriptorComplete (c : Nat) (eng : Fin 4) (k : Nat)
  /-- RESUME (R109): CORE_CTL command RESUME restarts the stopped threads of a halted core at their saved program counters. CORE_CTL.cmd 1. -/
  | resume (c : Nat)
  /-- STOP_ALL (R109): CORE_CTL command STOP_ALL stops every thread, discards unstarted descriptors and zeroes the core once started ones finish. CORE_CTL.cmd 2. -/
  | stopAll (c : Nat)
  /-- CLEAR_FAULT (R109): CORE_CTL command CLEAR_FAULT zeroes CORE_FAULT of a halted core. CORE_CTL.cmd 3. -/
  | clearFault (c : Nat)
  /-- MMA (R113): A matrix MMA starts and multiplies A by B into the accumulators of its unit in the given shape. The MMA at the head of the matrix queue starts. -/
  | mma (c : Nat) (u : List Upset)
  /-- MATRIX_DRAIN (R131): A matrix DRAIN writes the unit's accumulators to the scratchpad, rounded and converted or as long partials. The DRAIN at the head of the matrix queue starts. -/
  | matrixDrain (c : Nat)
  /-- LP_LOAD (R133): LP_LOAD replaces accumulators with long partials read from the scratchpad. The LP_LOAD at the head of the matrix queue starts. -/
  | lpLoad (c : Nat) (u : List Upset)
  /-- LP_ADD (R133): LP_ADD adds long partials read from the scratchpad into the accumulators exactly. The LP_ADD at the head of the matrix queue starts. -/
  | lpAdd (c : Nat) (u : List Upset)
  /-- ZERO (R120): ZERO sets the unit's accumulators to zero and clears their inexact flags. The ZERO at the head of the matrix queue starts. -/
  | zero (c : Nat)
  /-- STRIP_FAILURE (R136): An ENGINE_HW fault attributed to a strip halts the core and marks the strip failed, retiring the core at a second failure. An ENGINE_HW fault attributed to a strip. -/
  | stripFailure (c strip : Nat)
  /-- VECTOR_ADD (R92): Vector op 0x01 writes a + b element-wise. The vector descriptor at the head of its queue starts. -/
  | vectorAdd (c : Nat) (u : List Upset)
  /-- VECTOR_MULTIPLY (R92): Vector op 0x02 writes a × b element-wise. As VECTOR_ADD. -/
  | vectorMultiply (c : Nat) (u : List Upset)
  /-- VECTOR_FMA (R92): Vector op 0x03 writes a × scalar + b element-wise. As VECTOR_ADD. -/
  | vectorFma (c : Nat) (u : List Upset)
  /-- VECTOR_MAX (R92): Vector op 0x04 writes max(a, b) element-wise. As VECTOR_ADD. -/
  | vectorMax (c : Nat) (u : List Upset)
  /-- VECTOR_MIN (R92): Vector op 0x05 writes min(a, b) element-wise. As VECTOR_ADD. -/
  | vectorMin (c : Nat) (u : List Upset)
  /-- CONVERT (R156): Vector op 0x08 converts fmt_in to fmt_out, with MX quantisation and scale arrays where block-scaled. As VECTOR_ADD. -/
  | convert (c : Nat) (u : List Upset)
  /-- ROW_SUM (R93): Vector op 0x10 reduces each row by a fixed pairwise tree into one sum per row. As VECTOR_ADD. -/
  | rowSum (c : Nat) (u : List Upset)
  /-- ROW_MAX (R93): Vector op 0x11 writes the maximum of each row. As VECTOR_ADD. -/
  | rowMax (c : Nat) (u : List Upset)
  /-- ROW_SOFTMAX (R93): Vector op 0x12 computes a softmax of each row. As VECTOR_ADD. -/
  | rowSoftmax (c : Nat) (u : List Upset)
  /-- DIVISION (R94): Vector op 0x20 writes a / b, correctly rounded. As VECTOR_ADD. -/
  | division (c : Nat) (u : List Upset)
  /-- SQRT (R94): Vector op 0x21 writes the correctly rounded square root. As VECTOR_ADD. -/
  | sqrt (c : Nat) (u : List Upset)
  /-- RSQRT (R94): Vector op 0x22 writes the reciprocal square root within 1 ulp. As VECTOR_ADD. -/
  | rsqrt (c : Nat) (u : List Upset)
  /-- RECIPROCAL (R94): Vector op 0x23 writes the reciprocal within 1 ulp. As VECTOR_ADD. -/
  | reciprocal (c : Nat) (u : List Upset)
  /-- EXP2 (R94): Vector op 0x24 writes exp2 within 1 ulp. As VECTOR_ADD. -/
  | exp2 (c : Nat) (u : List Upset)
  /-- LOG2 (R94): Vector op 0x25 writes log2 within 1 ulp. As VECTOR_ADD. -/
  | log2 (c : Nat) (u : List Upset)
  /-- SIN_COS (R94): Vector op 0x26 writes sin or cos on [−2^15, 2^15] within 2 ulp. As VECTOR_ADD. -/
  | sinCos (c : Nat) (u : List Upset)
  /-- TANH (R94): Vector op 0x27 writes tanh within 2 ulp. As VECTOR_ADD. -/
  | tanh (c : Nat) (u : List Upset)
  /-- SIGMOID (R94): Vector op 0x28 writes the sigmoid within 2 ulp. As VECTOR_ADD. -/
  | sigmoid (c : Nat) (u : List Upset)
  /-- ERF (R94): Vector op 0x29 writes erf within 2 ulp. As VECTOR_ADD. -/
  | erf (c : Nat) (u : List Upset)
  /-- GELU (R94): Vector op 0x2A writes GELU in erf form within 3 ulp. As VECTOR_ADD. -/
  | gelu (c : Nat) (u : List Upset)
  /-- COPY (R98): DMA op 0x01 copies src to dst in the strided shape, with check-value handling by chk. The DMA copy at the head of its queue starts. -/
  | copy (c : Nat) (u : List Upset)
  /-- FILL (R98): DMA op 0x02 fills dst with a repeated 32-bit value. The DMA fill at the head of its queue starts. -/
  | fill (c : Nat) (u : List Upset)
  /-- DIGEST (R103): DMA op 0x03 writes the SHA-256 of each leaf of the bytes read. The DMA digest at the head of its queue starts. -/
  | digest (c : Nat) (u : List Upset)
  /-- DIGEST_WITH_ROOT (R103): DMA op 0x04 writes leaf digests and then the root digest. The DMA digest with root starts. -/
  | digestWithRoot (c : Nat) (u : List Upset)
  /-- MCAST_PUT (R369): DMA op 0x05 multicasts a store copy to members of a logical row or column on VC3. The multicast store copy starts. -/
  | mcastPut (c : Nat) (u : List Upset)
  /-- MCAST_COLL (R369): DMA op 0x06 multicasts a collective copy to members of a logical row or column on VC4. The multicast collective copy starts. -/
  | mcastColl (c : Nat) (u : List Upset)
  /-- REDUCE_SCATTER (R374): DMA op 0x10 sends each 4 KiB block of each chunk to its member as COLL_WRITE packets. The reduce-scatter starts. -/
  | reduceScatter (c : Nat) (u : List Upset)
  /-- REDUCE_SCATTER_COMBINE (R375): Once its counter reaches the threshold, the collective engine combines the M slots in member order and writes the result. The collective engine combines for the k-th DMA descriptor in progress on core c. -/
  | reduceScatterCombine (c k : Nat) (u : List Upset)
  /-- ALL_GATHER (R373): DMA op 0x11 sends the member's chunk to every member's destination buffer. The all-gather starts. -/
  | allGather (c : Nat) (u : List Upset)
  /-- COUNTS (R377): DMA op 0x12 sends a count record to every member ahead of an uneven collective. The count exchange starts. -/
  | counts (c : Nat) (u : List Upset)
  /-- EXPAND (R175): Skiver op 0x01 expands a skived tile into dense lines. The Skiver descriptor at the head of its queue starts. -/
  | expand (c : Nat) (u : List Upset)
  /-- COMPACT (R176): Skiver op 0x02 compacts dense lines into a skived tile. As EXPAND. -/
  | compact (c : Nat) (u : List Upset)
  /-- ROW_SCAN (R177): Skiver op 0x03 writes a row mask and index list from zero rows or per-row scores. As EXPAND. -/
  | rowScan (c : Nat) (u : List Upset)
  /-- ROW_PACK (R180): Skiver op 0x04 gathers the kept rows named in an index list. As EXPAND. -/
  | rowPack (c : Nat) (u : List Upset)
  /-- ROW_UNPACK (R180): Skiver op 0x05 scatters packed rows back and fills the excluded rows by mode. As EXPAND. -/
  | rowUnpack (c : Nat) (u : List Upset)
  /-- GATE (R181): Skiver op 0x06 selects top-k experts per token with local capacity and writes choice records and counts. As EXPAND. -/
  | gate (c : Nat) (u : List Upset)
  /-- SLOTS (R189): Skiver op 0x07 builds per-expert index lists from received count records under global capacity. As EXPAND. -/
  | slots (c : Nat) (u : List Upset)
  /-- XCHG (R185): Skiver op 0x08 sends count records, payload rows or return rows to the members. As EXPAND. -/
  | xchg (c : Nat) (u : List Upset)
  /-- COMBINE (R191): Skiver op 0x09 forms the weighted sum of returned expert rows in token order. As EXPAND. -/
  | combine (c : Nat) (u : List Upset)
  /-- PENDING_BLOCK_WRITEBACK (R237): A write waiting for a pending-block entry resumes after the slice writes back the oldest entry's dirty lines and releases it. The slice of partition p on die d writes back the block of its oldest entry. -/
  | pendingBlockWriteback (d p : Nat)
  /-- SCRUB_READ (R242): A channel's scrub read falls due and reads the next transfer in slot 0, correcting, poisoning and checking blocks. A scrub read of the next transfer of channel ch of stack k. -/
  | scrubRead (k ch : Nat) (r : ScrubReport)
  /-- HBM_CHANNEL_LOST (R250): A channel whose CA parity fails on 16 consecutive commands or that stops responding is lost, fencing the partitions on its stack. The channel is lost. -/
  | hbmChannelLost (k ch : Nat)
  /-- HBM_STACK_LOST (R251): A stack that stops responding or loses every channel is lost, fencing the partitions on it. The stack is lost. -/
  | hbmStackLost (k : Nat)
  /-- MARGIN_START (R253): A write of start to HBM_MARGIN_CTL runs a margining sweep of one lane, or sets refused. PF write of HBM_MARGIN_CTL with start set. -/
  | marginStart (v : BitVec 64)
  /-- MARGIN_DONE (R253): A margining run ends, restores the trained settings and sets HBM_MARGIN_RES.done. The run ends with the eye found. -/
  | marginDone (low high : BitVec 8)
  /-- STITCH_TICK (R304): The local tick advances STCH_COUNT, latches SNAP registers, releases segments, starts threads, sends markers and applies boundary work. The local tick; gf lists the words that fail their grain/flesh check. -/
  | stitchTick (gf : List GfUpset)
  /-- MARKER (R289): A received MARKER flit is checked, locks or slews the tick, and is audited for credit conservation. A MARKER flit arrives sinceNs nanoseconds after the latest local tick. -/
  | marker (port : Nat) (payload : List (BitVec 8)) (crcOk : Bool) (sinceNs : Int)
  /-- INPUT_LOST (R289): A stitch input that delivers no valid marker for 2 × P is lost, and the next input is taken up. Input i has delivered no valid marker for 2 x P. -/
  | inputLost (i : Nat)
  /-- STANDBY_TAKEOVER (R295): A standby master that has stayed in Holdover for takeover stitches becomes the acting master. The takeover count of Holdover stitches is reached. -/
  | standbyTakeover
  /-- SEGMENT_DEADLINE (R298): At P − w after a tick every Armed segmented partition is examined for unfinished cores. P - w after a tick, for partition p. -/
  | segmentDeadline (p : Nat)
  /-- SLIP_TOKEN (R299): A received slip token withholds the named release, is relayed down the column, or is logged as late. The i-th packet waiting at the X-die is a slip token. -/
  | slipToken (i : Nat)
  /-- CINCH_NOTE (R337): A received report of another device's local release of a grid-scope cinch line is applied once and relayed. The i-th packet waiting at the X-die is a cinch note. -/
  | cinchNote (i : Nat)
  /-- REJOIN (R307): STCH_CTL command REJOIN schedules the count re-join or sets rejoin_refused. STCH_CTL.cmd 0x1. -/
  | rejoin
  /-- PART_STCH_CTL_WRITE (R303): A write to PART_STCH_CTL sets or clears the hold of a partition and its resume_count. VF write. -/
  | partStchCtlWrite (p : Nat) (v : BitVec 64)
  /-- PART_RX_CTL_WRITE (R271): A write to PART_RX_CTL with zero set zeroes and disarms one receive counter. VF write. -/
  | partRxCtlWrite (p : Nat) (v : BitVec 64)
  /-- PART_GTACK_CTL_WRITE (R285): A GF write to PART_GTACK_CTL sets or clears a grid tack of the partition. VF write. -/
  | partGtackCtlWrite (p : Nat) (v : BitVec 64)
  /-- FLAG_RELEASE (R268): A held flagged packet is released, written and counted once its counter reaches the flag count. The oldest held packet of partition p whose count is reached is released. -/
  | flagRelease (p : Nat) (u : List Upset)
  /-- READ (R353): A READ packet arrives at its destination and, after reach, bound and region checks, is answered with RSP_DATA. The i-th packet waiting at the X-die is a READ. -/
  | read (i : Nat) (u : List Upset)
  /-- ATOMIC (R362): An ATOMIC packet is performed at the home of its address and answered with the previous value. As READ, an ATOMIC. -/
  | atomic (i : Nat) (u : List Upset)
  /-- WRITE (R356): A WRITE packet is checked, written and counted in its receive counter, or held if flagged. As READ, a WRITE. -/
  | write (i : Nat) (u : List Upset)
  /-- TACK_SET (R273): A remote tack set packet sets a grid tack of the destination partition if permitted, or is refused. As READ, a TACK_SET. -/
  | tackSet (i : Nat)
  /-- XCHG_WRITE (R188): An expert-exchange data packet is written and counted at the destination. As READ, an XCHG_WRITE. -/
  | xchgWrite (i : Nat) (u : List Upset)
  /-- COLL_WRITE (R374): A collective contribution packet is written with its block state and counted at the destination. As READ, a COLL_WRITE. -/
  | collWrite (i : Nat) (u : List Upset)
  /-- COLL_COUNT (R377): A 16-byte count record packet is written and counted at the destination. As READ, a COLL_COUNT. -/
  | collCount (i : Nat) (u : List Upset)
  /-- RSP_DATA (R353): A data response arrives at the requester and readies the parked thread or feeds the DMA or replay engine. As READ, an RSP_DATA. -/
  | rspData (i : Nat) (u : List Upset)
  /-- RSP_ACK (R356): An acknowledgement of up to 32 packets arrives and retires far stores or transfers. As READ, an RSP_ACK. -/
  | rspAck (i : Nat)
  /-- RSP_FAULT (R357): A fault response arrives and halts the issuing core with the cause it carries. As READ, an RSP_FAULT. -/
  | rspFault (i : Nat)
  /-- ACK_COALESCE_TIMER (R356): A destination sends the pending RSP_ACK or RSP_FAULT at the latest 50 ns after the earliest packet it covers. The k-th pending answer is sent. -/
  | ackCoalesceTimer (k : Nat)
  /-- PACKET_FORWARD (R323): A packet addressed to another physical node is forwarded by the route entry, or discarded at the hop limit. The i-th packet waiting at the X-die is addressed to another physical node. -/
  | packetForward (i : Nat)
  /-- FLIT_RECEIVE (R331): A received flit is CRC-checked, accepted in sequence or discarded with a nak, and its ack and credit fields taken. A 128-byte flit arrives on a fabric port. -/
  | flitReceive (port : Nat) (bytes : List (BitVec 8))
  /-- FLIT_SLOT (R343): An output flit boundary sends a VC0 flit or the flit of the slot's pair holding a credit, reusing idle slots within the partition. A flit boundary of the port's output. -/
  | flitSlot (port : Nat)
  /-- NAK (R332): A received nak makes the sender resend every unacknowledged flit from ack + 1. The nak received on the port is acted on. -/
  | nak (port : Nat)
  /-- NAK_REPEAT (R331): A receiver awaiting an expected flit repeats its nak every 1 µs. 1 us has passed since the last nak sent by the port; ports 64 to 67 are the Ethernet ports, whose encapsulation peers do likewise (R417). -/
  | nakRepeat (port : Nat)
  /-- ACK_TIMER (R331): A receiver reports ack at least every 50 ns. 50 ns have passed since the last ack sent. -/
  | ackTimer (port : Nat)
  /-- REPLAY_TIMEOUT (R332): When ack has not advanced for 2 µs the sender resends every unacknowledged flit. ack has not advanced for 2 us. -/
  | replayTimeout (port : Nat)
  /-- FAB_TABLE_CTL_WRITE (R347): A write to FAB_TABLE_CTL sets or clears quiesce of injection for the masked partitions. PF write. -/
  | fabTableCtlWrite (v : BitVec 64)
  /-- FAB_ROUTE_WRITE (R348): A GF write to FAB_ROUTE replaces a route entry while quiet, or is refused with FAB_TABLE. PF write. -/
  | fabRouteWrite (n : Nat) (v : BitVec 64)
  /-- FAB_XLATE_WRITE (R348): A GF write to FAB_XLATE replaces a translation entry while quiet, possibly changing the own logical node. PF write. -/
  | fabXlateWrite (n : Nat) (v : BitVec 64)
  /-- FAB_REACH_WRITE (R348): A GF write to FAB_REACH replaces a reach word while quiet, or is refused. PF write. -/
  | fabReachWrite (p i : Nat) (v : BitVec 64)
  /-- GF_TABLE_RELOAD (R457): A route, XLATE or reach entry failing its GF check is reloaded from the staging store within 10 µs. The entry (word w of a reach record) is reloaded; copyOk says whether its staging copy passes. -/
  | gfTableReload (tab : GfTable) (i w : Nat) (copyOk : Bool)
  /-- CRED_REQ (R465): A received CRED_REQ makes the receiver hold the pair's credit returns and answer CRED_HOLD. CTRL kind 0x20 received. -/
  | credReq (port : Nat) (v : BitVec 64)
  /-- CRED_HOLD (R466): A received CRED_HOLD makes the sender stop the pair once it has accepted the seq, and send CRED_FENCE. CTRL kind 0x21 received. -/
  | credHold (port : Nat) (v : BitVec 64)
  /-- CRED_FENCE (R466): A received CRED_FENCE makes the receiver reset CI and send CRED_SET with g − O. CTRL kind 0x22 received. -/
  | credFence (port : Nat) (v : BitVec 64)
  /-- CRED_SET (R466): A received CRED_SET sets the sender's held credits, logs CREDIT_FAULT and resumes the pair with CRED_DONE. CTRL kind 0x23 received. -/
  | credSet (port : Nat) (v : BitVec 64)
  /-- CRED_DONE (R466): A received CRED_DONE makes the receiver resume returning credits of the pair. CTRL kind 0x24 received. -/
  | credDone (port : Nat) (v : BitVec 64)
  /-- RESYNC_TIMEOUT (R467): A resynchronisation unfinished 1 ms after it started fails, logs CREDIT_RESYNC_FAIL and stops the port. The resynchronisation of pair j has run for 1 ms. -/
  | resyncTimeout (port j : Nat) (asSender : Bool)
  /-- PKT_ABORT (R471): A received PKT_ABORT discards the packet's flits, returns their credits, aborts onward and answers PKT_ABORT_ACK. CTRL kind 0x25 received. -/
  | pktAbort (port : Nat) (v : BitVec 64)
  /-- PKT_ABORT_ACK (R471): A received PKT_ABORT_ACK frees the VC on the output port for other packets. CTRL kind 0x26 received. -/
  | pktAbortAck (port : Nat) (v : BitVec 64)
  /-- CTRL_RESEND (R400): An unanswered CTRL request is sent again every 10 µs and fails after 100 sends. The k-th unanswered CTRL request of the port has waited 10 us. -/
  | ctrlResend (port k : Nat)
  /-- PART_REGION_WRITE (R368): A GF write to PART_REGION replaces a word of a region-table entry for later packet checks. VF write. -/
  | partRegionWrite (p i w : Nat) (v : BitVec 64)
  /-- LANE_TAG (R397): A valid lane tag from the partner ends a Seek wait within 10 µs and is checked for the line, node and port it names. An 8-byte lane tag arrives on a line. -/
  | laneTag (port line : Nat) (tag : List (BitVec 8))
  /-- SEEK_WAIT_END (R397): A port's Seek back-off expires and the port enters Train, opening its gate. The Seek wait expires. -/
  | seekWaitEnd (port : Nat)
  /-- TRAIN_HELLO (R399): A received TRAIN_HELLO is checked against the PORT section's partner and role. CTRL kind 0x01 received. -/
  | trainHello (port : Nat) (v : BitVec 64)
  /-- TRAIN_DONE (R398): A received TRAIN_DONE completes training, the port enters Up and credits are issued. CTRL kind 0x02 received. -/
  | trainDone (port : Nat)
  /-- TRAIN_TIMEOUT (R398): A training not Up 50 ms after entering Train fails, logs OPT_TRAIN_TIMEOUT and returns to Seek. 50 ms since Train was entered. -/
  | trainTimeout (port : Nat)
  /-- ECHO_REQ (R400): A received ECHO_REQ is answered with ECHO_RSP carrying its token. CTRL kind 0x03 received. -/
  | echoReq (port : Nat) (token : BitVec 64)
  /-- ECHO_RSP (R398): A received ECHO_RSP yields a round trip for the delay measurement or the mode 5 loopback. CTRL kind 0x04 received, rttNs after its request left. -/
  | echoRsp (port : Nat) (token : BitVec 64) (rttNs : Nat)
  /-- BURNISH_DUE (R401): A line's burnish interval expires and its burnish starts at a tick, copying its lane onto the spare. The burnish of a transmit line falls due at a tick. -/
  | burnishDue (port line : Nat)
  /-- BURNISH_REQ (R402): A received BURNISH_REQ makes the receiver align the spare with the line and answer BURNISH_READY. CTRL kind 0x05 received. -/
  | burnishReq (port line : Nat)
  /-- BURNISH_READY (R402): A received BURNISH_READY makes the sender announce a SWAP of the lane onto the spare. CTRL kind 0x06 received. -/
  | burnishReady (port line : Nat)
  /-- SWAP (R403): A received SWAP moves a lane to a new line at the announced flit index. CTRL kind 0x07 received: the lane moves to the line at the flit index. -/
  | swap (port lane line : Nat) (flit : BitVec 64)
  /-- BURNISH_DONE (R402): A received BURNISH_DONE moves the lane back at the next tick and returns the spare to its role. CTRL kind 0x08 received. -/
  | burnishDone (port line : Nat)
  /-- OPT_RING_ALARM (R392): A ring detuned beyond ±4 GHz for 10 µs or a line over the error limit raises OPT_RING_ALARM and is burnished first. A ring or error-rate alarm. -/
  | optRingAlarm (port line : Nat) (side : AlarmSide)
  /-- MISLOCK (R406): A line with no valid or a wrong tag for 2 µs starts the wrong-wavelength recovery. No valid tag for 2 us, or a valid tag naming another line. -/
  | mislock (port line : Nat) (wrongLine : Option Nat)
  /-- MISLOCK_REPORT (R406): A received MISLOCK_REPORT makes the sender re-sweep its modulator ring and answer MISLOCK_DONE. CTRL kind 0x09 received. -/
  | mislockReport (port line : Nat)
  /-- MISLOCK_DONE (R406): A received MISLOCK_DONE lets the receiver read the line's tags again and move the lane back or retry. CTRL kind 0x0A received. -/
  | mislockDone (port line : Nat) (failed : Bool)
  /-- LANE_MOVE (R406): A received LANE_MOVE moves a lane to the spare at the announced flit index without a copy step. CTRL kind 0x0B received. -/
  | laneMove (port lane line : Nat) (flit : BitVec 64)
  /-- RETIRE (R407): A received RETIRE retires a line until the next tree commit. CTRL kind 0x0C received. -/
  | retire (port line : Nat)
  /-- OPT_FEED_LOW (R394): A feed more than 3 dB low for 10 µs closes the gates of its ports and sends them to Seek. Feed j has been low for 10 us. -/
  | optFeedLow (j power : Nat)
  /-- FEED_RESTORED (R394): A feed back within limits for 100 ms clears low and lets its ports train again. Feed j has been within limits for 100 ms. -/
  | feedRestored (j power : Nat)
  /-- SLEW_MICROSECOND (R409): Each microsecond the limiter bounds strip starts of each partition and runs ballast on idle strips. One microsecond of the slew limiter. -/
  | slewMicrosecond
  /-- PORT_DISABLE (R395): OPT_PORT_CTL.disable holds a port Dark, or releases it to Seek when cleared. Write of OPT_PORT_CTL.disable. -/
  | portDisable (port : Nat) (off : Bool)
  /-- OPTICAL_LOOPBACK (R418): A write of OPT_PORT_CTL.loop selects a port loopback mode, or sets refused. Write of OPT_PORT_CTL.loop. -/
  | opticalLoopback (port : Nat) (mode : Fin 8)
  /-- ETH_FRAME_RECEIVE (R414): A received Ethernet frame is FCS-checked and delivered as encapsulation or to a partition queue, or dropped. A frame f arrives, followed by its frame check sequence. -/
  | ethFrameReceive (e : Nat) (f : List (BitVec 8)) (fcs : BitVec 32)
  /-- ETH_LINK_UP (R413): An Ethernet port in Seek achieves block lock, alignment and FEC lock and enters Up. Block lock, alignment and FEC lock. -/
  | ethLinkUp (e : Nat)
  /-- ETH_LINK_FAIL (R413): Link status FAIL held for 1 ms sends an Ethernet port from Up to Seek. Link status FAIL held for 1 ms. -/
  | ethLinkFail (e : Nat)
  /-- ETH_PEER_REPLAY_TIMEOUT (R417): An encapsulation peer without ack progress for 50 µs is replayed, and after eight replays is marked down. No ack progress of peer n for 50 us. -/
  | ethPeerReplayTimeout (n : Nat)
  /-- ETH_TX_COMPLETE (R440): A transmitted frame's last byte leaves the MAC, its entry is written back and head advances. The last byte of the frame of queue i has left the MAC of port e. -/
  | ethTxComplete (p i e : Nat)
  /-- PART_ETHQ_CTL_WRITE (R443): A write to PART_ETHQ_CTL enables or stops a queue and sets its ring sizes and interrupt. VF write. -/
  | partEthqCtlWrite (p i : Nat) (v : BitVec 64)
  /-- ETHQ_TX_TAIL_WRITE (R439): A write to a transmit tail offers entries for sending, or stops the queue on overrun. VF write. -/
  | ethqTxTailWrite (p i : Nat) (v : BitVec 64)
  /-- ETHQ_RX_TAIL_WRITE (R439): A write to a receive tail offers buffers, or stops the queue on overrun. VF write. -/
  | ethqRxTailWrite (p i : Nat) (v : BitVec 64)
  /-- ETHQ_IRQ_GAP (R442): A deferred queue message is sent when gap_us has elapsed if entries were written back. gap_us has elapsed. -/
  | ethqIrqGap (p i : Nat)
  /-- HOST_COMPLETION (R434): A PCIe completion for an upstream read arrives and is delivered, or fails the request on error or poison. A PCIe completion for the upstream read tag. -/
  | hostCompletion (tag : Nat) (st : HostStatus) (data : List (BitVec 8))
  /-- HOST_COMPLETION_TIMEOUT (R434): An upstream read unanswered for 10 ms fails with NODE_UNREACHABLE and logs HOST_ERR. The upstream read tag has gone unanswered for 10 ms. -/
  | hostCompletionTimeout (tag : Nat)
  /-- VF_FLR (R444): A VF FLR ends the VF's host state, unloads an Armed partition, ends its strap commits and zeroes its host registers. FLR of VF n. -/
  | vfFlr (n : Nat)
  /-- PF_FLR (R445): A PF FLR acts as a VF FLR on every VF and zeroes the push registers, failing a commit still in step 1. FLR of the PF. -/
  | pfFlr
  /-- VF_ENABLE_CLEAR (R445): Clearing VF Enable in the SR-IOV capability acts on every VF as a VF FLR. VF Enable is cleared. -/
  | vfEnableClear
  /-- PCIE_HOT_RESET (R551): A PCIe hot reset or link down acts as a PF FLR. Hot reset or link down. -/
  | pcieHotReset
  /-- GET_VERSION (R447): SPDM GET_VERSION is answered with the supported version. SPDM request. -/
  | getVersion (tr : Transport)
  /-- GET_CAPABILITIES (R447): SPDM GET_CAPABILITIES is answered with the responder's capabilities. SPDM request. -/
  | getCapabilities (tr : Transport)
  /-- NEGOTIATE_ALGORITHMS (R447): SPDM NEGOTIATE_ALGORITHMS settles on ECDSA P-384 and SHA-384. SPDM request. -/
  | negotiateAlgorithms (tr : Transport)
  /-- GET_DIGESTS (R447): SPDM GET_DIGESTS returns the certificate chain digest. SPDM request. -/
  | getDigests (tr : Transport)
  /-- GET_CERTIFICATE (R447): SPDM GET_CERTIFICATE returns the chain in slot 0. SPDM request. -/
  | getCertificate (tr : Transport)
  /-- CHALLENGE (R447): SPDM CHALLENGE is answered with a response signed by the device identity key. SPDM request. -/
  | challenge (tr : Transport) (nonce : BitVec 256)
  /-- GET_MEASUREMENTS (R449): SPDM GET_MEASUREMENTS returns the measurements visible to the requester, taken at one instant. SPDM request for every measurement. -/
  | getMeasurements (tr : Transport) (nonce : BitVec 256)
  /-- SET_ENDPOINT_ID (R450): MCTP Set Endpoint ID assigns the device's endpoint ID. MCTP request. -/
  | setEndpointId (eid : BitVec 8)
  /-- PLDM_DISCOVERY (R451): PLDM base commands report types, versions and commands. PLDM base request. -/
  | pldmDiscovery
  /-- PLDM_SENSOR_READ (R451): A PLDM monitoring request returns sensor readings or device state. PLDM monitoring request. -/
  | pldmSensorRead (sensor : Nat)
  /-- PLDM_FIRMWARE_UPDATE (R560): A PLDM firmware update is received whole, checked and written into the other firmware copy. A firmware image of the given length has been received. -/
  | pldmFirmwareUpdate (bytes : Nat) (img : List (BitVec 64))
  /-- EVENT_RECORD_WRITE (R493): Every 8 cc the ring writes the next intake entry as a sealed record, checks it and copies it to partition views. The ring writes the next intake entry; the read-back of the seal and the stores behave as given. -/
  | eventRecordWrite (sealOk pathOk : Bool)
  /-- ERR_CAP_CTL_WRITE (R486): Writing 1 to first_valid clears a block's FIRST, NEXT, next_count and escalated. PF write. -/
  | errCapCtlWrite (b : Nat) (v : BitVec 64)
  /-- AWL_SCHEDULED_START (R495): ERR_AWL_CTL.start runs the masked awl kernels on a core outside any Armed partition. PF write of ERR_AWL_CTL with start set. -/
  | awlScheduledStart (v : BitVec 64)
  /-- AWL_DECLARATION (R495): A write to PART_AWL_CTL declares or cancels idle stitches in which awl kernels may run on the partition's cores. VF write of PART_AWL_CTL. -/
  | awlDeclaration (p : Nat) (v : BitVec 64)
  /-- AWL_KERNEL_DONE (R497): An awl kernel finishes and compares its CRC, rerunning once and retiring the core on a second failure. The awl kernel on core c finishes. -/
  | awlKernelDone (c : Nat) (expected found : BitVec 32)
  /-- STEP_BEGIN (R498): PART_STEP_CTL BEGIN declares a step's ranges and enters Pending, becoming Open at the next tick. PART_STEP_CTL.cmd 1. -/
  | stepBegin (p : Nat)
  /-- STEP_CLOSE (R500): PART_STEP_CTL CLOSE starts the fold over the output ranges' check values. PART_STEP_CTL.cmd 2. -/
  | stepClose (p : Nat)
  /-- STEP_FOLD_DONE (R500): The fold finishes, writes PART_STEP_FOLD and open_blocks, and the step enters Closed. The fold of partition p is done. -/
  | stepFoldDone (p : Nat)
  /-- STEP_COMMIT (R501): PART_STEP_CTL COMMIT removes the input protection and returns the step to none. PART_STEP_CTL.cmd 3. -/
  | stepCommit (p : Nat)
  /-- REPLAY_START (R502): PART_REPLAY_CTL.start fetches input bytes from a remote step's range by READs on VC6. PART_REPLAY_CTL.start. -/
  | replayStart (p : Nat)
  /-- COMPARE (R504): PART_WDIG_CTL COMPARE compares the own and peer weight digests and logs REPLICA_MISMATCH on a difference. VF write of PART_WDIG_CTL with compare set. -/
  | compare (p : Nat) (v : BitVec 64)
  /-- POWER_SAMPLE (R514): Each microsecond VIN, current and power are sampled, partition buckets refilled and power limits tested. VIN in mV, input current in 10 mA and input power in W. -/
  | powerSample (vin iin pin : Nat)
  /-- SAG_WARN (R516): VIN below the threshold for 2 µs activates SAG_WARN, lowers the cap and stops ballast. VIN below the threshold for 2 us; vinMin is its lowest value in mV. -/
  | sagWarn (vinMin : Nat)
  /-- SAG_WARN_END (R518): VIN at or above threshold + 0.5 V for 100 µs deactivates SAG_WARN. VIN back for 100 us. -/
  | sagWarnEnd
  /-- SAG_RESET (R519): VIN below 39.0 V for more than 5 µs writes the retention record and resets every domain except standby. VIN below 39.0 V for more than 5 us. -/
  | sagReset (vinMin : Nat)
  /-- SAG_RESET_RELEASE (R519): VIN held at or above 44.0 V for 100 ms releases the reset. VIN at or above 44.0 V for 100 ms. -/
  | sagResetRelease
  /-- PWR_GRANT_WRITE (R526): A GF write to PWR_GRANT sets a new allotment for the next boundary, or is refused. PF write. -/
  | pwrGrantWrite (p : Nat) (v : BitVec 64)
  /-- SENSOR_READ (R528): Every 100 µs each temperature sensor is read and domain limits, rise rate, critical and trip are tested. The 100 us sensor reading. -/
  | sensorRead (rd : List (Nat × SensorReading))
  /-- TRIP_HOLD_END (R533): The 10 s thermal-trip hold expires and boot proceeds. The 10 s hold expires. -/
  | tripHoldEnd
  /-- STANDBY_POWER_GOOD (R513): VIN at or above 20.0 V for 1 ms brings the standby domain to power-good with a new BOOT_ID. VIN at or above 20.0 V for 1 ms. -/
  | standbyPowerGood
  /-- STANDBY_POWER_LOSS (R513): VIN below 18.0 V removes standby power-good and loses every standby store. VIN below 18.0 V. -/
  | standbyPowerLoss
  /-- RAIL_RAMP (R554): With standby good and VIN at or above 44.0 V for 100 ms the main rails ramp and PWROK_OUT rises. The main rails are good. -/
  | railRamp
  /-- PERST_N (R551): PERST_N driven low resets every domain except standby until released. The level the pin is driven to. -/
  | perstN (high : Bool)
  /-- SYS_RST_N (R551): SYS_RST_N driven low resets every domain except standby until released. The level the pin is driven to. -/
  | sysRstN (high : Bool)
  /-- WARM_RESET (R551): DEV_CTL command WARM_RESET resets every domain except standby 1 ms after the write. DEV_CTL.cmd 0x1. -/
  | warmReset
  /-- RAISE_FW_SEQ (R561): DEV_CTL command RAISE_FW_SEQ raises the fused firmware minimum to the booted copy's sequence, at most 32. DEV_CTL.cmd 0x2. -/
  | raiseFwSeq
  /-- TRST_N (R567): TRST_N low resets the TAP and selects IDCODE. TRST_N is low. -/
  | trstN
  /-- BOOT_START (R555): At t0 the PLLs lock, PCIe training begins and the boot ROM checks and loads a firmware copy. t0; straps holds STRAP_SMB_ADDR[1:0], STRAP_NO_AUTOLOAD and STRAP_TEST. -/
  | bootStart (straps : BitVec 4)
  /-- SELFTEST_REPORT (R556): A compute die reports its self-test result to the primary and X-die. Compute die d reports. -/
  | selftestReport (d : Nat) (ok : Bool)
  /-- PRIMARY_TIMEOUT (R556): A primary die failing or not reporting within 50 ms is marked failed and C2 runs as primary, or BOOT_NO_PRIMARY follows. The primary die has not reported within 50 ms. -/
  | primaryTimeout
  /-- BOOT_DONE (R555): Boot completes, BOOT_DONE is logged and the device is Bare. Boot completes. -/
  | bootDone
  /-- REFCLK_LOST (R550): A reference absent for 10 µs logs the Device-fatal REFCLK_LOST and sets ref_lost. The reference has been absent for 10 us. -/
  | refclkLost
  /-- D2D_RETRY (R565): A die-to-die flit failing its UCIe CRC is retried under link-level retry. A UCIe retry on link l. -/
  | d2dRetry (l : Nat)
  /-- D2D_LINK_LOST (R565): A die-to-die link not restored by retraining within 1 ms is lost, which is Device-fatal. Link l is lost. -/
  | d2dLinkLost (l : Nat)
  /-- DEV_LOOP_START (R570): DEV_LOOP_CTL.start runs an HBM or UCIe PRBS31 loopback for 1 ms, or sets refused. PF write of DEV_LOOP_CTL with start set. -/
  | devLoopStart (v : BitVec 64)
  /-- DEV_LOOP_DONE (R570): A device loopback run ends, restores the trained settings and sets DEV_LOOP_RES.done. The run ends. -/
  | devLoopDone (errors : Nat)
  /-- IDCODE (R568): TAP instruction IDCODE selects the identification register. TAP instruction. -/
  | idcode
  /-- SAMPLE_PRELOAD (R568): TAP instruction SAMPLE/PRELOAD samples or preloads the boundary register. TAP instruction; pins are the boundary levels sampled. -/
  | samplePreload (pins : Nat)
  /-- EXTEST (R569): TAP instruction EXTEST drives the boundary register in Bare, otherwise acting as BYPASS. TAP instruction. -/
  | extest
  /-- EXTEST_PULSE (R569): TAP instruction EXTEST_PULSE tests AC-coupled pairs in Bare. TAP instruction. -/
  | extestPulse
  /-- EXTEST_TRAIN (R569): TAP instruction EXTEST_TRAIN tests AC-coupled pairs with pulse trains in Bare. TAP instruction. -/
  | extestTrain
  /-- CLAMP (R569): TAP instruction CLAMP holds the boundary outputs and selects bypass in Bare. TAP instruction. -/
  | clamp
  /-- HIGHZ (R569): TAP instruction HIGHZ floats the boundary outputs in Bare. TAP instruction. -/
  | highz
  /-- BYPASS (R568): TAP instruction BYPASS, and every unlisted code, selects the one-bit bypass register. TAP instruction, or any code of no instruction. -/
  | bypass (code : BitVec 8)
  /-- TRAINING_STEP_END (R398): A stage of port training that takes time (transmit ring lock in T1, receive ring sweep and lock in T2, the 1 ms error-rate check in T5) finishes, so that training goes on to its next stage. A timed stage of training ends; lines are the receive lines found good. -/
  | trainingStepEnd (port : Nat) (ok : Bool) (lines : BitVec 9)
  /-- BURNISH_STEP_END (R402): A timed stage of a burnish ends: the receiver has aligned the spare line with line k (step 2), or the re-sweep and 20 µs error check of line k's rings has passed or failed (step 4). A timed stage of a burnish ends. -/
  | burnishStepEnd (port line : Nat) (ok : Bool)
  /-- MISLOCK_SWEEP_DONE (R406): A full re-sweep of a mislocked receive ring, or of the sender's modulator ring after a MISLOCK_REPORT, ends with a lock or a failure. A re-sweep ends. -/
  | mislockSweepDone (port line : Nat) (rx ok : Bool)
  /-- MISLOCK_CHECK_END (R406): The 20 µs tag check of a recovered line, or the 1 ms wait for MISLOCK_DONE, runs out, so the receiver moves the lane back, tries again or retires the line. The tag check, or the wait for MISLOCK_DONE, runs out. -/
  | mislockCheckEnd (port line : Nat) (tagsOk : Bool)
  /-- REFCLK_RESTORED (R550): The board reference returns after an absence, ending the gap counted in DEV_CLK.ref_gaps and letting STCH_UPTIME_NS advance again. The reference returns. -/
  | refclkRestored
  /-- REPLAY_RESPONSE_TIMEOUT (R503): A replay READ without a response for 10 ms makes the replay engine report REPLAY_SOURCE_LOST and fence the partition. A replay READ has gone 10 ms without a response. -/
  | replayResponseTimeout (p : Nat)
  /-- FIRMWARE_COPY_WRITTEN (R560): The flash write of an accepted PLDM firmware update into the other firmware copy finishes, after which the update awaits the next reset and WRITE_SLOT commands are no longer excluded. The flash write of a firmware copy finishes. -/
  | firmwareCopyWritten
  /-- PLATFORM_EVENT_MESSAGE (R507): The bus owner's response to a PLDM PlatformEventMessage carrying a failure signature arrives and marks that signature delivered. The bus owner's response for signature g arrives. -/
  | platformEventMessage (g : Nat)
  /-- MSIX_UNMASK (R436): Host software clears the mask of an MSI-X vector whose message is pending, and the held message is sent. Host software clears the mask of a vector. -/
  | msixUnmask (via : Path) (vec : Nat)
  /-- PCIE_LINK_UP (R555): PCIe link training completes and the X-die starts answering configuration requests with Successful Completion instead of Configuration Request Retry Status. PCIe link training completes. -/
  | pcieLinkUp
  deriving DecidableEq, Repr

end Sys2Proof
end

