-- ==== Sys2Proof/Decode.lean ====
section
/-! DEFINITION. Commands have no encoding: no row of spec/opcode_table.json gives bits, so no word spells a command. -/
namespace Sys2Proof

/-- The command that a word spells: none, because the table gives no row bits. -/
def decodeTableWord (_nbits _w : Nat) : Option Instr := none

end Sys2Proof
end

