-- ==== Sys2Proof/Config.lean ====
section
/-! DEFINITION. The free values: constants without a body for every value that the spec leaves open after a command
that goes on (assumption 9). Nothing in Lean can evaluate one, so a statement about it holds for every value. -/
namespace Sys2Proof.Config

/-- A fresh open 64-bit value: the n-th one drawn (counter State.freeCtr). Used where the spec says undefined, or
states no value. -/
opaque freeWord : Nat → U64
/-- A fresh open byte. -/
opaque freeByte : Nat → Byte
/-- A fresh open accumulator: exact value as a multiple of the unit of the accumulator, before wrapping (R136, R221). -/
opaque freeAcc : Nat → Int
/-- What an accumulator that holds one class becomes as the target of a product of the other, from its long partial and the
part of the result (0 to 7): a function of the inputs alone (R160). -/
opaque recastAcc : Nat → Nat → Int
/-- The weight field of a choice record's slot r >= k, from the token's logits and r (R183 gives that slot's other fields):
a function of the inputs alone (R160). -/
opaque spareWeight : List Nat → Nat → U32
/-- The boot identifier drawn at standby power-good, before 0 is excluded (R309). -/
opaque bootId : Nat → U64
/-- The bits of rsqrt of an FP32 input that R95 does not fix (R94: within 1 ulp). -/
opaque rsqrtBits : U32 → U32
/-- The bits of the reciprocal of an FP32 input that R95 does not fix (R94: within 1 ulp). -/
opaque recipBits : U32 → U32
/-- The bits of exp2 (R94: within 1 ulp). -/
opaque exp2Bits : U32 → U32
/-- The bits of log2 (R94: within 1 ulp). -/
opaque log2Bits : U32 → U32
/-- The bits of op 0x26 on [-2^15, 2^15] (R94: within 2 ulp; which of sine and cosine is not stated). -/
opaque sinCosBits : U32 → U32
/-- The bits of tanh (R94: within 2 ulp). -/
opaque tanhBits : U32 → U32
/-- The bits of the sigmoid (R94: within 2 ulp). -/
opaque sigmoidBits : U32 → U32
/-- The bits of erf (R94: within 2 ulp). -/
opaque erfBits : U32 → U32
/-- The bits of GELU (R94: within 3 ulp). -/
opaque geluBits : U32 → U32
/-- The bytes of a signature by the device key over a message: SPDM answers and failure signatures (R449, R506). -/
opaque deviceSign : List Byte → List Byte
/-- The SHA-384 of the device identity public key (R447, R506), which the spec does not give. -/
opaque deviceKeyDigest : List Byte
/-- The certificate chain of the device key (R449), which the spec names and does not give. -/
opaque certChain : List Byte
/-- The bytes of a PLDM or SPDM answer that their DMTF standards fix and this spec does not: request number, index. -/
opaque dmtfBytes : Nat → List Byte
/-- The value of tree-key slot 0 of the OTP, the SHA-384 of a key (R31), as a number, first byte lowest. -/
opaque fusedTreeKey : Nat
/-- The firmware key value of the OTP (R558), likewise. -/
opaque fusedFwKey : Nat
/-- The boot firmware copies that the flash holds from the factory (R558): FW0 and FW1. -/
opaque bootFirmware : Nat → List U64
/-- Stonte's PCI-SIG vendor ID (R426), which the spec does not give. -/
opaque pciVendor : BitVec 16
/-- Stonte's JEDEC manufacturer identity in the IDCODE (R567), which the spec does not give. -/
opaque jedecId : Nat

end Sys2Proof.Config
end

