-- ==== Sys2Proof/Machine/Num.lean ====
section
/-! DEFINITION. Number formats, rounding and FP32 arithmetic (R92 to R95, R140 to R148, R153 to R159): exact on
integers scaled by powers of two, rounded in one place. Every value is handled as its bit pattern (a Nat below 2^32). The special functions of R94 stand in
Special.lean. -/
namespace Sys2Proof.Machine

/-- A number as the formats of R141 hold it: NaN, an infinity, or (-1)^neg * m * 2^e. -/
inductive Val where
  | nan
  | inf (neg : Bool)
  | fin (neg : Bool) (m : Nat) (e : Int)
  deriving DecidableEq, Repr

/-- A floating format of R141: widths, bias, code of the largest finite magnitude, code of infinity if any, canonical
NaN if any. -/
structure FFmt where
  expBits : Nat
  manBits : Nat
  bias : Int
  maxCode : Nat
  infCode : Option Nat
  nanCode : Option Nat
  deriving DecidableEq, Repr

/-- FP32 (code 0x0). -/
def fFp32 : FFmt := ⟨8, 23, 127, 0x7F7FFFFF, some 0x7F800000, some 0x7FC00000⟩
/-- BF16 (code 0x1). -/
def fBf16 : FFmt := ⟨8, 7, 127, 0x7F7F, some 0x7F80, some 0x7FC0⟩
/-- FP16 (code 0x2). -/
def fFp16 : FFmt := ⟨5, 10, 15, 0x7BFF, some 0x7C00, some 0x7E00⟩
/-- E4M3 (code 0x3). -/
def fE4m3 : FFmt := ⟨4, 3, 7, 0x7E, none, some 0x7F⟩
/-- E5M2 (code 0x4). -/
def fE5m2 : FFmt := ⟨5, 2, 15, 0x7B, some 0x7C, some 0x7E⟩
/-- E3M2 element. -/
def fE3m2 : FFmt := ⟨3, 2, 3, 0x1F, none, none⟩
/-- E2M3 element. -/
def fE2m3 : FFmt := ⟨2, 3, 1, 0x1F, none, none⟩
/-- E2M1 element. -/
def fE2m1 : FFmt := ⟨2, 1, 1, 0x7, none, none⟩

/-- The value of a code of a floating format (R141). -/
def FFmt.decode (f : FFmt) (c : Nat) : Val :=
  let neg := c / 2 ^ (f.expBits + f.manBits) % 2 = 1
  let mag := c % 2 ^ (f.expBits + f.manBits)
  let ex := mag / 2 ^ f.manBits
  let man := mag % 2 ^ f.manBits
  if some mag = f.infCode then .inf neg
  else if mag > f.maxCode then .nan
  else if ex = 0 then .fin neg man (1 - f.bias - f.manBits)
  else .fin neg (man + 2 ^ f.manBits) (ex - f.bias - f.manBits)

/-- Rounding modes of the 3-bit round fields (R154). -/
inductive Rnd where
  | near
  | nearSat
  | zero
  /-- Stochastic with the 16 random bits drawn for the element (R157). -/
  | stoch (r : Nat)
  deriving DecidableEq, Repr

/-- Scale a magnitude by 2^-shift to an integer under a rounding mode (R148's round_ne, R154, R157). -/
def roundShift (md : Rnd) (m : Nat) (shift : Int) : Nat :=
  if shift ≤ 0 then m * 2 ^ shift.natAbs
  else
    let k := shift.natAbs
    let q := m / 2 ^ k
    let r := m % 2 ^ k
    match md with
    | .near | .nearSat =>
      if 2 * r > 2 ^ k ∨ (2 * r = 2 ^ k ∧ q % 2 = 1) then q + 1 else q
    | .zero => q
    | .stoch rb => if r * 65536 / 2 ^ k > rb then q + 1 else q

/-- The magnitude code of m * 2^e in a floating format before the overflow rule: subnormals kept (R92, R155). -/
def FFmt.roundMag (f : FFmt) (md : Rnd) (m : Nat) (e : Int) : Nat :=
  if m = 0 then 0
  else
    let emin : Int := 1 - f.bias
    let top : Int := max ((Nat.log2 m : Int) + e) emin
    (top - emin).natAbs * 2 ^ f.manBits + roundShift md m (top - f.manBits - e)

/-- The overflow rule of R154 and R155 for a finite value: infinity or the format's overflow code in mode 0, the
largest finite otherwise. -/
def FFmt.overflowCode (f : FFmt) (md : Rnd) : Nat :=
  match md with
  | .near => match f.infCode, f.nanCode with
    | some i, _ => i
    | none, some n => n
    | none, none => f.maxCode
  | _ => f.maxCode

/-- Put the sign of a value on a magnitude code. -/
def FFmt.withSign (f : FFmt) (neg : Bool) (mag : Nat) : Nat :=
  if neg then mag + 2 ^ (f.expBits + f.manBits) else mag

/-- Round a value to a floating format (R154, R155). E4M3 has no infinity: an infinity becomes NaN in mode 0 and the
largest finite in modes 1 to 3; a format with neither saturates; its NaN becomes +0. -/
def FFmt.encode (f : FFmt) (md : Rnd) (v : Val) : Nat :=
  match v with
  | .nan => match f.nanCode with
    | some n => n
    | none => 0
  | .inf neg => match f.infCode with
    | some i => f.withSign neg i
    | none => if f.overflowCode md = f.nanCode.getD 0 ∧ f.nanCode ≠ none then f.nanCode.getD 0
              else f.withSign neg f.maxCode
  | .fin neg m e =>
    let c := f.roundMag md m e
    if c ≤ f.maxCode then f.withSign neg c
    else if f.infCode = none ∧ f.nanCode ≠ none ∧ md = .near then f.nanCode.getD 0
    else f.withSign neg (f.overflowCode md)

/-- Round a value to a two's-complement integer of `w` bits (INT8, INT4: R155); the code is the unsigned reading. -/
def intEncode (w : Nat) (md : Rnd) (v : Val) : Nat :=
  match v with
  | .nan => 0
  | .inf neg => if neg then 2 ^ (w - 1) else 2 ^ (w - 1) - 1
  | .fin neg m e =>
    let q := roundShift md m (-e)
    if neg then (if q ≥ 2 ^ (w - 1) then 2 ^ (w - 1) else (2 ^ w - q) % 2 ^ w)
    else (if q ≥ 2 ^ (w - 1) then 2 ^ (w - 1) - 1 else q)

/-- The value of a two's-complement code of `w` bits, scaled by 2^e. -/
def intDecode (w : Nat) (c : Nat) (e : Int) : Val :=
  if c % 2 ^ w ≥ 2 ^ (w - 1) then .fin true (2 ^ w - c % 2 ^ w) e else .fin false (c % 2 ^ w) e

/-- A value scaled by 2^k. -/
def Val.scale (v : Val) (k : Int) : Val :=
  match v with
  | .fin n m e => .fin n m (e + k)
  | v => v

/-- FP32 bits of a value, rounded to nearest, ties to even (R92, R153). -/
def toF32 (v : Val) : Nat := fFp32.encode .near v
/-- The value of FP32 bits. -/
def ofF32 (b : Nat) : Val := fFp32.decode b

/-- The canonical FP32 NaN (R95, R141). -/
def nan32 : Nat := 0x7FC00000
/-- FP32 infinity of a sign. -/
def inf32 (neg : Bool) : Nat := if neg then 0xFF800000 else 0x7F800000

/-- A finite value as an integer multiple of 2^e for an exponent `e` not above its own. -/
def alignTo (neg : Bool) (m : Nat) (ex e : Int) : Int :=
  let x : Int := (m : Int) * 2 ^ (ex - e).natAbs
  if neg then -x else x

/-- The value s * 2^e of an exact sum; an exact zero is +0 unless both terms were zeros of negative sign. -/
def ofSum (s : Int) (e : Int) (negZero : Bool) : Val :=
  if s = 0 then .fin negZero 0 e else .fin (decide (s < 0)) s.natAbs e

/-- Exact sum of two values (IEEE rules for specials). -/
def Val.add (a b : Val) : Val :=
  match a, b with
  | .nan, _ | _, .nan => .nan
  | .inf x, .inf y => if x = y then .inf x else .nan
  | .inf x, _ | _, .inf x => .inf x
  | .fin na ma ea, .fin nb mb eb =>
    let e := min ea eb
    ofSum (alignTo na ma ea e + alignTo nb mb eb e) e (na && nb && ma = 0 && mb = 0)

/-- Exact product of two values (R147 for specials). -/
def Val.mul (a b : Val) : Val :=
  match a, b with
  | .nan, _ | _, .nan => .nan
  | .inf x, .inf y => .inf (x != y)
  | .inf x, .fin n m _ | .fin n m _, .inf x => if m = 0 then .nan else .inf (x != n)
  | .fin na ma ea, .fin nb mb eb => .fin (na != nb) (ma * mb) (ea + eb)

/-- FP32 addition, rounded once (R92). -/
def fadd (a b : Nat) : Nat := toF32 ((ofF32 a).add (ofF32 b))
/-- FP32 multiplication, rounded once (R92). -/
def fmul (a b : Nat) : Nat := toF32 ((ofF32 a).mul (ofF32 b))
/-- FP32 negation of a value that is not NaN. -/
def fneg (a : Nat) : Nat := if a ≥ 0x80000000 then a - 0x80000000 else a + 0x80000000
/-- FP32 fused multiply-add a * b + c, rounded once (R92). -/
def ffma (a b c : Nat) : Nat := toF32 (((ofF32 a).mul (ofF32 b)).add (ofF32 c))

/-- Order of two FP32 values that are not NaN, with -0 below +0 (R372). -/
def flt (a b : Nat) : Bool :=
  let ka : Int := if a ≥ 0x80000000 then -((a - 0x80000000 : Nat) : Int) - 1 else a
  let kb : Int := if b ≥ 0x80000000 then -((b - 0x80000000 : Nat) : Int) - 1 else b
  ka < kb

/-- Whether FP32 bits are a NaN. -/
def isNan32 (a : Nat) : Bool := ofF32 a = .nan

/-- FP32 maximum; NaN when either is NaN (R372). -/
def fmax (a b : Nat) : Nat := if isNan32 a ∨ isNan32 b then nan32 else if flt a b then b else a
/-- FP32 minimum; NaN when either is NaN (R372). -/
def fmin (a b : Nat) : Nat := if isNan32 a ∨ isNan32 b then nan32 else if flt b a then b else a

/-- num / den * 2^e with a sticky low bit, at least 30 bits long, so that rounding it rounds the exact quotient. -/
def quotVal (neg : Bool) (num den : Nat) (e : Int) : Val :=
  if num = 0 then .fin neg 0 0
  else
    let s := 32 + Nat.log2 den - Nat.log2 num
    let q := num * 2 ^ s / den
    let sticky := if num * 2 ^ s % den = 0 then 0 else 1
    .fin neg (2 * q + sticky) (e - s - 1)

/-- Quotient of two values (IEEE rules). -/
def Val.quot (a b : Val) : Val :=
  match a, b with
  | .nan, _ | _, .nan => .nan
  | .inf _, .inf _ => .nan
  | .inf x, .fin n _ _ => .inf (x != n)
  | .fin n _ _, .inf y => .fin (n != y) 0 0
  | .fin na ma ea, .fin nb mb eb =>
    if mb = 0 then (if ma = 0 then .nan else .inf (na != nb))
    else quotVal (na != nb) ma mb (ea - eb)

/-- FP32 division, correctly rounded (R94). -/
def fdiv (a b : Nat) : Nat := toF32 ((ofF32 a).quot (ofF32 b))

/-- Integer square root by bits, from bit `k` down. -/
def isqrtFrom (n : Nat) : Nat → Nat → Nat
  | 0, r => r
  | k + 1, r => if (r + 2 ^ k) * (r + 2 ^ k) ≤ n then isqrtFrom n k (r + 2 ^ k) else isqrtFrom n k r

/-- Integer square root of a number below 2^180. -/
def isqrt (n : Nat) : Nat := isqrtFrom n 90 0

/-- The square root of m * 2^e, at least 32 bits long with a sticky low bit. -/
def sqrtVal (m : Nat) (e : Int) : Val :=
  if m = 0 then .fin false 0 0
  else
    let k : Nat := 70 + (if (e - 70) % 2 = 0 then 0 else 1)
    let n := m * 2 ^ k
    let r := isqrt n
    .fin false (2 * r + (if r * r = n then 0 else 1)) ((e - k) / 2 - 1)

/-- FP32 square root, correctly rounded (R94); negative non-zero gives NaN, -0 stays -0 (R95; IEEE). -/
def fsqrt (a : Nat) : Nat :=
  match ofF32 a with
  | .nan => nan32
  | .inf neg => if neg then nan32 else inf32 false
  | .fin neg m e => if m = 0 then a else if neg then nan32 else toF32 (sqrtVal m e)

/-- Element width in bits of a format code (R140). -/
def fmtBits (f : Nat) : Nat :=
  if f = 0 then 32 else if f = 1 ∨ f = 2 then 16
  else if f = 5 ∨ f = 9 ∨ f = 10 ∨ f = 13 then 4
  else if f = 7 ∨ f = 8 then 6 else 8

/-- Whether a format code carries block scales (0x6 to 0xB, R140). -/
def isMx (f : Nat) : Bool := 6 ≤ f ∧ f ≤ 11
/-- Bytes of one scale entry: two for MXFP4-S, one for the other block-scaled formats (R143, R144). -/
def scaleBytes (f : Nat) : Nat := if f = 10 then 2 else 1
/-- Whether a format code is an integer format of R115. -/
def isIntFmt (f : Nat) : Bool := f = 12 ∨ f = 13
/-- Whether a format code is of the wide class (R114). -/
def isWideFmt (f : Nat) : Bool := f = 1 ∨ f = 2
/-- Whether a format code is of the 4-bit class (R114). -/
def is4Fmt (f : Nat) : Bool := f = 5 ∨ f = 9 ∨ f = 10 ∨ f = 13

/-- The floating element format of a code, for those that have one. -/
def elemFmt (f : Nat) : FFmt :=
  if f = 0 then fFp32 else if f = 1 then fBf16 else if f = 2 then fFp16
  else if f = 3 ∨ f = 6 then fE4m3 else if f = 4 then fE5m2
  else if f = 7 then fE2m3 else if f = 8 then fE3m2 else fE2m1

/-- The value of an element code without its block scale (R141). -/
def elemDecode (f c : Nat) : Val :=
  if f = 11 then intDecode 8 c (-6)
  else if f = 12 then intDecode 8 c 0
  else if f = 13 then intDecode 4 c 0
  else (elemFmt f).decode c

/-- The value of element `idx` of its block under a scale entry (R143, R144): byte 0 the E8M0 scale, byte 1 the
sub-scales of MXFP4-S. -/
def mxDecode (f c idx scale sub : Nat) : Val :=
  if scale = 0xFF then .nan
  else
    let g : Int := if f = 10 then (sub / 4 ^ (idx / 8) % 4 : Nat) else 0
    (elemDecode f c).scale ((scale : Int) - 127 - g)

/-- Narrow a value to an unscaled element code (R155): formats 0x0 to 0x5, 0xC, 0xD. -/
def elemEncode (f : Nat) (md : Rnd) (v : Val) : Nat :=
  if f = 12 then intEncode 8 md v else if f = 13 then intEncode 4 md v else (elemFmt f).encode md v

/-- emax of R145 for a block-scaled format. -/
def mxEmax (f : Nat) : Int :=
  if f = 6 then 8 else if f = 7 then 2 else if f = 8 then 4 else if f = 11 then 0 else 2

/-- floor(log2 |v|) of a finite non-zero value. -/
def Val.floorLog2 : Val → Int
  | .fin _ m e => Nat.log2 m + e
  | _ => 0

/-- Whether a finite value is zero. -/
def Val.isZero : Val → Bool
  | .fin _ m _ => m = 0
  | _ => false

/-- Whether a value is NaN or an infinity. -/
def Val.isSpecial : Val → Bool
  | .fin _ _ _ => false
  | _ => true

/-- Magnitude order of two finite values. -/
def Val.magLe (a b : Val) : Bool :=
  match a, b with
  | .fin _ ma ea, .fin _ mb eb => let e := min ea eb
    ma * 2 ^ (ea - e).natAbs ≤ mb * 2 ^ (eb - e).natAbs
  | _, _ => true

/-- The largest magnitude of a list of finite values. -/
def amax (l : List Val) : Val := l.foldl (fun a v => if a.magLe v then v else a) (.fin false 0 0)

/-- Step 6 of R145: the element code, saturating to the largest finite element in every mode. -/
def mxElem (f : Nat) (md : Rnd) (v : Val) : Nat :=
  if f = 11 then
    match v with
    | .fin neg m e =>
      let q := min 127 (roundShift md m (-6 - e))
      if neg then (256 - q) % 256 else q
    | _ => 0
  else
    match v with
    | .fin neg m e => (elemFmt f).withSign neg (min (elemFmt f).maxCode ((elemFmt f).roundMag md m e))
    | _ => 0

/-- Quantise one block (R145): scale byte, sub-scale byte, element codes. `md i` is the rounding of element i. -/
def mxQuant (f : Nat) (md : Nat → Rnd) (xs : List Val) : Nat × Nat × List Nat :=
  if xs.any Val.isSpecial then (0xFF, 0, xs.map (fun _ => 0))
  else
    let am := amax xs
    if am.isZero then (0, 0, xs.map (fun _ => 0))
    else
      let fl := am.floorLog2
      let e := max (-127) (min 127 (fl - mxEmax f))
      let sub (g : Nat) : Nat :=
        let ag := amax ((xs.drop (8 * g)).take 8)
        if f ≠ 10 ∨ ag.isZero then 0 else min 3 (fl - ag.floorLog2).natAbs
      let codes := xs.zipIdx.map (fun (x, i) => mxElem f (md i) (x.scale (-e + (sub (i / 8) : Int))))
      ((e + 127).natAbs, sub 0 + 4 * sub 1 + 16 * sub 2 + 64 * sub 3, codes)

/-- The 64-bit value of element `e` before the final shift (R157, R500). -/
def srMix (seed e : Nat) : Nat :=
  let w := 2 ^ 64
  let z0 := (seed ^^^ (e * 0x9E3779B97F4A7C15 % w)) % w
  let z1 := ((z0 ^^^ (z0 / 2 ^ 30)) * 0xBF58476D1CE4E5B9) % w
  let z2 := ((z1 ^^^ (z1 / 2 ^ 27)) * 0x94D049BB133111EB) % w
  z2 ^^^ (z2 / 2 ^ 31)
/-- The 16 random bits of element `e` (R157). -/
def srBits (seed e : Nat) : Nat := srMix seed e / 2 ^ 48

/-- The rounding of element `e` under round code `rc` and seed (R154, R157). -/
def rndOf (rc seed e : Nat) : Rnd :=
  if rc = 1 then .nearSat else if rc = 2 then .zero else if rc = 3 then .stoch (srBits seed e) else .near

/-! Accumulators. -/

/-- One accumulator (R129, R148): the integer V and anchor of the exact classes, or the FP32 bits of the wide class in
`v`, with the sticky flags of R147 and R149. -/
structure Acc where
  v : Int
  anchor : Option Int
  inexact : Bool
  nan : Bool
  posInf : Bool
  negInf : Bool
  wide : Bool
  deriving DecidableEq, Repr

/-- The zeroed accumulator (R130, R148). -/
def Acc.zero : Acc := ⟨0, none, false, false, false, false, false⟩

/-- round_ne (s / 2^k) of an integer. -/
def roundNeInt (s : Int) (k : Nat) : Int :=
  let q := roundShift .near s.natAbs k
  if s < 0 then -(q : Int) else q

/-- The smallest k, from `k` on, with |round_ne (s / 2^k)| < 2^111 (R148). -/
def fitShift (s : Int) : Nat → Nat → Nat
  | 0, k => k
  | fuel + 1, k => if (roundNeInt s k).natAbs < 2 ^ 111 then k else fitShift s fuel (k + 1)

/-- add_term of R148 for a term t * 2^e that is not zero. -/
def Acc.addTerm (a : Acc) (t : Int) (e : Int) : Acc :=
  if t = 0 then a
  else
    let a0 : Int := match a.anchor with
      | none => e
      | some x => min x e
    let s : Int := (match a.anchor with
      | none => 0
      | some x => a.v * 2 ^ (x - a0).natAbs) + t * 2 ^ (e - a0).natAbs
    let k := fitShift s (Nat.log2 s.natAbs) 0
    let v := roundNeInt s k
    { a with v := v, anchor := some (a0 + k), inexact := a.inexact || v * 2 ^ k != s }

/-- One product enters an exact accumulator (R147, R148); `e` is the term's exponent c + la + lb. -/
def Acc.addProduct (a : Acc) (p : Val) (e : Int) : Acc :=
  match p with
  | .nan => { a with nan := true }
  | .inf neg => if neg then { a with negInf := true } else { a with posInf := true }
  | .fin neg m ex => a.addTerm (alignTo neg m ex (min e ex)) (min e ex)

/-- FP32 bits with any NaN made canonical (R159, R161). -/
def canon32 (b : Nat) : Nat := if isNan32 b then nan32 else b

/-- The FP32 value of an accumulator (R153); a NaN is canonical (R161). -/
def Acc.toF32 (a : Acc) : Nat :=
  if a.wide then canon32 (a.v.natAbs % 2 ^ 32)
  else if a.nan ∨ (a.posInf ∧ a.negInf) then nan32
  else if a.posInf then inf32 false
  else if a.negInf then inf32 true
  else Machine.toF32 (.fin (decide (a.v < 0)) a.v.natAbs (a.anchor.getD 0))

/-- lsb exponent l of an element format (R146). -/
def fmtLsb (f : Nat) : Int :=
  if f = 3 ∨ f = 6 then -9 else if f = 4 then -16 else if f = 8 then -4 else if f = 7 then -3
  else if f = 5 ∨ f = 9 then -1 else if f = 10 then -4 else if f = 11 then -6 else 0

/-- The nan, pos_inf and neg_inf bits of a long partial of the wide class: what the FP32 accumulator is (R132). -/
def wideFlags (b : Nat) : Nat :=
  if isNan32 b then 2 ^ 123 else if b = inf32 false then 2 ^ 124 else if b = inf32 true then 2 ^ 125 else 0
/-- A long partial of an accumulator (R132), 128 bits. An exact accumulator whose two infinity flags are both set is NaN (R147):
its nan bit reads 1, and the infinity bits read the flags (assumption 70). -/
def Acc.toLp (a : Acc) : Nat :=
  if a.wide then canon32 (a.v.natAbs % 2 ^ 32) + wideFlags (a.v.natAbs % 2 ^ 32) + 2 ^ 126
  else
    let anc : Int := a.anchor.getD 0
    (Int.emod a.v (2 ^ 112)).natAbs + (Int.emod anc 1024).natAbs * 2 ^ 112 + (if a.inexact then 2 ^ 122 else 0)
      + (if a.nan ∨ (a.posInf ∧ a.negInf) then 2 ^ 123 else 0) + (if a.posInf then 2 ^ 124 else 0) + (if a.negInf then 2 ^ 125 else 0)

/-- The accumulator that a long partial describes (R132, R133): a value of 0 leaves no anchor, and a NaN of the wide class is
canonical (R161). -/
def Acc.ofLp (w : Nat) : Acc :=
  if w / 2 ^ 126 % 2 = 1 then { Acc.zero with v := Int.ofNat (canon32 (w % 2 ^ 32)), wide := true }
  else
    let raw : Nat := w % 2 ^ 112
    let v : Int := if raw ≥ 2 ^ 111 then Int.ofNat raw - 2 ^ 112 else Int.ofNat raw
    let an : Nat := w / 2 ^ 112 % 1024
    let anc : Int := if an ≥ 512 then Int.ofNat an - 1024 else Int.ofNat an
    ⟨v, if v = 0 then none else some anc, w / 2 ^ 122 % 2 = 1, w / 2 ^ 123 % 2 = 1, w / 2 ^ 124 % 2 = 1,
      w / 2 ^ 125 % 2 = 1, false⟩

/-- LP_ADD of a long partial into an accumulator of its class (R133, R147, R149). -/
def Acc.addLp (a l : Acc) : Acc :=
  if l.wide then { a with v := (fadd a.v.natAbs l.v.natAbs : Nat), wide := true }
  else
    let b := a.addTerm l.v (l.anchor.getD 0)
    { b with inexact := b.inexact || l.inexact, nan := b.nan || l.nan, posInf := b.posInf || l.posInf,
             negInf := b.negInf || l.negInf }

/-- One level of a pairwise tree: adjacent pairs, an odd last leaf carried up. -/
def pairUp (f : Nat → Nat → Nat) : List Nat → List Nat
  | a :: b :: r => f a b :: pairUp f r
  | l => l

/-- A pairwise tree of at most 2^fuel leaves, lowest position first (R93, R159). -/
def treeFold (f : Nat → Nat → Nat) (z : Nat) : Nat → List Nat → Nat
  | _, [] => z
  | _, [x] => x
  | 0, x :: _ => x
  | k + 1, l => treeFold f z k (pairUp f l)

end Sys2Proof.Machine
end

