-- ==== Sys2Proof/Machine/RegMap.lean ====
section
/-! DEFINITION. The registers of the FJB-5264: one name per register (R582), the fields of each with access code and
reset value (the Reset column of the field tables; R5 to R8, R576, R581), and the maps from BAR0 offsets to names
(R112, R430, R573, R574). Standby, Fused and Sampled columns without a stated value and the From columns read 0 here, but for
DEV_CORE_GOOD, which reads every core good, and HARN_FUSE, which reads tree-key slot 0 programmed
(assumption 1; R574 for the From columns in Bare). Written by a script from the register tables of spec/. -/
namespace Sys2Proof.Machine

/-- Access codes of R7. -/
inductive AccessCode where | ro | wo | rw | w1c | w1s | gf | snap
  deriving DecidableEq, Repr

/-- A field of a 64-bit register: lowest bit, width, access code, reset value. -/
structure Fld where
  lo : Nat
  width : Nat
  acc : AccessCode
  rst : Nat
  deriving DecidableEq, Repr

/-- Every register of the manual (R582), 64 bits each (R5). A PART register carries its partition first, a CORE
register its logical core, then the indices of the register tables. -/
inductive Reg where
  /-- DEV_ID (RO, R572, 18). -/
  | devId
  /-- DEV_CTL (WO, R572, 18). -/
  | devCtl
  /-- DEV_BOOT (RO, R572, 18). -/
  | devBoot
  /-- DEV_DIE (RO, R572, 18). -/
  | devDie
  /-- DEV_CLK (RO, R572, 18). -/
  | devClk
  /-- DEV_FW (RO, R572, 18). -/
  | devFw
  /-- DEV_STRAP (RO, R572, 18). -/
  | devStrap
  /-- DEV_IRQ_STAT (W1C, R572, 18). -/
  | devIrqStat
  /-- DEV_CORE_GOOD (RO, R572, 18). -/
  | devCoreGood (j : Nat)
  /-- DEV_D2D (RO, R572, 18). -/
  | devD2d (l : Nat)
  /-- DEV_LOOP_CTL (RW, R572, 18). -/
  | devLoopCtl
  /-- DEV_LOOP_RES (RO, R572, 18). -/
  | devLoopRes
  /-- HARN_STATE (RO, R68, 02). -/
  | harnState
  /-- HARN_CTL (WO, R68, 02). -/
  | harnCtl
  /-- HARN_STATUS (RO, R68, 02). -/
  | harnStatus
  /-- HARN_PUSH_ADDR (RW, R68, 02). -/
  | harnPushAddr
  /-- HARN_PUSH_LEN (RW, R68, 02). -/
  | harnPushLen
  /-- HARN_BOOT (GF, R68, 02). -/
  | harnBoot
  /-- HARN_FUSE (RO, R68, 02). -/
  | harnFuse
  /-- HARN_DIGEST (RO, R68, 02). -/
  | harnDigest (i : Nat)
  /-- STCH_CTL (RO, WO, R313, 10). -/
  | stchCtl
  /-- STCH_STATUS (RO, R313, 10). -/
  | stchStatus
  /-- STCH_COUNT (RO, R313, 10). -/
  | stchCount
  /-- STCH_MASTER_COUNT (RO, R313, 10). -/
  | stchMasterCount
  /-- STCH_PHASE (RO, R313, 10). -/
  | stchPhase
  /-- STCH_UPTIME_NS (RO, R313, 10). -/
  | stchUptimeNs
  /-- STCH_BOOT_ID (RO, R313, 10). -/
  | stchBootId
  /-- STCH_TICK_COUNT (SNAP, R313, 10). -/
  | stchTickCount
  /-- STCH_TICK_UPTIME (SNAP, R313, 10). -/
  | stchTickUptime
  /-- STCH_STAT (RO, R313, 10). -/
  | stchStat
  /-- STCH_PART (RO, R313, 10). -/
  | stchPart (p : Nat)
  /-- PWR_CFG (RO, R540, 17). -/
  | pwrCfg
  /-- PWR_STATE (RO, R540, 17). -/
  | pwrState
  /-- PWR_SAG_CTL (RW, R540, 17). -/
  | pwrSagCtl
  /-- PWR_IRQ_STAT (W1C, R540, 17). -/
  | pwrIrqStat
  /-- PWR_NOW (RO, R540, 17). -/
  | pwrNow
  /-- PWR_VIN_SNAP (SNAP, R540, 17). -/
  | pwrVinSnap
  /-- PWR_PIN_SNAP (SNAP, R540, 17). -/
  | pwrPinSnap
  /-- PWR_ENERGY_SNAP (SNAP, R540, 17). -/
  | pwrEnergySnap
  /-- PWR_LASTGASP (RO, R540, 17). -/
  | pwrLastgasp (i : Nat)
  /-- PWR_GRANT (GF, R540, 17). -/
  | pwrGrant (p : Nat)
  /-- PWR_PART (RO, R540, 17). -/
  | pwrPart (p : Nat)
  /-- THRM_CLASS (RO, R541, 17). -/
  | thrmClass (c : Nat)
  /-- THRM_STATUS (RO, R541, 17). -/
  | thrmStatus
  /-- THRM_DOM_SNAP (SNAP, R541, 17). -/
  | thrmDomSnap (d : Nat)
  /-- THRM_MAXHOLD (RO, R541, 17). -/
  | thrmMaxhold (d : Nat)
  /-- THRM_SENSOR (RO, R541, 17). -/
  | thrmSensor (s : Nat)
  /-- ERR_RING_HEAD (RO, R509, 16). -/
  | errRingHead
  /-- ERR_RING_READ (RW, R509, 16). -/
  | errRingRead
  /-- ERR_EVENTS_LOST_OLDEST (RO, R509, 16). -/
  | errEventsLostOldest
  /-- ERR_INTAKE (RO, R509, 16). -/
  | errIntake
  /-- ERR_PATH (RO, R509, 16). -/
  | errPath
  /-- ERR_AWL_CTL (RW, R509, 16). -/
  | errAwlCtl
  /-- ERR_AWL_STAT (RO, R509, 16). -/
  | errAwlStat
  /-- ERR_SIG_STAT (RO, R509, 16). -/
  | errSigStat
  /-- ERR_CAP_CTL (W1C, RO, R509, 16). -/
  | errCapCtl (b : Nat)
  /-- ERR_FIRST (RO, R509, 16). -/
  | errFirst (b i : Nat)
  /-- ERR_NEXT (RO, R509, 16). -/
  | errNext (b i : Nat)
  /-- ERR_RING (RO, R509, 16). -/
  | errRing (s i : Nat)
  /-- ERR_SIG (RO, R509, 16). -/
  | errSig (g i : Nat)
  /-- FAB_NODE (RO, R350, 11). -/
  | fabNode
  /-- FAB_TABLE_CTL (RW, R350, 11). -/
  | fabTableCtl
  /-- FAB_TABLE_STATUS (RO, R350, 11). -/
  | fabTableStatus
  /-- FAB_VC_CFG (RO, R350, 11). -/
  | fabVcCfg
  /-- FAB_CREDIT_CFG (RO, R350, 11). -/
  | fabCreditCfg (j : Nat)
  /-- FAB_STAT (RO, R350, 11). -/
  | fabStat (j : Nat)
  /-- FAB_ROUTE (GF, R350, 11). -/
  | fabRoute (n : Nat)
  /-- FAB_XLATE (GF, R350, 11). -/
  | fabXlate (n : Nat)
  /-- FAB_REACH (GF, R350, 11). -/
  | fabReach (p i : Nat)
  /-- FAB_TRANSIT (RO, R350, 11). -/
  | fabTransit (p : Nat)
  /-- FAB_CONS_DEV (RO, R479, 15). -/
  | fabConsDev
  /-- FAB_PORT_STATE (RO, R350, 11). -/
  | fabPortState (k : Nat)
  /-- FAB_TX_BYTES_SNAP (SNAP, R350, 11). -/
  | fabTxBytesSnap (k : Nat)
  /-- FAB_RX_BYTES_SNAP (SNAP, R350, 11). -/
  | fabRxBytesSnap (k : Nat)
  /-- FAB_TX_FLITS_SNAP (SNAP, R350, 11). -/
  | fabTxFlitsSnap (k : Nat)
  /-- FAB_RX_FLITS_SNAP (SNAP, R350, 11). -/
  | fabRxFlitsSnap (k : Nat)
  /-- FAB_LINK_ERR (RO, R350, 11). -/
  | fabLinkErr (k : Nat)
  /-- FAB_CONS_STAT (RO, R479, 15). -/
  | fabConsStat (k : Nat)
  /-- FAB_CONS_RETIRED (RO, R479, 15). -/
  | fabConsRetired (k : Nat)
  /-- FAB_STALL_SNAP (SNAP, R350, 11). -/
  | fabStallSnap (k v : Nat)
  /-- FAB_QUEUE_SNAP (SNAP, R350, 11). -/
  | fabQueueSnap (k v : Nat)
  /-- FAB_CREDIT (SNAP, R479, 15). -/
  | fabCredit (k j : Nat)
  /-- OPT_CFG (RO, R422, 13). -/
  | optCfg
  /-- OPT_SLEW_STAT (RO, R422, 13). -/
  | optSlewStat
  /-- OPT_FEED (RO, R422, 13). -/
  | optFeed (j : Nat)
  /-- OPT_SLEW_PART (RO, R422, 13). -/
  | optSlewPart (p : Nat)
  /-- OPT_PORT_STATE (RO, R422, 13). -/
  | optPortState (k : Nat)
  /-- OPT_PORT_CTL (RW, R422, 13). -/
  | optPortCtl (k : Nat)
  /-- OPT_LB_RES (RO, R422, 13). -/
  | optLbRes (k : Nat)
  /-- OPT_PORT_STAT (RO, R422, 13). -/
  | optPortStat (k : Nat)
  /-- OPT_TX_LINE (RO, R422, 13). -/
  | optTxLine (k l : Nat)
  /-- OPT_RX_LINE (RO, R422, 13). -/
  | optRxLine (k l : Nat)
  /-- HBM_STACK_STATE (RO, R254, 08). -/
  | hbmStackState (k : Nat)
  /-- HBM_SCRUB_CTL (RW, R254, 08). -/
  | hbmScrubCtl
  /-- HBM_MARGIN_CTL (RW, R254, 08). -/
  | hbmMarginCtl
  /-- HBM_MARGIN_RES (RO, R254, 08). -/
  | hbmMarginRes
  /-- HBM_SCRUB_STAT (SNAP, R254, 08). -/
  | hbmScrubStat (k : Nat)
  /-- HBM_RD_SNAP (SNAP, R254, 08). -/
  | hbmRdSnap (p : Nat)
  /-- HBM_WR_SNAP (SNAP, R254, 08). -/
  | hbmWrSnap (p : Nat)
  /-- HBM_REGION (RO, R254, 08). -/
  | hbmRegion (i : Nat)
  /-- HBM_CH_STATE (RO, R254, 08). -/
  | hbmChState (k c : Nat)
  /-- HBM_CH_ECC (RO, R254, 08). -/
  | hbmChEcc (k c : Nat)
  /-- LLS_SLICE (RO, R225, 07). -/
  | llsSlice (d p : Nat)
  /-- LLS_HIT_SNAP (SNAP, R225, 07). -/
  | llsHitSnap (d p : Nat)
  /-- LLS_MISS_SNAP (SNAP, R225, 07). -/
  | llsMissSnap (d p : Nat)
  /-- LLS_ERR (RO, R225, 07). -/
  | llsErr (d : Nat)
  /-- CORE_CAP (RO, R112, 03). -/
  | coreCap (n : Nat)
  /-- CORE_ID (RO, R112, 03). -/
  | coreId (n : Nat)
  /-- CORE_CTL (WO, R112, 03). -/
  | coreCtl (n : Nat)
  /-- CORE_STATE (RO, R112, 03). -/
  | coreState (n : Nat)
  /-- CORE_FAULT (RO, R112, 03). -/
  | coreFault (n : Nat)
  /-- CORE_QSTAT (RO, R112, 03). -/
  | coreQstat (n : Nat)
  /-- CORE_MX_STATE (RO, R139, 04). -/
  | coreMxState (n : Nat)
  /-- CORE_MX_INEXACT (W1C, R139, 04). -/
  | coreMxInexact (n : Nat)
  /-- CORE_PC (RO, R112, 03). -/
  | corePc (n t : Nat)
  /-- CORE_SKV_GATE (RO, R192, 06). -/
  | coreSkvGate (n : Nat)
  /-- CORE_SKV_SLOTS (RO, R192, 06). -/
  | coreSkvSlots (n : Nat)
  /-- CORE_SPM_ECC (RO, R224, 07). -/
  | coreSpmEcc (n : Nat)
  /-- CORE_SPM_BLK (RO, R224, 07). -/
  | coreSpmBlk (n : Nat)
  /-- CORE_TACK (RO, R284, 09). -/
  | coreTack (n : Nat)
  /-- CORE_SYNC_STAT (RO, R284, 09). -/
  | coreSyncStat (n : Nat)
  /-- CORE_AWL (RO, R510, 16). -/
  | coreAwl (n : Nat)
  /-- CORE_ENV (RO, R112, 03). -/
  | coreEnv (n t k : Nat)
  /-- CORE_BUSY_SNAP (SNAP, R112, 03). -/
  | coreBusySnap (n e : Nat)
  /-- CORE_PHYS (RO, R112, 03). -/
  | corePhys (n : Nat)
  /-- CORE_SPM_REMAP (GF, R224, 07). -/
  | coreSpmRemap (n b i : Nat)
  /-- PART_ID (RO, R453, 14). -/
  | partId (q : Nat)
  /-- PART_STATE (RO, R453, 14). -/
  | partState (q : Nat)
  /-- PART_IRQ_STAT (W1C, R453, 14). -/
  | partIrqStat (q : Nat)
  /-- PART_IRQ_TAG (RO, R453, 14). -/
  | partIrqTag (q : Nat)
  /-- PART_STRAP_CTL (WO, R68, 02). -/
  | partStrapCtl (q : Nat)
  /-- PART_STRAP_STATUS (RO, R68, 02). -/
  | partStrapStatus (q : Nat)
  /-- PART_STRAP_DIGEST (RO, R68, 02). -/
  | partStrapDigest (q i : Nat)
  /-- PART_STRAP_KEY (RO, R68, 02). -/
  | partStrapKey (q i : Nat)
  /-- PART_STRAP_ADDR (RW, R68, 02). -/
  | partStrapAddr (q : Nat)
  /-- PART_STRAP_LEN (RW, R68, 02). -/
  | partStrapLen (q : Nat)
  /-- PART_HCHK_BASE (RW, R226, 07). -/
  | partHchkBase (q : Nat)
  /-- PART_HCHK_SIZE (RW, R226, 07). -/
  | partHchkSize (q : Nat)
  /-- PART_HCHK_ARRAY (RW, R226, 07). -/
  | partHchkArray (q : Nat)
  /-- PART_LLS (RO, R226, 07). -/
  | partLls (q d : Nat)
  /-- PART_HBM (RO, R255, 08). -/
  | partHbm (q : Nat)
  /-- PART_HBM_RD_SNAP (SNAP, R255, 08). -/
  | partHbmRdSnap (q : Nat)
  /-- PART_HBM_WR_SNAP (SNAP, R255, 08). -/
  | partHbmWrSnap (q : Nat)
  /-- PART_RX_BYTES (RO, R285, 09). -/
  | partRxBytes (q c : Nat)
  /-- PART_RX_PKTS (RO, R285, 09). -/
  | partRxPkts (q c : Nat)
  /-- PART_RX_ARM (RO, R285, 09). -/
  | partRxArm (q c : Nat)
  /-- PART_RX_CTL (WO, R285, 09). -/
  | partRxCtl (q : Nat)
  /-- PART_SYNC_STAT (RO, R285, 09). -/
  | partSyncStat (q : Nat)
  /-- PART_GTACK_CTL (GF, R285, 09). -/
  | partGtackCtl (q : Nat)
  /-- PART_FLAG_HOLD (RO, R285, 09). -/
  | partFlagHold (q : Nat)
  /-- PART_GTACK (RO, R285, 09). -/
  | partGtack (q j : Nat)
  /-- PART_CINCH (RO, R285, 09). -/
  | partCinch (q : Nat)
  /-- PART_STCH_CFG (RO, R314, 10). -/
  | partStchCfg (q : Nat)
  /-- PART_STCH_CTL (RW, R314, 10). -/
  | partStchCtl (q : Nat)
  /-- PART_STCH_SEG (RO, R314, 10). -/
  | partStchSeg (q : Nat)
  /-- PART_STCH_SLIP (RO, R314, 10). -/
  | partStchSlip (q : Nat)
  /-- PART_FAB_NODE (RO, R351, 11). -/
  | partFabNode (q : Nat)
  /-- PART_FAB_REACH (RO, R351, 11). -/
  | partFabReach (q i : Nat)
  /-- PART_FAB_TX_SNAP (SNAP, R351, 11). -/
  | partFabTxSnap (q : Nat)
  /-- PART_FAB_RX_SNAP (SNAP, R351, 11). -/
  | partFabRxSnap (q : Nat)
  /-- PART_FAB_STAT (RO, R351, 11). -/
  | partFabStat (q : Nat)
  /-- PART_REGION (GF, R382, 12). -/
  | partRegion (q i w : Nat)
  /-- PART_RMT_CTL (RW, R382, 12). -/
  | partRmtCtl (q : Nat)
  /-- PART_RMT_STAT (RO, R382, 12). -/
  | partRmtStat (q : Nat)
  /-- PART_COLL_STAT (RO, R382, 12). -/
  | partCollStat (q : Nat)
  /-- PART_ATOM_SNAP (SNAP, R382, 12). -/
  | partAtomSnap (q : Nat)
  /-- PART_SLEW (RO, R423, 13). -/
  | partSlew (q : Nat)
  /-- PART_ETH_STAT (RO, R423, 13). -/
  | partEthStat (q : Nat)
  /-- PART_PWR (RO, R542, 17). -/
  | partPwr (q : Nat)
  /-- PART_PWR_STAT (RO, R542, 17). -/
  | partPwrStat (q : Nat)
  /-- PART_ETHQ_CTL (RW, R453, 14). -/
  | partEthqCtl (q i : Nat)
  /-- PART_ETHQ_TX_BASE (RW, R453, 14). -/
  | partEthqTxBase (q i : Nat)
  /-- PART_ETHQ_TX_TAIL (RW, R453, 14). -/
  | partEthqTxTail (q i : Nat)
  /-- PART_ETHQ_TX_HEAD (RO, R453, 14). -/
  | partEthqTxHead (q i : Nat)
  /-- PART_ETHQ_RX_BASE (RW, R453, 14). -/
  | partEthqRxBase (q i : Nat)
  /-- PART_ETHQ_RX_TAIL (RW, R453, 14). -/
  | partEthqRxTail (q i : Nat)
  /-- PART_ETHQ_RX_HEAD (RO, R453, 14). -/
  | partEthqRxHead (q i : Nat)
  /-- PART_ETHQ_STAT (RO, R453, 14). -/
  | partEthqStat (q i : Nat)
  /-- PART_EVT_HEAD (RO, R511, 16). -/
  | partEvtHead (q : Nat)
  /-- PART_EVT_READ (RW, R511, 16). -/
  | partEvtRead (q : Nat)
  /-- PART_EVT_LOST (RO, R511, 16). -/
  | partEvtLost (q : Nat)
  /-- PART_STEP_CTL (WO, R511, 16). -/
  | partStepCtl (q : Nat)
  /-- PART_STEP_STATUS (RO, R511, 16). -/
  | partStepStatus (q : Nat)
  /-- PART_STEP_ID (RW, R511, 16). -/
  | partStepId (q : Nat)
  /-- PART_STEP_FOLD (RO, R511, 16). -/
  | partStepFold (q : Nat)
  /-- PART_STEP_RANGE (RW, R511, 16). -/
  | partStepRange (q i w : Nat)
  /-- PART_REPLAY_SRC (RW, R511, 16). -/
  | partReplaySrc (q : Nat)
  /-- PART_REPLAY_DST (RW, R511, 16). -/
  | partReplayDst (q : Nat)
  /-- PART_REPLAY_LEN (RW, R511, 16). -/
  | partReplayLen (q : Nat)
  /-- PART_REPLAY_CTL (WO, R511, 16). -/
  | partReplayCtl (q : Nat)
  /-- PART_REPLAY_STATUS (RO, R511, 16). -/
  | partReplayStatus (q : Nat)
  /-- PART_WDIG_MINE (RW, R511, 16). -/
  | partWdigMine (q j : Nat)
  /-- PART_WDIG_PEER (RW, R511, 16). -/
  | partWdigPeer (q j : Nat)
  /-- PART_WDIG_CTL (WO, R511, 16). -/
  | partWdigCtl (q : Nat)
  /-- PART_WDIG_STAT (RO, R511, 16). -/
  | partWdigStat (q : Nat)
  /-- PART_AWL_CTL (RW, R511, 16). -/
  | partAwlCtl (q : Nat)
  /-- PART_AWL_WIN (RW, R511, 16). -/
  | partAwlWin (q : Nat)
  deriving DecidableEq, Repr

/-- HARN_STATE.dev_state [1:0]: 0 Bare, 1 Framed, 2 Armed, 3 Fenced. Reset: 0 (R68). -/
def HarnState.devState : Fld := ⟨0, 2, .ro, 0⟩
/-- HARN_STATE.drained [2:2]: As R61 defines. Reset: 0 (R68). -/
def HarnState.drained : Fld := ⟨2, 1, .ro, 0⟩
/-- HARN_STATE.busy [3:3]: A Harness operation is running. Reset: 0 (R68). -/
def HarnState.busy : Fld := ⟨3, 1, .ro, 0⟩
/-- HARN_STATE.source [5:4]: Committed image came from: 0 none, 1 slot A, 2 slot B, 3 push. Reset: 0 (R68). -/
def HarnState.source : Fld := ⟨4, 2, .ro, 0⟩
/-- HARN_STATE.armed [63:32]: Bit p set when partition p is Armed. Reset: 0 (R68). -/
def HarnState.armed : Fld := ⟨32, 32, .ro, 0⟩
/-- HARN_CTL.cmd [3:0]: 0x1 COMMIT_SLOT_A, 0x2 COMMIT_SLOT_B, 0x3 COMMIT_PUSH, 0x4 ARM, 0x5 DRAIN, 0x6 WRITE_SLOT_A, 0x7 WRITE_SLOT_B, 0x8 RAISE_SEQ, 0x9 STRAP_PUSH, 0xA U... Reset: 0 (R68). -/
def HarnCtl.cmd : Fld := ⟨0, 4, .wo, 0⟩
/-- HARN_CTL.partition [8:4]: Target of STRAP_PUSH, UNLOAD and RELEASE. Reset: 0 (R68). -/
def HarnCtl.partition : Fld := ⟨4, 5, .wo, 0⟩
/-- HARN_STATUS.step [3:0]: 0 idle, 1–6 tree-commit step, 7 strap commit, 8 slot write. Reset: 0 (R68). -/
def HarnStatus.step : Fld := ⟨0, 4, .ro, 0⟩
/-- HARN_STATUS.result [5:4]: 0 running or none, 1 done, 2 failed, 3 refused. Reset: 0 (R68). -/
def HarnStatus.result : Fld := ⟨4, 2, .ro, 0⟩
/-- HARN_STATUS.code [23:8]: Code from R67, or 0. Reset: 0 (R68). -/
def HarnStatus.code : Fld := ⟨8, 16, .ro, 0⟩
/-- HARN_STATUS.detail [31:24]: Lowest failing row of R41 for HARN_STRUCTURE; otherwise 0. Reset: 0 (R68). -/
def HarnStatus.detail : Fld := ⟨24, 8, .ro, 0⟩
/-- HARN_STATUS.elapsed_us [63:32]: Duration of the current or last operation. Reset: 0 (R68). -/
def HarnStatus.elapsedUs : Fld := ⟨32, 32, .ro, 0⟩
/-- HARN_PUSH_ADDR.addr [63:0]: Host address of the image; [11:0] must be 0, otherwise the commit is refused. Reset: 0 (R68). -/
def HarnPushAddr.addr : Fld := ⟨0, 64, .rw, 0⟩
/-- HARN_PUSH_LEN.len [31:0]: In HARN_PUSH_LEN: image length in bytes, a multiple of 8. Reset: 0 (R68). -/
def HarnPushLen.len : Fld := ⟨0, 32, .rw, 0⟩
/-- HARN_BOOT.autoload [0:0]: Commit a slot after reset. Reset: From flash (R68). -/
def HarnBoot.autoload : Fld := ⟨0, 1, .gf, 0⟩
/-- HARN_BOOT.preferred [1:1]: 0 slot A, 1 slot B. Reset: From flash (R68). -/
def HarnBoot.preferred : Fld := ⟨1, 1, .gf, 0⟩
/-- HARN_BOOT.flesh [63:32]: Complement of [31:0]. Reset: From flash (R68). -/
def HarnBoot.flesh : Fld := ⟨32, 32, .gf, 0⟩
/-- HARN_FUSE.key_present [3:0]: Bit k set when tree-key slot k is programmed. Reset: Fused (R68). -/
def HarnFuse.keyPresent : Fld := ⟨0, 4, .ro, 1⟩
/-- HARN_FUSE.key_revoked [7:4]: Bit k set when slot k is revoked. Reset: Fused (R68). -/
def HarnFuse.keyRevoked : Fld := ⟨4, 4, .ro, 0⟩
/-- HARN_FUSE.min_sequence [14:8]: 0 to 64. Reset: Fused (R68). -/
def HarnFuse.minSequence : Fld := ⟨8, 7, .ro, 0⟩
/-- PART_STRAP_ADDR.addr [63:0]: Host address of the strap image; [11:0] must be 0. Reset: 0 (R68). -/
def PartStrapAddr.addr : Fld := ⟨0, 64, .rw, 0⟩
/-- PART_STRAP_LEN.len [31:0]: Image length in bytes, a multiple of 8. Reset: 0 (R68). -/
def PartStrapLen.len : Fld := ⟨0, 32, .rw, 0⟩
/-- CORE_CAP.spm_kib [15:0]: Scratchpad size in KiB. Reset: 2048 (R112). -/
def CoreCap.spmKib : Fld := ⟨0, 16, .ro, 2048⟩
/-- CORE_CAP.strips [18:16]: Working strips. Reset: 4 (R112). -/
def CoreCap.strips : Fld := ⟨16, 3, .ro, 4⟩
/-- CORE_CAP.cube [19:19]: Cube mode available. Reset: 1 (R112). -/
def CoreCap.cube : Fld := ⟨19, 1, .ro, 1⟩
/-- CORE_CAP.threads [23:20]: Scalar threads. Reset: 8 (R112). -/
def CoreCap.threads : Fld := ⟨20, 4, .ro, 8⟩
/-- CORE_CAP.queue_depth [31:24]: Entries per engine queue. Reset: 16 (R112). -/
def CoreCap.queueDepth : Fld := ⟨24, 8, .ro, 16⟩
/-- CORE_CAP.vec_lanes [43:32]: FP32 vector lanes. Reset: 256 (R112). -/
def CoreCap.vecLanes : Fld := ⟨32, 12, .ro, 256⟩
/-- CORE_CAP.tacks [51:44]: Core tacks. Reset: 32 (R112). -/
def CoreCap.tacks : Fld := ⟨44, 8, .ro, 32⟩
/-- CORE_CAP.dma_inflight [55:52]: DMA descriptors in progress at once. Reset: 8 (R112). -/
def CoreCap.dmaInflight : Fld := ⟨52, 4, .ro, 8⟩
/-- CORE_ID.logical [8:0]: Logical core ID. Reset: From CORE_MAP (R112). -/
def CoreId.logical : Fld := ⟨0, 9, .ro, 0⟩
/-- CORE_ID.die [10:9]: Compute die 0–3. Reset: From CORE_MAP (R112). -/
def CoreId.die : Fld := ⟨9, 2, .ro, 0⟩
/-- CORE_ID.partition [15:11]: Owning partition. Reset: From grant (R112). -/
def CoreId.partition : Fld := ⟨11, 5, .ro, 0⟩
/-- CORE_ID.granted [16:16]: Core belongs to a partition. Reset: From grant (R112). -/
def CoreId.granted : Fld := ⟨16, 1, .ro, 0⟩
/-- CORE_CTL.cmd [3:0]: 0x1 RESUME, 0x2 STOP_ALL, 0x3 CLEAR_FAULT; other values are ignored. Reset: 0 (R112). -/
def CoreCtl.cmd : Fld := ⟨0, 4, .wo, 0⟩
/-- CORE_STATE.state [1:0]: 0 idle, 1 running, 2 halted, 3 retired. Reset: 0 (R112). -/
def CoreState.state : Fld := ⟨0, 2, .ro, 0⟩
/-- CORE_STATE.running [15:8]: Bit t set while thread t is started and not stopped. Reset: 0 (R112). -/
def CoreState.running : Fld := ⟨8, 8, .ro, 0⟩
/-- CORE_STATE.parked [23:16]: Bit t set while thread t is parked. Reset: 0 (R112). -/
def CoreState.parked : Fld := ⟨16, 8, .ro, 0⟩
/-- CORE_FAULT.cause [7:0]: Cause from R108, or 0. Reset: 0 (R112). -/
def CoreFault.cause : Fld := ⟨0, 8, .ro, 0⟩
/-- CORE_FAULT.thread [10:8]: Issuing thread. Reset: 0 (R112). -/
def CoreFault.thread : Fld := ⟨8, 3, .ro, 0⟩
/-- CORE_FAULT.engine [14:11]: Header engine value; 0xF for the scalar engine. Reset: 0 (R112). -/
def CoreFault.engine : Fld := ⟨11, 4, .ro, 0⟩
/-- CORE_FAULT.tag [22:15]: Descriptor tag. Reset: 0 (R112). -/
def CoreFault.tag : Fld := ⟨15, 8, .ro, 0⟩
/-- CORE_FAULT.more [30:23]: Later faults, saturating at 255. Reset: 0 (R112). -/
def CoreFault.more : Fld := ⟨23, 8, .ro, 0⟩
/-- CORE_FAULT.pc [63:32]: Program counter of the issuing instruction. Reset: 0 (R112). -/
def CoreFault.pc : Fld := ⟨32, 32, .ro, 0⟩
/-- CORE_QSTAT.matrix [4:0]: Entries waiting, 0–16. Reset: 0 (R112). -/
def CoreQstat.matrix : Fld := ⟨0, 5, .ro, 0⟩
/-- CORE_QSTAT.vector [12:8]: As matrix. Reset: 0 (R112). -/
def CoreQstat.vector : Fld := ⟨8, 5, .ro, 0⟩
/-- CORE_QSTAT.dma [20:16]: As matrix. Reset: 0 (R112). -/
def CoreQstat.dma : Fld := ⟨16, 5, .ro, 0⟩
/-- CORE_QSTAT.dma_active [24:21]: DMA descriptors in progress, 0–8. Reset: 0 (R112). -/
def CoreQstat.dmaActive : Fld := ⟨21, 4, .ro, 0⟩
/-- CORE_QSTAT.skiver [32:28]: As matrix. Reset: 0 (R112). -/
def CoreQstat.skiver : Fld := ⟨28, 5, .ro, 0⟩
/-- CORE_PC.pc [31:0]: Program counter of thread t, relative to its scratchpad base. Reset: 0 (R112). -/
def CorePc.pc : Fld := ⟨0, 32, .ro, 0⟩
/-- CORE_ENV.value [63:0]: k = 0 spm_base, 1 spm_limit, 2 lls_base, 3 lls_limit, 4 hbm_base, 5 hbm_limit, for thread t. Reset: From PROGRAM (R112). -/
def CoreEnv.value : Fld := ⟨0, 64, .ro, 0⟩
/-- CORE_BUSY_SNAP.cycles [47:0]: Busy cycles of engine e (0 matrix, 1 vector, 2 scalar, 3 DMA, 4 Skiver); wraps modulo 2^48. Reset: 0 (R112). -/
def CoreBusySnap.cycles : Fld := ⟨0, 48, .snap, 0⟩
/-- CORE_PHYS.physical [9:0]: Physical index, 132 × d + p. Reset: From CORE_MAP (R112). -/
def CorePhys.physical : Fld := ⟨0, 10, .ro, 0⟩
/-- CORE_MX_STATE.strip_ok [3:0]: Bit s set when strip s is enabled and not failed. Reset: From STRIP_SHAPE (R139). -/
def CoreMxState.stripOk : Fld := ⟨0, 4, .ro, 0⟩
/-- CORE_MX_STATE.pair_ok [5:4]: Bit p set when pair p may run paired. Reset: From STRIP_SHAPE (R139). -/
def CoreMxState.pairOk : Fld := ⟨4, 2, .ro, 0⟩
/-- CORE_MX_STATE.quad_ok [6:6]: Quad shape available. Reset: From STRIP_SHAPE (R139). -/
def CoreMxState.quadOk : Fld := ⟨6, 1, .ro, 0⟩
/-- CORE_MX_STATE.cube_ok [7:7]: Cube shape available. Reset: From STRIP_SHAPE (R139). -/
def CoreMxState.cubeOk : Fld := ⟨7, 1, .ro, 0⟩
/-- CORE_MX_STATE.busy [11:8]: Bit s set while a descriptor occupies strip s. Reset: 0 (R139). -/
def CoreMxState.busy : Fld := ⟨8, 4, .ro, 0⟩
/-- CORE_MX_STATE.shape [19:12]: Shape of the last MMA on strip s in [13+2s:12+2s]. Reset: 0 (R139). -/
def CoreMxState.shape : Fld := ⟨12, 8, .ro, 0⟩
/-- CORE_MX_STATE.drain_busy [20:20]: The drain path is occupied. Reset: 0 (R139). -/
def CoreMxState.drainBusy : Fld := ⟨20, 1, .ro, 0⟩
/-- CORE_MX_INEXACT.inexact [7:0]: Bit 2s + b set when a DRAIN read bank b of strip s with its inexact flag set. Reset: 0 (R139). -/
def CoreMxInexact.inexact : Fld := ⟨0, 8, .w1c, 0⟩
/-- CORE_SKV_GATE.dropped [31:0]: Slots dropped by GATE for local capacity; saturates. Reset: 0 (R192). -/
def CoreSkvGate.dropped : Fld := ⟨0, 32, .ro, 0⟩
/-- CORE_SKV_GATE.rerouted [63:32]: Slots placed by reroute; saturates. Reset: 0 (R192). -/
def CoreSkvGate.rerouted : Fld := ⟨32, 32, .ro, 0⟩
/-- CORE_SKV_SLOTS.excluded [31:0]: Rows excluded by SLOTS for global capacity; saturates. Reset: 0 (R192). -/
def CoreSkvSlots.excluded : Fld := ⟨0, 32, .ro, 0⟩
/-- CORE_SKV_SLOTS.kept [63:32]: Rows kept by SLOTS; saturates. Reset: 0 (R192). -/
def CoreSkvSlots.kept : Fld := ⟨32, 32, .ro, 0⟩
/-- CORE_SPM_ECC.corrected [31:0]: Corrected words since the last tree commit; saturates. Reset: 0 (R224). -/
def CoreSpmEcc.corrected : Fld := ⟨0, 32, .ro, 0⟩
/-- CORE_SPM_ECC.uncorrected [63:32]: Uncorrectable rows (R202); saturates. Reset: 0 (R224). -/
def CoreSpmEcc.uncorrected : Fld := ⟨32, 32, .ro, 0⟩
/-- CORE_SPM_BLK.crc_fail [31:0]: CRC_BLOCK faults raised by this core's descriptors; saturates. Reset: 0 (R224). -/
def CoreSpmBlk.crcFail : Fld := ⟨0, 32, .ro, 0⟩
/-- CORE_SPM_BLK.spares_used [40:32]: Spare rows in use, all banks, 0 to 256. Reset: Fused (R224). -/
def CoreSpmBlk.sparesUsed : Fld := ⟨32, 9, .ro, 0⟩
/-- CORE_SPM_BLK.max_bank_used [44:41]: Largest number of spares in use in any one bank, 0 to 8. Reset: Fused (R224). -/
def CoreSpmBlk.maxBankUsed : Fld := ⟨41, 4, .ro, 0⟩
/-- CORE_SPM_REMAP.row [8:0]: Row of bank b replaced by spare i. Reset: Fused (R224). -/
def CoreSpmRemap.row : Fld := ⟨0, 9, .gf, 0⟩
/-- CORE_SPM_REMAP.valid [9:9]: Entry in use. Reset: Fused (R224). -/
def CoreSpmRemap.valid : Fld := ⟨9, 1, .gf, 0⟩
/-- CORE_SPM_REMAP.field [10:10]: 0 fused at test, 1 added in the field. Reset: Fused (R224). -/
def CoreSpmRemap.field : Fld := ⟨10, 1, .gf, 0⟩
/-- CORE_SPM_REMAP.flesh [63:32]: Complement of [31:0]. Reset: Fused (R224). -/
def CoreSpmRemap.flesh : Fld := ⟨32, 32, .gf, 0⟩
/-- LLS_SLICE.mode [0:0]: 0 scratch, 1 cache. Reset: From LLS section (R225). -/
def LlsSlice.mode : Fld := ⟨0, 1, .ro, 0⟩
/-- LLS_SLICE.first_way [11:8]: First way (R206). Reset: From grant (R225). -/
def LlsSlice.firstWay : Fld := ⟨8, 4, .ro, 0⟩
/-- LLS_SLICE.ways [20:16]: 0 to 16. Reset: From grant (R225). -/
def LlsSlice.ways : Fld := ⟨16, 5, .ro, 0⟩
/-- LLS_HIT_SNAP.count [47:0]: Cache-mode line hits, or misses, of the slice; wraps modulo 2^48. Reset: 0 (R225). -/
def LlsHitSnap.count : Fld := ⟨0, 48, .snap, 0⟩
/-- LLS_MISS_SNAP.count [47:0]: Cache-mode line hits, or misses, of the slice; wraps modulo 2^48. Reset: 0 (R225). -/
def LlsMissSnap.count : Fld := ⟨0, 48, .snap, 0⟩
/-- LLS_ERR.corrected [31:0]: Corrected words and clean-line refills (R214); saturates. Reset: 0 (R225). -/
def LlsErr.corrected : Fld := ⟨0, 32, .ro, 0⟩
/-- LLS_ERR.uncorrected [63:32]: Lost dirty lines and scratch data; saturates. Reset: 0 (R225). -/
def LlsErr.uncorrected : Fld := ⟨32, 32, .ro, 0⟩
/-- PART_HCHK_BASE.base [63:0]: Host address of the window; [11:0] must be 0. Reset: 0 (R226). -/
def PartHchkBase.base : Fld := ⟨0, 64, .rw, 0⟩
/-- PART_HCHK_SIZE.size [39:0]: Window bytes, a multiple of 4 KiB; 0 disables the window. Reset: 0 (R226). -/
def PartHchkSize.size : Fld := ⟨0, 40, .rw, 0⟩
/-- PART_HCHK_ARRAY.array [63:0]: Host address of the entries; [2:0] must be 0. Reset: 0 (R226). -/
def PartHchkArray.array : Fld := ⟨0, 64, .rw, 0⟩
/-- PART_LLS.slice [63:0]: LLS_SLICE[d][p] of the partition itself. Reset: From tree (R226). -/
def PartLls.slice : Fld := ⟨0, 64, .ro, 0⟩
/-- HBM_STACK_STATE.state [1:0]: 0 untrained, 1 up, 2 degraded (a channel retired or lost), 3 lost. Reset: 0 (R254). -/
def HbmStackState.state : Fld := ⟨0, 2, .ro, 0⟩
/-- HBM_STACK_STATE.working [13:8]: Working channels, 0 to 32. Reset: 0 (R254). -/
def HbmStackState.working : Fld := ⟨8, 6, .ro, 0⟩
/-- HBM_STACK_STATE.ch_ok [63:32]: Bit c set when channel c is working. Reset: 0 (R254). -/
def HbmStackState.chOk : Fld := ⟨32, 32, .ro, 0⟩
/-- HBM_SCRUB_CTL.period_h [9:0]: Pass period in hours, 1 to 720; a write outside that range leaves the field unchanged. Reset: 24 (R254). -/
def HbmScrubCtl.periodH : Fld := ⟨0, 10, .rw, 24⟩
/-- HBM_SCRUB_CTL.enable [16:16]: Scrub runs; clearing it stops scrub reads, and slot 0 then always rotates among regions. Reset: 1 (R254). -/
def HbmScrubCtl.enable : Fld := ⟨16, 1, .rw, 1⟩
/-- HBM_MARGIN_CTL.stack [2:0]: Stack 0 to 7. Reset: 0 (R254). -/
def HbmMarginCtl.stack : Fld := ⟨0, 3, .rw, 0⟩
/-- HBM_MARGIN_CTL.channel [7:3]: Channel 0 to 31. Reset: 0 (R254). -/
def HbmMarginCtl.channel : Fld := ⟨3, 5, .rw, 0⟩
/-- HBM_MARGIN_CTL.lane [14:8]: 0–63 data, 64 metadata, 65–67 ECC; other values refused. Reset: 0 (R254). -/
def HbmMarginCtl.lane : Fld := ⟨8, 7, .rw, 0⟩
/-- HBM_MARGIN_CTL.axis [15:15]: 0 timing, 1 voltage. Reset: 0 (R254). -/
def HbmMarginCtl.axis : Fld := ⟨15, 1, .rw, 0⟩
/-- HBM_MARGIN_CTL.start [16:16]: Writing 1 starts a run (R253). Reset: 0 (R254). -/
def HbmMarginCtl.start : Fld := ⟨16, 1, .wo, 0⟩
/-- HBM_MARGIN_RES.low [7:0]: Lowest passing offset, signed steps. Reset: 0 (R254). -/
def HbmMarginRes.low : Fld := ⟨0, 8, .ro, 0⟩
/-- HBM_MARGIN_RES.high [15:8]: Highest passing offset, signed steps. Reset: 0 (R254). -/
def HbmMarginRes.high : Fld := ⟨8, 8, .ro, 0⟩
/-- HBM_MARGIN_RES.done [16:16]: Last run finished; cleared by start. Reset: 0 (R254). -/
def HbmMarginRes.done : Fld := ⟨16, 1, .ro, 0⟩
/-- HBM_MARGIN_RES.refused [17:17]: Last run refused under R253. Reset: 0 (R254). -/
def HbmMarginRes.refused : Fld := ⟨17, 1, .ro, 0⟩
/-- HBM_SCRUB_STAT.passes [31:0]: Passes completed since the last tree commit. Reset: 0 (R254). -/
def HbmScrubStat.passes : Fld := ⟨0, 32, .snap, 0⟩
/-- HBM_SCRUB_STAT.blocks_done [51:32]: Blocks per channel read in the current pass, 0 to 524,287. Reset: 0 (R254). -/
def HbmScrubStat.blocksDone : Fld := ⟨32, 20, .snap, 0⟩
/-- HBM_RD_SNAP.transfers [63:0]: 64-byte transfers read, or written, in partition p's region; no wrap in a week. Reset: 0 (R254). -/
def HbmRdSnap.transfers : Fld := ⟨0, 64, .snap, 0⟩
/-- HBM_WR_SNAP.transfers [63:0]: 64-byte transfers read, or written, in partition p's region; no wrap in a week. Reset: 0 (R254). -/
def HbmWrSnap.transfers : Fld := ⟨0, 64, .snap, 0⟩
/-- HBM_REGION.stacks [7:0]: Stack mask. Reset: From HBM_REGION (R254). -/
def HbmRegion.stacks : Fld := ⟨0, 8, .ro, 0⟩
/-- HBM_REGION.weight [15:8]: 1 to 255. Reset: From HBM_REGION (R254). -/
def HbmRegion.weight : Fld := ⟨8, 8, .ro, 0⟩
/-- HBM_REGION.base [34:16]: 4 KiB units within each channel. Reset: From HBM_REGION (R254). -/
def HbmRegion.base : Fld := ⟨16, 19, .ro, 0⟩
/-- HBM_REGION.valid [35:35]: Record i exists. Reset: 0 (R254). -/
def HbmRegion.valid : Fld := ⟨35, 1, .ro, 0⟩
/-- HBM_REGION.size [63:36]: 4 KiB units. Reset: From HBM_REGION (R254). -/
def HbmRegion.size : Fld := ⟨36, 28, .ro, 0⟩
/-- HBM_CH_STATE.last_marked [6:0]: Lane most recently marked (R249). Reset: Standby (R254). -/
def HbmChState.lastMarked : Fld := ⟨0, 7, .ro, 0⟩
/-- HBM_CH_STATE.marked [9:7]: Lanes marked since the last training, saturating at 7. Reset: Standby (R254). -/
def HbmChState.marked : Fld := ⟨7, 3, .ro, 0⟩
/-- HBM_CH_STATE.spares_used [12:10]: Spare data lanes in use, 0 to 4. Reset: Standby (R254). -/
def HbmChState.sparesUsed : Fld := ⟨10, 3, .ro, 0⟩
/-- HBM_CH_STATE.ca_spare_used [13:13]: Spare CA lane in use. Reset: Standby (R254). -/
def HbmChState.caSpareUsed : Fld := ⟨13, 1, .ro, 0⟩
/-- HBM_CH_STATE.state [15:14]: 0 working, 1 working with marks, 2 lost, 3 retired. Reset: Standby (R254). -/
def HbmChState.state : Fld := ⟨14, 2, .ro, 0⟩
/-- HBM_CH_ECC.corrected [31:0]: Corrected symbols since the last training; saturates. Reset: 0 (R254). -/
def HbmChEcc.corrected : Fld := ⟨0, 32, .ro, 0⟩
/-- HBM_CH_ECC.uncorrected [63:32]: Poisoned transfers (R236); saturates. Reset: 0 (R254). -/
def HbmChEcc.uncorrected : Fld := ⟨32, 32, .ro, 0⟩
/-- PART_HBM.region [63:0]: HBM_REGION[i] of the partition's own region; 0 when it has none. Reset: From tree (R255). -/
def PartHbm.region : Fld := ⟨0, 64, .ro, 0⟩
/-- PART_HBM_RD_SNAP.transfers [63:0]: HBM_RD_SNAP[p] of the partition itself. Reset: 0 (R255). -/
def PartHbmRdSnap.transfers : Fld := ⟨0, 64, .snap, 0⟩
/-- PART_HBM_WR_SNAP.transfers [63:0]: HBM_WR_SNAP[p] of the partition itself. Reset: 0 (R255). -/
def PartHbmWrSnap.transfers : Fld := ⟨0, 64, .snap, 0⟩
/-- CORE_TACK.value [31:0]: Bit i set when core tack i is set. Reset: 0 (R284). -/
def CoreTack.value : Fld := ⟨0, 32, .ro, 0⟩
/-- CORE_TACK.initial [63:32]: Initial values loaded under R281. Reset: 0 (R284). -/
def CoreTack.initial : Fld := ⟨32, 32, .ro, 0⟩
/-- CORE_SYNC_STAT.redundant [31:0]: Redundant sets and clears of core tacks (R264); saturates. Reset: 0 (R284). -/
def CoreSyncStat.redundant : Fld := ⟨0, 32, .ro, 0⟩
/-- CORE_SYNC_STAT.cinch_waiting [39:32]: Bit t set while thread t is parked by CINCH. Reset: 0 (R284). -/
def CoreSyncStat.cinchWaiting : Fld := ⟨32, 8, .ro, 0⟩
/-- CORE_SYNC_STAT.cinch_line [45:40]: Line of the lowest-numbered parked thread. Reset: 0 (R284). -/
def CoreSyncStat.cinchLine : Fld := ⟨40, 6, .ro, 0⟩
/-- PART_RX_BYTES.bytes [47:0]: Bytes counted; wraps modulo 2^48. Reset: 0 (R285). -/
def PartRxBytes.bytes : Fld := ⟨0, 48, .ro, 0⟩
/-- PART_RX_PKTS.packets [31:0]: Packets counted; wraps modulo 2^32. Reset: 0 (R285). -/
def PartRxPkts.packets : Fld := ⟨0, 32, .ro, 0⟩
/-- PART_RX_ARM.armed [0:0]: Counter armed (R270). Reset: 0 (R285). -/
def PartRxArm.armed : Fld := ⟨0, 1, .ro, 0⟩
/-- PART_RX_ARM.tack [10:1]: Grid tack to be set. Reset: 0 (R285). -/
def PartRxArm.tack : Fld := ⟨1, 10, .ro, 0⟩
/-- PART_RX_ARM.threshold [63:32]: Byte threshold, low 32 bits. Reset: 0 (R285). -/
def PartRxArm.threshold : Fld := ⟨32, 32, .ro, 0⟩
/-- PART_RX_CTL.counter [5:0]: Counter to zero. Reset: 0 (R285). -/
def PartRxCtl.counter : Fld := ⟨0, 6, .wo, 0⟩
/-- PART_RX_CTL.zero [6:6]: Writing 1 zeroes and disarms the counter (R271). Reset: 0 (R285). -/
def PartRxCtl.zero : Fld := ⟨6, 1, .wo, 0⟩
/-- PART_SYNC_STAT.redundant [31:0]: Redundant sets and clears of grid tacks; saturates. Reset: 0 (R285). -/
def PartSyncStat.redundant : Fld := ⟨0, 32, .ro, 0⟩
/-- PART_SYNC_STAT.audit_fail [47:32]: SYNC_AUDIT events logged; saturates. Reset: 0 (R285). -/
def PartSyncStat.auditFail : Fld := ⟨32, 16, .ro, 0⟩
/-- PART_GTACK_CTL.tack [9:0]: Grid tack to set or clear. Reset: 0 (R285). -/
def PartGtackCtl.tack : Fld := ⟨0, 10, .gf, 0⟩
/-- PART_GTACK_CTL.value [10:10]: 1 set, 0 clear. Reset: 0 (R285). -/
def PartGtackCtl.value : Fld := ⟨10, 1, .gf, 0⟩
/-- PART_GTACK_CTL.flesh [63:32]: Complement of [31:0]. Reset: 0xFFFF_FFFF (R285). -/
def PartGtackCtl.flesh : Fld := ⟨32, 32, .gf, 4294967295⟩
/-- PART_FLAG_HOLD.held [4:0]: Flagged packets held, 0 to 16 (R269). Reset: 0 (R285). -/
def PartFlagHold.held : Fld := ⟨0, 5, .ro, 0⟩
/-- PART_GTACK.value [63:0]: Bit i set when grid tack 64j + i is set; reads 0 for tacks outside the grant's range. Reset: 0 (R285). -/
def PartGtack.value : Fld := ⟨0, 64, .ro, 0⟩
/-- PART_CINCH.arrived [63:0]: Bit l set while line l of the grant holds at least one arrival. Reset: 0 (R285). -/
def PartCinch.arrived : Fld := ⟨0, 64, .ro, 0⟩
/-- STCH_CTL.period_us [6:0]: P in microseconds; 0 in Bare. Reset: From STITCH (R313). -/
def StchCtl.periodUs : Fld := ⟨0, 7, .ro, 0⟩
/-- STCH_CTL.role [9:8]: 0 follower, 1 master, 2 standby master. Reset: From STITCH (R313). -/
def StchCtl.role : Fld := ⟨8, 2, .ro, 0⟩
/-- STCH_CTL.cmd [15:12]: 0x1 REJOIN (R307); other values are ignored. Reset: 0 (R313). -/
def StchCtl.cmd : Fld := ⟨12, 4, .wo, 0⟩
/-- STCH_STATUS.state [2:0]: 0 Off, 1 Free, 2 Locked, 3 Slew, 4 Holdover. Reset: 0 (R313). -/
def StchStatus.state : Fld := ⟨0, 3, .ro, 0⟩
/-- STCH_STATUS.holdover [3:3]: In Holdover. Reset: 0 (R313). -/
def StchStatus.holdover : Fld := ⟨3, 1, .ro, 0⟩
/-- STCH_STATUS.count_split [4:4]: R305. Reset: 0 (R313). -/
def StchStatus.countSplit : Fld := ⟨4, 1, .ro, 0⟩
/-- STCH_STATUS.acting_master [5:5]: R295. Reset: 0 (R313). -/
def StchStatus.actingMaster : Fld := ⟨5, 1, .ro, 0⟩
/-- STCH_STATUS.period_mismatch [6:6]: A marker with another period was received since the last valid one. Reset: 0 (R313). -/
def StchStatus.periodMismatch : Fld := ⟨6, 1, .ro, 0⟩
/-- STCH_STATUS.rejoin_pending [7:7]: REJOIN accepted, takes effect at the next tick. Reset: 0 (R313). -/
def StchStatus.rejoinPending : Fld := ⟨7, 1, .ro, 0⟩
/-- STCH_STATUS.rejoin_refused [8:8]: Last REJOIN refused; cleared by the next REJOIN. Reset: 0 (R313). -/
def StchStatus.rejoinRefused : Fld := ⟨8, 1, .ro, 0⟩
/-- STCH_STATUS.input [11:9]: Input in use, 0 to 3; 7 for none. Reset: 7 (R313). -/
def StchStatus.input : Fld := ⟨9, 3, .ro, 7⟩
/-- STCH_COUNT.count [47:0]: STCH_COUNT: own count. STCH_MASTER_COUNT: the master's count for the latest local tick. Reset: 0 (R313). -/
def StchCount.count : Fld := ⟨0, 48, .ro, 0⟩
/-- STCH_MASTER_COUNT.count [47:0]: STCH_COUNT: own count. STCH_MASTER_COUNT: the master's count for the latest local tick. Reset: 0 (R313). -/
def StchMasterCount.count : Fld := ⟨0, 48, .ro, 0⟩
/-- STCH_MASTER_COUNT.valid [63:63]: In STCH_MASTER_COUNT: a valid marker has been received since the commit; 0 in STCH_COUNT. Reset: 0 (R313). -/
def StchMasterCount.valid : Fld := ⟨63, 1, .ro, 0⟩
/-- STCH_PHASE.error_ns [31:0]: Latest phase error (R290), signed nanoseconds. Reset: 0 (R313). -/
def StchPhase.errorNs : Fld := ⟨0, 32, .ro, 0⟩
/-- STCH_UPTIME_NS.value [63:0]: STCH_UPTIME_NS (R308); STCH_BOOT_ID (R309); STCH_TICK_COUNT: STCH_COUNT at the last tick, [63:48] 0; STCH_TICK_UPTIME: UPTIME_NS at the last tick. Reset: Standby (R313). -/
def StchUptimeNs.value : Fld := ⟨0, 64, .ro, 0⟩
/-- STCH_BOOT_ID.value [63:0]: STCH_UPTIME_NS (R308); STCH_BOOT_ID (R309); STCH_TICK_COUNT: STCH_COUNT at the last tick, [63:48] 0; STCH_TICK_UPTIME: UPTIME_NS at the last tick. Reset: Standby (R313). -/
def StchBootId.value : Fld := ⟨0, 64, .ro, 0⟩
/-- STCH_TICK_COUNT.value [63:0]: STCH_UPTIME_NS (R308); STCH_BOOT_ID (R309); STCH_TICK_COUNT: STCH_COUNT at the last tick, [63:48] 0; STCH_TICK_UPTIME: UPTIME_NS at the last tick. Reset: Standby (R313). -/
def StchTickCount.value : Fld := ⟨0, 64, .snap, 0⟩
/-- STCH_TICK_UPTIME.value [63:0]: STCH_UPTIME_NS (R308); STCH_BOOT_ID (R309); STCH_TICK_COUNT: STCH_COUNT at the last tick, [63:48] 0; STCH_TICK_UPTIME: UPTIME_NS at the last tick. Reset: Standby (R313). -/
def StchTickUptime.value : Fld := ⟨0, 64, .snap, 0⟩
/-- STCH_STAT.holdovers [15:0]: Entries into Holdover since the commit; saturates. Reset: 0 (R313). -/
def StchStat.holdovers : Fld := ⟨0, 16, .ro, 0⟩
/-- STCH_STAT.input_changes [31:16]: STCH_INPUT events; saturates. Reset: 0 (R313). -/
def StchStat.inputChanges : Fld := ⟨16, 16, .ro, 0⟩
/-- STCH_STAT.splits [47:32]: COUNT_SPLIT events; saturates. Reset: 0 (R313). -/
def StchStat.splits : Fld := ⟨32, 16, .ro, 0⟩
/-- STCH_STAT.tokens_ignored [63:48]: Late, out-of-range or inapplicable slip tokens (R301); saturates. Reset: 0 (R313). -/
def StchStat.tokensIgnored : Fld := ⟨48, 16, .ro, 0⟩
/-- STCH_PART.entry [31:0]: Word 4 + 2p of the STITCH section. Reset: From STITCH (R313). -/
def StchPart.entry : Fld := ⟨0, 32, .ro, 0⟩
/-- STCH_PART.rect [63:32]: Word 5 + 2p of the STITCH section. Reset: From STITCH (R313). -/
def StchPart.rect : Fld := ⟨32, 32, .ro, 0⟩
/-- PART_STCH_CFG.cfg [63:0]: STCH_PART[p] of the partition itself. Reset: From STITCH (R314). -/
def PartStchCfg.cfg : Fld := ⟨0, 64, .ro, 0⟩
/-- PART_STCH_CTL.hold [0:0]: R303. Reset: 0 (R314). -/
def PartStchCtl.hold : Fld := ⟨0, 1, .rw, 0⟩
/-- PART_STCH_CTL.resume_count [63:16]: STCH_COUNT at which the hold ends. Reset: 0 (R314). -/
def PartStchCtl.resumeCount : Fld := ⟨16, 48, .rw, 0⟩
/-- PART_STCH_SEG.releases [47:0]: Releases since the strap commit s (R300). Reset: 0 (R314). -/
def PartStchSeg.releases : Fld := ⟨0, 48, .ro, 0⟩
/-- PART_STCH_SLIP.slips [31:0]: Releases withheld by slip tokens; saturates. Reset: 0 (R314). -/
def PartStchSlip.slips : Fld := ⟨0, 32, .ro, 0⟩
/-- PART_STCH_SLIP.overruns [63:32]: OVERRUN events of this partition on this device; saturates. Reset: 0 (R314). -/
def PartStchSlip.overruns : Fld := ⟨32, 32, .ro, 0⟩
/-- FAB_NODE.physical [9:0]: Own physical node. Reset: From ROUTE (R350). -/
def FabNode.physical : Fld := ⟨0, 10, .ro, 0⟩
/-- FAB_NODE.logical [19:10]: Own logical node; not meaningful while no_logical reads 1. Reset: From XLATE (R350). -/
def FabNode.logical : Fld := ⟨10, 10, .ro, 0⟩
/-- FAB_NODE.no_logical [20:20]: No valid XLATE entry names the own physical node (R348). Reset: 0 (R350). -/
def FabNode.noLogical : Fld := ⟨20, 1, .ro, 0⟩
/-- FAB_TABLE_CTL.part_mask [31:0]: Bit p selects partition p (R347). Reset: 0 (R350). -/
def FabTableCtl.partMask : Fld := ⟨0, 32, .rw, 0⟩
/-- FAB_TABLE_CTL.quiesce [32:32]: Stop injection by the masked partitions. Reset: 0 (R350). -/
def FabTableCtl.quiesce : Fld := ⟨32, 1, .rw, 0⟩
/-- FAB_TABLE_STATUS.quiet [0:0]: R347. Reset: 0 (R350). -/
def FabTableStatus.quiet : Fld := ⟨0, 1, .ro, 0⟩
/-- FAB_TABLE_STATUS.outstanding [63:32]: Packets counted under R347; saturates. Reset: 0 (R350). -/
def FabTableStatus.outstanding : Fld := ⟨32, 32, .ro, 0⟩
/-- FAB_VC_CFG.weights [55:0]: FAB_VC_CFG: weight of VC v in [8v − 1 : 8v − 8], for v 1 to 7. Reset: From ROUTE (R350). -/
def FabVcCfg.weights : Fld := ⟨0, 56, .ro, 0⟩
/-- FAB_CREDIT_CFG.grants [63:0]: FAB_CREDIT_CFG[j]: grant of VC 4j + m in [16m + 15 : 16m], for m 0 to 3. Reset: From ROUTE (R350). -/
def FabCreditCfg.grants : Fld := ⟨0, 64, .ro, 0⟩
/-- FAB_ROUTE.entry [31:0]: Route entry (R321), XLATE word (R319) or reach word i (R325). Reset: From tree (R350). -/
def FabRoute.entry : Fld := ⟨0, 32, .gf, 0⟩
/-- FAB_ROUTE.flesh [63:32]: Complement of [31:0]. Reset: From tree (R350). -/
def FabRoute.flesh : Fld := ⟨32, 32, .gf, 0⟩
/-- FAB_XLATE.entry [31:0]: Route entry (R321), XLATE word (R319) or reach word i (R325). Reset: From tree (R350). -/
def FabXlate.entry : Fld := ⟨0, 32, .gf, 0⟩
/-- FAB_XLATE.flesh [63:32]: Complement of [31:0]. Reset: From tree (R350). -/
def FabXlate.flesh : Fld := ⟨32, 32, .gf, 0⟩
/-- FAB_REACH.entry [31:0]: Route entry (R321), XLATE word (R319) or reach word i (R325). Reset: From tree (R350). -/
def FabReach.entry : Fld := ⟨0, 32, .gf, 0⟩
/-- FAB_REACH.flesh [63:32]: Complement of [31:0]. Reset: From tree (R350). -/
def FabReach.flesh : Fld := ⟨32, 32, .gf, 0⟩
/-- FAB_TRANSIT.weights [47:0]: Transit weight of VC v in [8v − 1 : 8v − 8], for v 1 to 6. Reset: From ROUTE (R350). -/
def FabTransit.weights : Fld := ⟨0, 48, .ro, 0⟩
/-- FAB_PORT_STATE.role [1:0]: 0 dark, 1 row, 2 column, 3 spare cabled. Reset: From PORT (R350). -/
def FabPortState.role : Fld := ⟨0, 2, .ro, 0⟩
/-- FAB_PORT_STATE.partner [11:2]: Partner physical node. Reset: From PORT (R350). -/
def FabPortState.partner : Fld := ⟨2, 10, .ro, 0⟩
/-- FAB_PORT_STATE.carrying [12:12]: Port is Up, Burnish or Degraded. Reset: 0 (R350). -/
def FabPortState.carrying : Fld := ⟨12, 1, .ro, 0⟩
/-- FAB_TX_BYTES_SNAP.bytes [63:0]: Packet data bytes sent or received; no wrap in a week. Reset: 0 (R350). -/
def FabTxBytesSnap.bytes : Fld := ⟨0, 64, .snap, 0⟩
/-- FAB_RX_BYTES_SNAP.bytes [63:0]: Packet data bytes sent or received; no wrap in a week. Reset: 0 (R350). -/
def FabRxBytesSnap.bytes : Fld := ⟨0, 64, .snap, 0⟩
/-- FAB_TX_FLITS_SNAP.flits [47:0]: Flits other than IDLE; wraps modulo 2^48, about every 50 hours at full rate. Reset: 0 (R350). -/
def FabTxFlitsSnap.flits : Fld := ⟨0, 48, .snap, 0⟩
/-- FAB_RX_FLITS_SNAP.flits [47:0]: Flits other than IDLE; wraps modulo 2^48, about every 50 hours at full rate. Reset: 0 (R350). -/
def FabRxFlitsSnap.flits : Fld := ⟨0, 48, .snap, 0⟩
/-- FAB_LINK_ERR.crc_fail [31:0]: Flits discarded under R330; saturates. Reset: 0 (R350). -/
def FabLinkErr.crcFail : Fld := ⟨0, 32, .ro, 0⟩
/-- FAB_LINK_ERR.replays [63:32]: Replays under R332; saturates. Reset: 0 (R350). -/
def FabLinkErr.replays : Fld := ⟨32, 32, .ro, 0⟩
/-- FAB_STALL_SNAP.cycles [47:0]: Core cycles in which VC v had a ready flit held back by want of a credit or a slot; wraps modulo 2^48, about every 39 hours. Reset: 0 (R350). -/
def FabStallSnap.cycles : Fld := ⟨0, 48, .snap, 0⟩
/-- FAB_QUEUE_SNAP.waiting [15:0]: Flits of VC v waiting to leave, at the tick. Reset: 0 (R350). -/
def FabQueueSnap.waiting : Fld := ⟨0, 16, .snap, 0⟩
/-- FAB_QUEUE_SNAP.peak [31:16]: Largest waiting value during the stitch before the tick. Reset: 0 (R350). -/
def FabQueueSnap.peak : Fld := ⟨16, 16, .snap, 0⟩
/-- FAB_QUEUE_SNAP.held [47:32]: Credits of VC v held by this end as sender. Reset: 0 (R350). -/
def FabQueueSnap.held : Fld := ⟨32, 16, .snap, 0⟩
/-- FAB_QUEUE_SNAP.occupied [63:48]: Receive buffers of VC v occupied at this end, unissued credits included. Reset: 0 (R350). -/
def FabQueueSnap.occupied : Fld := ⟨48, 16, .snap, 0⟩
/-- PART_FAB_NODE.node [63:0]: FAB_NODE. Reset: From tree (R351). -/
def PartFabNode.node : Fld := ⟨0, 64, .ro, 0⟩
/-- PART_FAB_REACH.word [31:0]: Word i of the partition's own reach record. Reset: From tree (R351). -/
def PartFabReach.word : Fld := ⟨0, 32, .ro, 0⟩
/-- PART_FAB_TX_SNAP.bytes [63:0]: Packet data bytes injected by the partition. Reset: 0 (R351). -/
def PartFabTxSnap.bytes : Fld := ⟨0, 64, .snap, 0⟩
/-- PART_FAB_RX_SNAP.bytes [63:0]: Packet data bytes delivered to the partition. Reset: 0 (R351). -/
def PartFabRxSnap.bytes : Fld := ⟨0, 64, .snap, 0⟩
/-- PART_FAB_STAT.refused [31:0]: Packets from or to the partition refused under R326; saturates. Reset: 0 (R351). -/
def PartFabStat.refused : Fld := ⟨0, 32, .ro, 0⟩
/-- PART_FAB_STAT.unreachable [63:32]: Transactions of the partition answered NODE_UNREACHABLE; saturates. Reset: 0 (R351). -/
def PartFabStat.unreachable : Fld := ⟨32, 32, .ro, 0⟩
/-- PART_REGION.word [31:0]: Word w of region entry i (R366). Reset: 0 (R382). -/
def PartRegion.word : Fld := ⟨0, 32, .gf, 0⟩
/-- PART_REGION.flesh [63:32]: Complement of [31:0]. Reset: 0xFFFF_FFFF (R382). -/
def PartRegion.flesh : Fld := ⟨32, 32, .gf, 4294967295⟩
/-- PART_RMT_CTL.bulk [63:0]: Bit c sends DMA WRITE packets naming receive counter c on VC6 (R358). Reset: 0 (R382). -/
def PartRmtCtl.bulk : Fld := ⟨0, 64, .rw, 0⟩
/-- PART_RMT_STAT.refused_ownership [31:0]: Packets to this partition refused under R365; saturates. Reset: 0 (R382). -/
def PartRmtStat.refusedOwnership : Fld := ⟨0, 32, .ro, 0⟩
/-- PART_RMT_STAT.refused_bound [63:32]: Packets to this partition refused for BOUND under R355; saturates. Reset: 0 (R382). -/
def PartRmtStat.refusedBound : Fld := ⟨32, 32, .ro, 0⟩
/-- PART_COLL_STAT.busy [1:0]: Collective contexts in use, 0 to 2. Reset: 0 (R382). -/
def PartCollStat.busy : Fld := ⟨0, 2, .ro, 0⟩
/-- PART_COLL_STAT.completed [63:32]: Collective descriptors completed; wraps modulo 2^32. Reset: 0 (R382). -/
def PartCollStat.completed : Fld := ⟨32, 32, .ro, 0⟩
/-- PART_ATOM_SNAP.atomics [47:0]: Atomics performed at homes in the partition's memory; wraps modulo 2^48. Reset: 0 (R382). -/
def PartAtomSnap.atomics : Fld := ⟨0, 48, .snap, 0⟩
/-- OPT_CFG.burnish_ms [15:0]: Burnish interval. Reset: From PORT (R422). -/
def OptCfg.burnishMs : Fld := ⟨0, 16, .ro, 0⟩
/-- OPT_CFG.slew_w [31:16]: L in W per 100 µs. Reset: From PORT (R422). -/
def OptCfg.slewW : Fld := ⟨16, 16, .ro, 0⟩
/-- OPT_SLEW_STAT.ballast [47:0]: Ballast strip-microseconds since the commit; wraps modulo 2^48. Reset: 0 (R422). -/
def OptSlewStat.ballast : Fld := ⟨0, 48, .ro, 0⟩
/-- OPT_FEED.power [15:0]: Total feed power, in units of 10 µW. Reset: 0 (R422). -/
def OptFeed.power : Fld := ⟨0, 16, .ro, 0⟩
/-- OPT_FEED.low [16:16]: R394. Reset: 0 (R422). -/
def OptFeed.low : Fld := ⟨16, 1, .ro, 0⟩
/-- OPT_FEED.shutter_open [17:17]: R385. Reset: 0 (R422). -/
def OptFeed.shutterOpen : Fld := ⟨17, 1, .ro, 0⟩
/-- OPT_SLEW_PART.allowance [15:0]: S_p (R408). Reset: 0 (R422). -/
def OptSlewPart.allowance : Fld := ⟨0, 16, .ro, 0⟩
/-- OPT_SLEW_PART.busy [31:16]: u_p of the latest microsecond. Reset: 0 (R422). -/
def OptSlewPart.busy : Fld := ⟨16, 16, .ro, 0⟩
/-- OPT_SLEW_PART.held [63:32]: MMA starts delayed under R409; saturates. Reset: 0 (R422). -/
def OptSlewPart.held : Fld := ⟨32, 32, .ro, 0⟩
/-- OPT_PORT_STATE.state [2:0]: 0 Dark, 1 Seek, 2 Train, 3 Up, 4 Burnish, 5 Degraded. Reset: 0 (R422). -/
def OptPortState.state : Fld := ⟨0, 3, .ro, 0⟩
/-- OPT_PORT_STATE.tx_retired [12:4]: Transmit lines retired. Reset: Standby (R422). -/
def OptPortState.txRetired : Fld := ⟨4, 9, .ro, 0⟩
/-- OPT_PORT_STATE.rx_retired [21:13]: Receive lines retired. Reset: Standby (R422). -/
def OptPortState.rxRetired : Fld := ⟨13, 9, .ro, 0⟩
/-- OPT_PORT_STATE.tx_spare [25:22]: Transmit spare line; 0xF none. Reset: From PORT (R422). -/
def OptPortState.txSpare : Fld := ⟨22, 4, .ro, 0⟩
/-- OPT_PORT_STATE.rx_spare [29:26]: Receive spare line; 0xF none. Reset: From PORT (R422). -/
def OptPortState.rxSpare : Fld := ⟨26, 4, .ro, 0⟩
/-- OPT_PORT_STATE.delay_ns [47:32]: One-way delay measured in T4. Reset: 0 (R422). -/
def OptPortState.delayNs : Fld := ⟨32, 16, .ro, 0⟩
/-- OPT_PORT_STATE.failures [55:48]: j of R397; saturates. Reset: 0 (R422). -/
def OptPortState.failures : Fld := ⟨48, 8, .ro, 0⟩
/-- OPT_PORT_CTL.disable [0:0]: Hold the port Dark; accepted in Framed and Armed. Reset: 0 (R422). -/
def OptPortCtl.disable : Fld := ⟨0, 1, .rw, 0⟩
/-- OPT_PORT_CTL.loop [3:1]: R418. Reset: 0 (R422). -/
def OptPortCtl.loop : Fld := ⟨1, 3, .rw, 0⟩
/-- OPT_LB_RES.bit_errors [31:0]: PRBS31 errors over all lines since loop was written; saturates. Reset: 0 (R422). -/
def OptLbRes.bitErrors : Fld := ⟨0, 32, .ro, 0⟩
/-- OPT_LB_RES.rtt_ns [47:32]: Latest echo round trip, mode 5. Reset: 0 (R422). -/
def OptLbRes.rttNs : Fld := ⟨32, 16, .ro, 0⟩
/-- OPT_LB_RES.locked [48:48]: Pattern locked on every usable line. Reset: 0 (R422). -/
def OptLbRes.locked : Fld := ⟨48, 1, .ro, 0⟩
/-- OPT_LB_RES.refused [49:49]: Last loop request refused. Reset: 0 (R422). -/
def OptLbRes.refused : Fld := ⟨49, 1, .ro, 0⟩
/-- OPT_PORT_STAT.mislocks [15:0]: MISLOCK events; saturates. Reset: 0 (R422). -/
def OptPortStat.mislocks : Fld := ⟨0, 16, .ro, 0⟩
/-- OPT_PORT_STAT.burnishes [31:16]: Burnishes completed; saturates. Reset: 0 (R422). -/
def OptPortStat.burnishes : Fld := ⟨16, 16, .ro, 0⟩
/-- OPT_PORT_STAT.train_fail [47:32]: OPT_TRAIN_TIMEOUT and OPT_PARTNER_MISMATCH events; saturates. Reset: 0 (R422). -/
def OptPortStat.trainFail : Fld := ⟨32, 16, .ro, 0⟩
/-- OPT_PORT_STAT.eth_dropped [63:48]: Ethernet ports only: frames dropped under R414; saturates. Reset: 0 (R422). -/
def OptPortStat.ethDropped : Fld := ⟨48, 16, .ro, 0⟩
/-- OPT_TX_LINE.detune [7:0]: Ring detuning, signed, in units of 0.5 GHz. Reset: 0 (R422). -/
def OptTxLine.detune : Fld := ⟨0, 8, .ro, 0⟩
/-- OPT_TX_LINE.lane [11:8]: Lane carried; 0xF none. Reset: 0xF (R422). -/
def OptTxLine.lane : Fld := ⟨8, 4, .ro, 15⟩
/-- OPT_TX_LINE.state [14:12]: 0 off, 1 sweeping, 2 locked, 3 alarm, 4 retired. Reset: 0 (R422). -/
def OptTxLine.state : Fld := ⟨12, 3, .ro, 0⟩
/-- OPT_TX_LINE.heater_mw [31:16]: Heater power in mW. Reset: 0 (R422). -/
def OptTxLine.heaterMw : Fld := ⟨16, 16, .ro, 0⟩
/-- OPT_TX_LINE.corrected [63:32]: Receive only: FEC symbols corrected in the last 10 ms window; 0 for transmit. Reset: 0 (R422). -/
def OptTxLine.corrected : Fld := ⟨32, 32, .ro, 0⟩
/-- OPT_RX_LINE.detune [7:0]: Ring detuning, signed, in units of 0.5 GHz. Reset: 0 (R422). -/
def OptRxLine.detune : Fld := ⟨0, 8, .ro, 0⟩
/-- OPT_RX_LINE.lane [11:8]: Lane carried; 0xF none. Reset: 0xF (R422). -/
def OptRxLine.lane : Fld := ⟨8, 4, .ro, 15⟩
/-- OPT_RX_LINE.state [14:12]: 0 off, 1 sweeping, 2 locked, 3 alarm, 4 retired. Reset: 0 (R422). -/
def OptRxLine.state : Fld := ⟨12, 3, .ro, 0⟩
/-- OPT_RX_LINE.heater_mw [31:16]: Heater power in mW. Reset: 0 (R422). -/
def OptRxLine.heaterMw : Fld := ⟨16, 16, .ro, 0⟩
/-- OPT_RX_LINE.corrected [63:32]: Receive only: FEC symbols corrected in the last 10 ms window; 0 for transmit. Reset: 0 (R422). -/
def OptRxLine.corrected : Fld := ⟨32, 32, .ro, 0⟩
/-- PART_SLEW.slew [63:0]: OPT_SLEW_PART[p] of the partition itself. Reset: 0 (R423). -/
def PartSlew.slew : Fld := ⟨0, 64, .ro, 0⟩
/-- PART_ETH_STAT.dropped_unready [31:0]: Frames for the partition dropped while it was not Armed; saturates. Reset: 0 (R423). -/
def PartEthStat.droppedUnready : Fld := ⟨0, 32, .ro, 0⟩
/-- PART_ETH_STAT.dropped_full [63:32]: Frames dropped because the chosen queue was full; saturates. Reset: 0 (R423). -/
def PartEthStat.droppedFull : Fld := ⟨32, 32, .ro, 0⟩
/-- PART_ID.partition [4:0]: Partition number. Reset: VF number − 1 (R453). -/
def PartId.partition : Fld := ⟨0, 5, .ro, 0⟩
/-- PART_ID.granted [5:5]: The partition has a grant. Reset: From tree (R453). -/
def PartId.granted : Fld := ⟨5, 1, .ro, 0⟩
/-- PART_ID.cores [15:6]: Cores granted, 0 to 512. Reset: From grant (R453). -/
def PartId.cores : Fld := ⟨6, 10, .ro, 0⟩
/-- PART_ID.eth_first [23:16]: First device queue. Reset: From grant (R453). -/
def PartId.ethFirst : Fld := ⟨16, 8, .ro, 0⟩
/-- PART_ID.eth_count [31:24]: Queues granted. Reset: From grant (R453). -/
def PartId.ethCount : Fld := ⟨24, 8, .ro, 0⟩
/-- PART_ID.gtack_first [41:32]: First grid tack. Reset: From grant (R453). -/
def PartId.gtackFirst : Fld := ⟨32, 10, .ro, 0⟩
/-- PART_ID.gtack_count [52:42]: Grid tacks granted. Reset: From grant (R453). -/
def PartId.gtackCount : Fld := ⟨42, 11, .ro, 0⟩
/-- PART_STATE.state [1:0]: 0 no grant, 1 Framed, 2 Armed, 3 Fenced. Reset: 0 (R453). -/
def PartState.state : Fld := ⟨0, 2, .ro, 0⟩
/-- PART_STATE.dev_state [3:2]: As HARN_STATE.dev_state. Reset: 0 (R453). -/
def PartState.devState : Fld := ⟨2, 2, .ro, 0⟩
/-- PART_STATE.releasing [4:4]: RELEASE in progress (R446). Reset: 0 (R453). -/
def PartState.releasing : Fld := ⟨4, 1, .ro, 0⟩
/-- PART_STATE.fence_code [47:32]: Code of the error that fenced the partition; 0 otherwise. Reset: 0 (R453). -/
def PartState.fenceCode : Fld := ⟨32, 16, .ro, 0⟩
/-- PART_IRQ_STAT.completion [0:0]: Cause of vector 0 (R436). Reset: 0 (R453). -/
def PartIrqStat.completion : Fld := ⟨0, 1, .w1c, 0⟩
/-- PART_IRQ_STAT.event [1:1]: Cause of vector 1. Reset: 0 (R453). -/
def PartIrqStat.event : Fld := ⟨1, 1, .w1c, 0⟩
/-- PART_IRQ_STAT.state [2:2]: Cause of vector 2. Reset: 0 (R453). -/
def PartIrqStat.state : Fld := ⟨2, 1, .w1c, 0⟩
/-- PART_IRQ_TAG.core [8:0]: Logical core ID of the latest completion with irq set. Reset: 0 (R453). -/
def PartIrqTag.core : Fld := ⟨0, 9, .ro, 0⟩
/-- PART_IRQ_TAG.tag [16:9]: Its descriptor tag. Reset: 0 (R453). -/
def PartIrqTag.tag : Fld := ⟨9, 8, .ro, 0⟩
/-- PART_IRQ_TAG.count [63:32]: Completions with irq set since the strap commit; wraps modulo 2^32. Reset: 0 (R453). -/
def PartIrqTag.count : Fld := ⟨32, 32, .ro, 0⟩
/-- PART_ETHQ_CTL.enable [0:0]: Queue runs (R443). Reset: 0 (R453). -/
def PartEthqCtl.enable : Fld := ⟨0, 1, .rw, 0⟩
/-- PART_ETHQ_CTL.irq [1:1]: Send messages under R442. Reset: 0 (R453). -/
def PartEthqCtl.irq : Fld := ⟨1, 1, .rw, 0⟩
/-- PART_ETHQ_CTL.vector [7:2]: VF vector 3 to 63; other values stop the queue with error set when enable is written. Reset: 0 (R453). -/
def PartEthqCtl.vector : Fld := ⟨2, 6, .rw, 0⟩
/-- PART_ETHQ_CTL.tx_log2 [11:8]: Transmit ring size (R439). Reset: 6 (R453). -/
def PartEthqCtl.txLog2 : Fld := ⟨8, 4, .rw, 6⟩
/-- PART_ETHQ_CTL.rx_log2 [15:12]: Receive ring size. Reset: 6 (R453). -/
def PartEthqCtl.rxLog2 : Fld := ⟨12, 4, .rw, 6⟩
/-- PART_ETHQ_CTL.gap_us [23:16]: Minimum gap between messages, 0 to 255 µs. Reset: 0 (R453). -/
def PartEthqCtl.gapUs : Fld := ⟨16, 8, .rw, 0⟩
/-- PART_ETHQ_TX_BASE.base [63:0]: Host address of the ring; [11:0] must be 0, otherwise enable stops the queue with error set. Reset: 0 (R453). -/
def PartEthqTxBase.base : Fld := ⟨0, 64, .rw, 0⟩
/-- PART_ETHQ_RX_BASE.base [63:0]: Host address of the ring; [11:0] must be 0, otherwise enable stops the queue with error set. Reset: 0 (R453). -/
def PartEthqRxBase.base : Fld := ⟨0, 64, .rw, 0⟩
/-- PART_ETHQ_TX_TAIL.index [15:0]: Ring index modulo 65,536 (R439). Reset: 0 (R453). -/
def PartEthqTxTail.index : Fld := ⟨0, 16, .rw, 0⟩
/-- PART_ETHQ_TX_HEAD.index [15:0]: Ring index modulo 65,536 (R439). Reset: 0 (R453). -/
def PartEthqTxHead.index : Fld := ⟨0, 16, .ro, 0⟩
/-- PART_ETHQ_RX_TAIL.index [15:0]: Ring index modulo 65,536 (R439). Reset: 0 (R453). -/
def PartEthqRxTail.index : Fld := ⟨0, 16, .rw, 0⟩
/-- PART_ETHQ_RX_HEAD.index [15:0]: Ring index modulo 65,536 (R439). Reset: 0 (R453). -/
def PartEthqRxHead.index : Fld := ⟨0, 16, .ro, 0⟩
/-- PART_ETHQ_STAT.oversize [15:0]: Frames dropped under R441; saturates. Reset: 0 (R453). -/
def PartEthqStat.oversize : Fld := ⟨0, 16, .ro, 0⟩
/-- PART_ETHQ_STAT.tx_bad [31:16]: Entries not sent under R440; saturates. Reset: 0 (R453). -/
def PartEthqStat.txBad : Fld := ⟨16, 16, .ro, 0⟩
/-- PART_ETHQ_STAT.error [32:32]: Queue stopped for an error; cleared when enable is set again. Reset: 0 (R453). -/
def PartEthqStat.error : Fld := ⟨32, 1, .ro, 0⟩
/-- PART_ETHQ_STAT.cause [34:33]: 0 host access (R434), 1 tail overrun (R439), 2 invalid vector or base. Reset: 0 (R453). -/
def PartEthqStat.cause : Fld := ⟨33, 2, .ro, 0⟩
/-- FAB_CONS_DEV.audits [31:0]: Markers audited in full (R464); wraps modulo 2^32. Reset: 0 (R479). -/
def FabConsDev.audits : Fld := ⟨0, 32, .ro, 0⟩
/-- FAB_CONS_DEV.gf [47:32]: GF_MISMATCH events of every class; saturates. Reset: 0 (R479). -/
def FabConsDev.gf : Fld := ⟨32, 16, .ro, 0⟩
/-- FAB_CONS_DEV.vc0_lost [63:48]: VC0_MSG_LOST events; saturates. Reset: 0 (R479). -/
def FabConsDev.vc0Lost : Fld := ⟨48, 16, .ro, 0⟩
/-- FAB_CONS_STAT.mismatches [15:0]: Credit faults found by this end (R464); saturates. Reset: 0 (R479). -/
def FabConsStat.mismatches : Fld := ⟨0, 16, .ro, 0⟩
/-- FAB_CONS_STAT.skipped [31:16]: Audits skipped (R464); saturates. Reset: 0 (R479). -/
def FabConsStat.skipped : Fld := ⟨16, 16, .ro, 0⟩
/-- FAB_CONS_STAT.starts [39:32]: Times the port has started carrying traffic; saturates. Reset: 0 (R479). -/
def FabConsStat.starts : Fld := ⟨32, 8, .ro, 0⟩
/-- FAB_CONS_STAT.resync [40:40]: A resynchronisation is in progress on the port. Reset: 0 (R479). -/
def FabConsStat.resync : Fld := ⟨40, 1, .ro, 0⟩
/-- FAB_CONS_STAT.recent [52:48]: CREDIT_FAULT events in the last 1,024 stitches, 0 to 16 (R468). Reset: 0 (R479). -/
def FabConsStat.recent : Fld := ⟨48, 5, .ro, 0⟩
/-- FAB_CONS_RETIRED.granted [31:0]: Receiving grants retired (R469, R472); saturates. Reset: 0 (R479). -/
def FabConsRetired.granted : Fld := ⟨0, 32, .ro, 0⟩
/-- FAB_CONS_RETIRED.held [63:32]: Credits held as sender and retired (R469); saturates. Reset: 0 (R479). -/
def FabConsRetired.held : Fld := ⟨32, 32, .ro, 0⟩
/-- FAB_CREDIT.held [15:0]: H of pair j, with this end as sender. Reset: 0 (R479). -/
def FabCredit.held : Fld := ⟨0, 16, .snap, 0⟩
/-- FAB_CREDIT.occupied [31:16]: O of pair j, with this end as receiver. Reset: 0 (R479). -/
def FabCredit.occupied : Fld := ⟨16, 16, .snap, 0⟩
/-- FAB_CREDIT.grant [47:32]: g of pair j at this end; 0 while the port does not carry traffic. Reset: 0 (R479). -/
def FabCredit.grant : Fld := ⟨32, 16, .snap, 0⟩
/-- FAB_CREDIT.resyncs [55:48]: Resynchronisations of pair j in either direction since the port last started carrying traffic; saturates at 255. Reset: 0 (R479). -/
def FabCredit.resyncs : Fld := ⟨48, 8, .snap, 0⟩
/-- ERR_RING_HEAD.head [63:0]: Records written (R491). Reset: Standby (R509). -/
def ErrRingHead.head : Fld := ⟨0, 64, .ro, 0⟩
/-- ERR_RING_READ.read [63:0]: Records consumed. Reset: Standby (R509). -/
def ErrRingRead.read : Fld := ⟨0, 64, .rw, 0⟩
/-- ERR_EVENTS_LOST_OLDEST.lost [31:0]: Unread records overwritten; saturates. Reset: Standby (R509). -/
def ErrEventsLostOldest.lost : Fld := ⟨0, 32, .ro, 0⟩
/-- ERR_INTAKE.occupied [5:0]: Intake and overflow entries in use, 0 to 37. Reset: 0 (R509). -/
def ErrIntake.occupied : Fld := ⟨0, 6, .ro, 0⟩
/-- ERR_INTAKE.peak [13:8]: Largest occupancy since the last read; clears on read. Reset: 0 (R509). -/
def ErrIntake.peak : Fld := ⟨8, 6, .ro, 0⟩
/-- ERR_INTAKE.coalesced [63:32]: Coalesced events; saturates. Reset: Standby (R509). -/
def ErrIntake.coalesced : Fld := ⟨32, 32, .ro, 0⟩
/-- ERR_PATH.code [15:0]: Latest error-path code (R488). Reset: Standby (R509). -/
def ErrPath.code : Fld := ⟨0, 16, .ro, 0⟩
/-- ERR_PATH.valid [16:16]: A code is latched. Reset: Standby (R509). -/
def ErrPath.valid : Fld := ⟨16, 1, .ro, 0⟩
/-- ERR_AWL_CTL.core [8:0]: Logical core ID. Reset: 0 (R509). -/
def ErrAwlCtl.core : Fld := ⟨0, 9, .rw, 0⟩
/-- ERR_AWL_CTL.mask [32:9]: Kernels to run. Reset: 0 (R509). -/
def ErrAwlCtl.mask : Fld := ⟨9, 24, .rw, 0⟩
/-- ERR_AWL_CTL.start [63:63]: Start a scheduled run (R495). Reset: 0 (R509). -/
def ErrAwlCtl.start : Fld := ⟨63, 1, .wo, 0⟩
/-- ERR_AWL_STAT.core [8:0]: Core of the latest scheduled run. Reset: 0 (R509). -/
def ErrAwlStat.core : Fld := ⟨0, 9, .ro, 0⟩
/-- ERR_AWL_STAT.busy [9:9]: Run in progress. Reset: 0 (R509). -/
def ErrAwlStat.busy : Fld := ⟨9, 1, .ro, 0⟩
/-- ERR_AWL_STAT.refused [10:10]: Latest start refused. Reset: 0 (R509). -/
def ErrAwlStat.refused : Fld := ⟨10, 1, .ro, 0⟩
/-- ERR_AWL_STAT.passed [34:11]: Kernels passed in that run. Reset: 0 (R509). -/
def ErrAwlStat.passed : Fld := ⟨11, 24, .ro, 0⟩
/-- ERR_SIG_STAT.made [31:0]: Signatures formed; wraps modulo 2^32. Reset: Standby (R509). -/
def ErrSigStat.made : Fld := ⟨0, 32, .ro, 0⟩
/-- ERR_SIG_STAT.overwritten [63:32]: R507; saturates. Reset: Standby (R509). -/
def ErrSigStat.overwritten : Fld := ⟨32, 32, .ro, 0⟩
/-- ERR_CAP_CTL.first_valid [0:0]: R486. Reset: Standby (R509). -/
def ErrCapCtl.firstValid : Fld := ⟨0, 1, .w1c, 0⟩
/-- ERR_CAP_CTL.escalated [1:1]: R487; cleared with first_valid. Reset: Standby (R509). -/
def ErrCapCtl.escalated : Fld := ⟨1, 1, .ro, 0⟩
/-- ERR_CAP_CTL.next_count [63:32]: Events captured after FIRST; saturates. Reset: Standby (R509). -/
def ErrCapCtl.nextCount : Fld := ⟨32, 32, .ro, 0⟩
/-- CORE_AWL.last_pass [47:0]: STCH_COUNT at which kernel 23 last passed after a full rotation. Reset: 0 (R510). -/
def CoreAwl.lastPass : Fld := ⟨0, 48, .ro, 0⟩
/-- CORE_AWL.next [52:48]: Next kernel of the rotation (R496). Reset: 0 (R510). -/
def CoreAwl.next : Fld := ⟨48, 5, .ro, 0⟩
/-- CORE_AWL.fails [60:53]: AWL_FAIL events; saturates. Reset: 0 (R510). -/
def CoreAwl.fails : Fld := ⟨53, 8, .ro, 0⟩
/-- PART_EVT_HEAD.count [63:0]: R492. Reset: 0 (R511). -/
def PartEvtHead.count : Fld := ⟨0, 64, .ro, 0⟩
/-- PART_EVT_READ.count [63:0]: R492. Reset: 0 (R511). -/
def PartEvtRead.count : Fld := ⟨0, 64, .rw, 0⟩
/-- PART_EVT_LOST.lost [31:0]: Unread view records overwritten; saturates. Reset: 0 (R511). -/
def PartEvtLost.lost : Fld := ⟨0, 32, .ro, 0⟩
/-- PART_STEP_CTL.cmd [1:0]: 1 BEGIN, 2 CLOSE, 3 COMMIT; 0 has no effect. Reset: 0 (R511). -/
def PartStepCtl.cmd : Fld := ⟨0, 2, .wo, 0⟩
/-- PART_STEP_STATUS.state [1:0]: 0 none, 1 Pending, 2 Open, 3 Closed. Reset: 0 (R511). -/
def PartStepStatus.state : Fld := ⟨0, 2, .ro, 0⟩
/-- PART_STEP_STATUS.busy [2:2]: CLOSE running. Reset: 0 (R511). -/
def PartStepStatus.busy : Fld := ⟨2, 1, .ro, 0⟩
/-- PART_STEP_STATUS.refused [3:3]: Latest command refused. Reset: 0 (R511). -/
def PartStepStatus.refused : Fld := ⟨3, 1, .ro, 0⟩
/-- PART_STEP_STATUS.open_blocks [35:4]: R500. Reset: 0 (R511). -/
def PartStepStatus.openBlocks : Fld := ⟨4, 32, .ro, 0⟩
/-- PART_STEP_ID.id [63:0]: Step identity, for software. Reset: 0 (R511). -/
def PartStepId.id : Fld := ⟨0, 64, .rw, 0⟩
/-- PART_STEP_FOLD.fold [63:0]: R500. Reset: 0 (R511). -/
def PartStepFold.fold : Fld := ⟨0, 64, .ro, 0⟩
/-- PART_REPLAY_SRC.address [63:0]: Global address; DST in the local form of R96. Reset: 0 (R511). -/
def PartReplaySrc.address : Fld := ⟨0, 64, .rw, 0⟩
/-- PART_REPLAY_DST.address [63:0]: Global address; DST in the local form of R96. Reset: 0 (R511). -/
def PartReplayDst.address : Fld := ⟨0, 64, .rw, 0⟩
/-- PART_REPLAY_LEN.bytes [39:0]: Multiple of 4 KiB. Reset: 0 (R511). -/
def PartReplayLen.bytes : Fld := ⟨0, 40, .rw, 0⟩
/-- PART_REPLAY_CTL.start [0:0]: Start the fetch (R502). Reset: 0 (R511). -/
def PartReplayCtl.start : Fld := ⟨0, 1, .wo, 0⟩
/-- PART_REPLAY_STATUS.busy [0:0]: Fetch in progress. Reset: 0 (R511). -/
def PartReplayStatus.busy : Fld := ⟨0, 1, .ro, 0⟩
/-- PART_REPLAY_STATUS.done [1:1]: Fetch completed. Reset: 0 (R511). -/
def PartReplayStatus.done : Fld := ⟨1, 1, .ro, 0⟩
/-- PART_REPLAY_STATUS.lost [2:2]: REPLAY_SOURCE_LOST (R503). Reset: 0 (R511). -/
def PartReplayStatus.lost : Fld := ⟨2, 1, .ro, 0⟩
/-- PART_REPLAY_STATUS.copied [63:24]: Bytes written. Reset: 0 (R511). -/
def PartReplayStatus.copied : Fld := ⟨24, 40, .ro, 0⟩
/-- PART_WDIG_MINE.root [63:0]: Bytes 8j to 8j + 7 of a SHA-256 root. Reset: 0 (R511). -/
def PartWdigMine.root : Fld := ⟨0, 64, .rw, 0⟩
/-- PART_WDIG_PEER.root [63:0]: Bytes 8j to 8j + 7 of a SHA-256 root. Reset: 0 (R511). -/
def PartWdigPeer.root : Fld := ⟨0, 64, .rw, 0⟩
/-- PART_WDIG_CTL.peer [9:0]: Peer's logical node. Reset: 0 (R511). -/
def PartWdigCtl.peer : Fld := ⟨0, 10, .wo, 0⟩
/-- PART_WDIG_CTL.compare [63:63]: Compare the two roots (R504). Reset: 0 (R511). -/
def PartWdigCtl.compare : Fld := ⟨63, 1, .wo, 0⟩
/-- PART_WDIG_STAT.compares [31:0]: Comparisons; wraps modulo 2^32. Reset: 0 (R511). -/
def PartWdigStat.compares : Fld := ⟨0, 32, .ro, 0⟩
/-- PART_WDIG_STAT.mismatches [63:32]: REPLICA_MISMATCH events; saturates. Reset: 0 (R511). -/
def PartWdigStat.mismatches : Fld := ⟨32, 32, .ro, 0⟩
/-- PART_AWL_CTL.from [47:0]: STCH_COUNT of the first idle tick; must exceed the next tick. Reset: 0 (R511). -/
def PartAwlCtl.fromF : Fld := ⟨0, 48, .rw, 0⟩
/-- PART_AWL_CTL.stitches [55:48]: 2 to 255; 0 cancels a declaration not yet started. Reset: 0 (R511). -/
def PartAwlCtl.stitches : Fld := ⟨48, 8, .rw, 0⟩
/-- PART_AWL_WIN.offset [20:0]: Scratchpad offset of the 256 KiB window; [17:0] must be 0. Reset: 0 (R511). -/
def PartAwlWin.offset : Fld := ⟨0, 21, .rw, 0⟩
/-- PWR_CFG.limit_w [15:0]: R538. Reset: From POWER (R540). -/
def PwrCfg.limitW : Fld := ⟨0, 16, .ro, 0⟩
/-- PWR_CFG.peak_w [31:16]:  Reset: From POWER (R540). -/
def PwrCfg.peakW : Fld := ⟨16, 16, .ro, 0⟩
/-- PWR_CFG.cap0 [47:32]: C0. Reset: From POWER (R540). -/
def PwrCfg.cap0 : Fld := ⟨32, 16, .ro, 0⟩
/-- PWR_CFG.hold_us [63:48]:  Reset: From POWER (R540). -/
def PwrCfg.holdUs : Fld := ⟨48, 16, .ro, 0⟩
/-- PWR_STATE.pct [6:0]: k. Reset: 100 (R540). -/
def PwrState.pct : Fld := ⟨0, 7, .ro, 100⟩
/-- PWR_STATE.sag [7:7]: SAG_WARN active. Reset: 0 (R540). -/
def PwrState.sag : Fld := ⟨7, 1, .ro, 0⟩
/-- PWR_STATE.down [8:8]: A down condition is active. Reset: 0 (R540). -/
def PwrState.down : Fld := ⟨8, 1, .ro, 0⟩
/-- PWR_STATE.cap [31:16]: Tokens. Reset: 0 (R540). -/
def PwrState.cap : Fld := ⟨16, 16, .ro, 0⟩
/-- PWR_STATE.pool [47:32]: Free pool. Reset: 0 (R540). -/
def PwrState.pool : Fld := ⟨32, 16, .ro, 0⟩
/-- PWR_STATE.grant_refused [48:48]: Last PWR_GRANT write refused (R526). Reset: 0 (R540). -/
def PwrState.grantRefused : Fld := ⟨48, 1, .ro, 0⟩
/-- PWR_SAG_CTL.threshold [8:0]: 405 to 460, in 0.1 V; takes effect within 1 µs; a value outside the range leaves the field unchanged. Reset: From POWER (R540). -/
def PwrSagCtl.threshold : Fld := ⟨0, 9, .rw, 0⟩
/-- PWR_SAG_CTL.pct [15:9]: 25 to 100; as threshold. Reset: From POWER (R540). -/
def PwrSagCtl.pct : Fld := ⟨9, 7, .rw, 0⟩
/-- PWR_SAG_CTL.cut [16:16]: Cut the cap on SAG_WARN (R516). Reset: 1 (R540). -/
def PwrSagCtl.cut : Fld := ⟨16, 1, .rw, 1⟩
/-- PWR_IRQ_STAT.sag [0:0]: SAG_WARN raised. Reset: 0 (R540). -/
def PwrIrqStat.sag : Fld := ⟨0, 1, .w1c, 0⟩
/-- PWR_IRQ_STAT.throttle [1:1]: THROTTLE_START or THROTTLE_END. Reset: 0 (R540). -/
def PwrIrqStat.throttle : Fld := ⟨1, 1, .w1c, 0⟩
/-- PWR_IRQ_STAT.rise [2:2]: THERM_RISE. Reset: 0 (R540). -/
def PwrIrqStat.rise : Fld := ⟨2, 1, .w1c, 0⟩
/-- PWR_IRQ_STAT.limit [3:3]: THERM_LIMIT. Reset: 0 (R540). -/
def PwrIrqStat.limit : Fld := ⟨3, 1, .w1c, 0⟩
/-- PWR_IRQ_STAT.power [4:4]: PWR_LIMIT. Reset: 0 (R540). -/
def PwrIrqStat.power : Fld := ⟨4, 1, .w1c, 0⟩
/-- PWR_IRQ_STAT.sensor [5:5]: SENSOR_FAIL. Reset: 0 (R540). -/
def PwrIrqStat.sensor : Fld := ⟨5, 1, .w1c, 0⟩
/-- PWR_NOW.vin [15:0]: Latest sample, mV. Reset: 0 (R540). -/
def PwrNow.vin : Fld := ⟨0, 16, .ro, 0⟩
/-- PWR_NOW.iin [31:16]: Latest sample, 10 mA. Reset: 0 (R540). -/
def PwrNow.iin : Fld := ⟨16, 16, .ro, 0⟩
/-- PWR_NOW.pin [47:32]: Latest sample, W. Reset: 0 (R540). -/
def PwrNow.pin : Fld := ⟨32, 16, .ro, 0⟩
/-- PWR_VIN_SNAP.min [15:0]: Lowest VIN sample of the stitch, mV. Reset: 0 (R540). -/
def PwrVinSnap.min : Fld := ⟨0, 16, .snap, 0⟩
/-- PWR_VIN_SNAP.max [31:16]: Highest, mV. Reset: 0 (R540). -/
def PwrVinSnap.max : Fld := ⟨16, 16, .snap, 0⟩
/-- PWR_PIN_SNAP.mean [15:0]: Mean input power of the stitch, W. Reset: 0 (R540). -/
def PwrPinSnap.mean : Fld := ⟨0, 16, .snap, 0⟩
/-- PWR_PIN_SNAP.max [31:16]: Highest sample of the stitch, W. Reset: 0 (R540). -/
def PwrPinSnap.max : Fld := ⟨16, 16, .snap, 0⟩
/-- PWR_PIN_SNAP.mean_1ms [47:32]: Mean over the last 1 ms, W. Reset: 0 (R540). -/
def PwrPinSnap.mean1ms : Fld := ⟨32, 16, .snap, 0⟩
/-- PWR_ENERGY_SNAP.energy [63:0]: Input energy since standby power-good, µJ; no wrap in a week. Reset: Standby (R540). -/
def PwrEnergySnap.energy : Fld := ⟨0, 64, .snap, 0⟩
/-- PWR_GRANT.allot [15:0]: Allotment (R526). Reset: From grant (R540). -/
def PwrGrant.allot : Fld := ⟨0, 16, .gf, 0⟩
/-- PWR_GRANT.flesh [63:32]: Complement of [31:0]. Reset: From grant (R540). -/
def PwrGrant.flesh : Fld := ⟨32, 32, .gf, 0⟩
/-- PWR_PART.held [15:0]: Tokens held. Reset: 0 (R540). -/
def PwrPart.held : Fld := ⟨0, 16, .ro, 0⟩
/-- PWR_PART.target [31:16]: Target of the last refill. Reset: 0 (R540). -/
def PwrPart.target : Fld := ⟨16, 16, .ro, 0⟩
/-- PWR_PART.bucket [63:32]: B_p, signed, nJ. Reset: 0 (R540). -/
def PwrPart.bucket : Fld := ⟨32, 32, .ro, 0⟩
/-- THRM_CLASS.limits [31:0]: Word c, with defaults applied. Reset: From THERMAL (R541). -/
def ThrmClass.limits : Fld := ⟨0, 32, .ro, 0⟩
/-- THRM_STATUS.at_limit [22:0]: Bit d set while domain d is at or above its throttle limit. Reset: 0 (R541). -/
def ThrmStatus.atLimit : Fld := ⟨0, 23, .ro, 0⟩
/-- THRM_STATUS.rising [54:32]: Register bit 32 + d set while THERM_RISE is active for domain d. Reset: 0 (R541). -/
def ThrmStatus.rising : Fld := ⟨32, 23, .ro, 0⟩
/-- THRM_DOM_SNAP.max [15:0]: Domain temperature at the tick, signed, 0.125 °C; 0x7FFF when every sensor has failed. Reset: 0 (R541). -/
def ThrmDomSnap.max : Fld := ⟨0, 16, .snap, 0⟩
/-- THRM_DOM_SNAP.sensor [23:16]: Index within the domain of the sensor giving max. Reset: 0 (R541). -/
def ThrmDomSnap.sensor : Fld := ⟨16, 8, .snap, 0⟩
/-- THRM_DOM_SNAP.rise [47:32]: Largest rise over the window (R531), 0.125 °C. Reset: 0 (R541). -/
def ThrmDomSnap.rise : Fld := ⟨32, 16, .snap, 0⟩
/-- THRM_MAXHOLD.hold [15:0]: Highest domain temperature since the last read; a read resets it to the current temperature. Reset: 0 (R541). -/
def ThrmMaxhold.hold : Fld := ⟨0, 16, .ro, 0⟩
/-- THRM_SENSOR.value [15:0]: Latest reading, signed, 0.125 °C. Reset: 0 (R541). -/
def ThrmSensor.value : Fld := ⟨0, 16, .ro, 0⟩
/-- THRM_SENSOR.failed [16:16]: R529. Reset: 0 (R541). -/
def ThrmSensor.failed : Fld := ⟨16, 1, .ro, 0⟩
/-- PART_PWR.allot [15:0]: The partition's allotment. Reset: From grant (R542). -/
def PartPwr.allot : Fld := ⟨0, 16, .ro, 0⟩
/-- PART_PWR.held [31:16]: Tokens held. Reset: 0 (R542). -/
def PartPwr.held : Fld := ⟨16, 16, .ro, 0⟩
/-- PART_PWR.target [47:32]: Target of the last refill. Reset: 0 (R542). -/
def PartPwr.target : Fld := ⟨32, 16, .ro, 0⟩
/-- PART_PWR.pct [54:48]: k of the device. Reset: 100 (R542). -/
def PartPwr.pct : Fld := ⟨48, 7, .ro, 100⟩
/-- PART_PWR_STAT.waited [47:0]: Cycles in which a head descriptor waited under R524; wraps modulo 2^48. Reset: 0 (R542). -/
def PartPwrStat.waited : Fld := ⟨0, 48, .ro, 0⟩
/-- DEV_ID.part [15:0]: Part number. Reset: 0x5264 (R572). -/
def DevId.part : Fld := ⟨0, 16, .ro, 21092⟩
/-- DEV_ID.stepping [23:16]: Stepping. Reset: 0xA1 (R572). -/
def DevId.stepping : Fld := ⟨16, 8, .ro, 161⟩
/-- DEV_ID.idcode [63:32]: JTAG IDCODE (R567). Reset: Fused (R572). -/
def DevId.idcode : Fld := ⟨32, 32, .ro, 0⟩
/-- DEV_CTL.cmd [3:0]: 0x1 WARM_RESET, 0x2 RAISE_FW_SEQ (R561); other values are ignored. Reset: 0 (R572). -/
def DevCtl.cmd : Fld := ⟨0, 4, .wo, 0⟩
/-- DEV_BOOT.stage [2:0]: 0 ROM, 1 firmware, 2 self-test, 3 done, 4 failed. Reset: 0 (R572). -/
def DevBoot.stage : Fld := ⟨0, 3, .ro, 0⟩
/-- DEV_BOOT.primary [4:3]: Primary die, 0 or 2. Reset: 0 (R572). -/
def DevBoot.primary : Fld := ⟨3, 2, .ro, 0⟩
/-- DEV_BOOT.fallback [5:5]: Step 6 ran. Reset: 0 (R572). -/
def DevBoot.fallback : Fld := ⟨5, 1, .ro, 0⟩
/-- DEV_BOOT.fw_copy [6:6]: Firmware copy loaded. Reset: 0 (R572). -/
def DevBoot.fwCopy : Fld := ⟨6, 1, .ro, 0⟩
/-- DEV_BOOT.causes [21:16]: Bit 0 standby power-up, 1 SAG_RESET, 2 THERM_TRIP, 3 PERST_N, 4 SYS_RST_N, 5 WARM_RESET (R553). Reset: Standby (R572). -/
def DevBoot.causes : Fld := ⟨16, 6, .ro, 0⟩
/-- DEV_BOOT.boot_us [63:32]: Time from t0 to step 7. Reset: 0 (R572). -/
def DevBoot.bootUs : Fld := ⟨32, 32, .ro, 0⟩
/-- DEV_DIE.ok [3:0]: Bit d set when die Cd passed self-test. Reset: 0 (R572). -/
def DevDie.ok : Fld := ⟨0, 4, .ro, 0⟩
/-- DEV_DIE.tested [7:4]: Bit d set when die Cd reported. Reset: 0 (R572). -/
def DevDie.tested : Fld := ⟨4, 4, .ro, 0⟩
/-- DEV_CLK.pll_locked [0:0]: X-die PLL locked. Reset: 0 (R572). -/
def DevClk.pllLocked : Fld := ⟨0, 1, .ro, 0⟩
/-- DEV_CLK.die_locked [4:1]: Compute-die PLLs locked. Reset: 0 (R572). -/
def DevClk.dieLocked : Fld := ⟨1, 4, .ro, 0⟩
/-- DEV_CLK.ref_lost [5:5]: R550. Reset: 0 (R572). -/
def DevClk.refLost : Fld := ⟨5, 1, .ro, 0⟩
/-- DEV_CLK.ref_gaps [63:32]: Reference gaps; saturates. Reset: Standby (R572). -/
def DevClk.refGaps : Fld := ⟨32, 32, .ro, 0⟩
/-- DEV_FW.seq0 [7:0]: Sequence of FW0. Reset: 0 (R572). -/
def DevFw.seq0 : Fld := ⟨0, 8, .ro, 0⟩
/-- DEV_FW.seq1 [15:8]: Sequence of FW1. Reset: 0 (R572). -/
def DevFw.seq1 : Fld := ⟨8, 8, .ro, 0⟩
/-- DEV_FW.fw_min [21:16]: Fused minimum, 0 to 32. Reset: Fused (R572). -/
def DevFw.fwMin : Fld := ⟨16, 6, .ro, 0⟩
/-- DEV_FW.ok0 [22:22]: FW0 passed R558. Reset: 0 (R572). -/
def DevFw.ok0 : Fld := ⟨22, 1, .ro, 0⟩
/-- DEV_FW.ok1 [23:23]: FW1 passed R558. Reset: 0 (R572). -/
def DevFw.ok1 : Fld := ⟨23, 1, .ro, 0⟩
/-- DEV_STRAP.smb_addr [1:0]: SMBus address 0x4C + value. Reset: Sampled (R572). -/
def DevStrap.smbAddr : Fld := ⟨0, 2, .ro, 0⟩
/-- DEV_STRAP.no_autoload [2:2]: Autoload is treated as clear; HARN_BOOT is unchanged. Reset: Sampled (R572). -/
def DevStrap.noAutoload : Fld := ⟨2, 1, .ro, 0⟩
/-- DEV_IRQ_STAT.event [0:0]: Cause of PF vector 0: a record entered the device event ring (R436). Reset: 0 (R572). -/
def DevIrqStat.event : Fld := ⟨0, 1, .w1c, 0⟩
/-- DEV_IRQ_STAT.harness [1:1]: Cause of PF vector 1: a Harness operation ended. Reset: 0 (R572). -/
def DevIrqStat.harness : Fld := ⟨1, 1, .w1c, 0⟩
/-- DEV_IRQ_STAT.state [2:2]: Cause of PF vector 2: HARN_STATE.dev_state changed. Reset: 0 (R572). -/
def DevIrqStat.state : Fld := ⟨2, 1, .w1c, 0⟩
/-- DEV_CORE_GOOD.good [63:0]: Bit i set when physical core 64j + i passed; in word 8, bits [63:16] read 0. Reset: Fused (R572). -/
def DevCoreGood.good : Fld := ⟨0, 64, .ro, 2 ^ 64 - 1⟩
/-- DEV_D2D.roles [15:0]: R562. Reset: From D2D_ROLE (R572). -/
def DevD2d.roles : Fld := ⟨0, 16, .ro, 0⟩
/-- DEV_D2D.modules [19:16]: Working modules, 0 to 8. Reset: 0 (R572). -/
def DevD2d.modules : Fld := ⟨16, 4, .ro, 0⟩
/-- DEV_D2D.repaired [31:24]: Lanes repaired at the last commit; saturates. Reset: 0 (R572). -/
def DevD2d.repaired : Fld := ⟨24, 8, .ro, 0⟩
/-- DEV_D2D.fused_repairs [39:32]: Lanes repaired at package test. Reset: Fused (R572). -/
def DevD2d.fusedRepairs : Fld := ⟨32, 8, .ro, 0⟩
/-- DEV_LOOP_CTL.kind [2:0]: 0 none, 1 HBM PHY pad, 2 HBM DRAM write-read, 3 UCIe local, 4 UCIe remote; other values refused. Reset: 0 (R572). -/
def DevLoopCtl.kind : Fld := ⟨0, 3, .rw, 0⟩
/-- DEV_LOOP_CTL.target [5:3]: Stack 0 to 7, or link 0 to 7. Reset: 0 (R572). -/
def DevLoopCtl.target : Fld := ⟨3, 3, .rw, 0⟩
/-- DEV_LOOP_CTL.channel [10:6]: HBM channel 0 to 31. Reset: 0 (R572). -/
def DevLoopCtl.channel : Fld := ⟨6, 5, .rw, 0⟩
/-- DEV_LOOP_CTL.start [11:11]: Writing 1 starts a run (R570). Reset: 0 (R572). -/
def DevLoopCtl.start : Fld := ⟨11, 1, .wo, 0⟩
/-- DEV_LOOP_RES.errors [31:0]: PRBS31 errors over all lanes; saturates. Reset: 0 (R572). -/
def DevLoopRes.errors : Fld := ⟨0, 32, .ro, 0⟩
/-- DEV_LOOP_RES.done [32:32]: Run finished; cleared by start. Reset: 0 (R572). -/
def DevLoopRes.done : Fld := ⟨32, 1, .ro, 0⟩
/-- DEV_LOOP_RES.refused [33:33]: Last run refused. Reset: 0 (R572). -/
def DevLoopRes.refused : Fld := ⟨33, 1, .ro, 0⟩
/-- FAB_STAT.lo [31:0]: [0] loops: FAB_ROUTE_LOOP discards; [1] reach_refused; saturate. Reset: 0 (R350). -/
def FabStat.lo : Fld := ⟨0, 32, .ro, 0⟩
/-- FAB_STAT.hi [63:32]: [0] discards: FAB_DISCARD; [1] table_refused; saturate. Reset: 0 (R350). -/
def FabStat.hi : Fld := ⟨32, 32, .ro, 0⟩
/-- HARN_DIGEST.value [63:0]: SHA-384 of the committed tree image, 8 bytes per register, first byte in [7:0] of [0]; 0 in Bare. Reset: 0 (R68). -/
def HarnDigest.value : Fld := ⟨0, 64, .ro, 0⟩
/-- PART_STRAP_CTL.cmd [3:0]: 0x9 STRAP_PUSH, 0xA UNLOAD; others ignored. Reset: 0 (R68). -/
def PartStrapCtl.cmd : Fld := ⟨0, 4, .wo, 0⟩
/-- PART_STRAP_DIGEST.value [63:0]: SHA-384 of the committed strap image. Reset: 0 (R68). -/
def PartStrapDigest.value : Fld := ⟨0, 64, .ro, 0⟩
/-- PART_STRAP_KEY.value [63:0]: Key digest recorded under R33. Reset: 0 (R68). -/
def PartStrapKey.value : Fld := ⟨0, 64, .ro, 0⟩
/-- ERR_FIRST.value [63:0]: First captured record of block b (R486). Reset: Standby (R509). -/
def ErrFirst.value : Fld := ⟨0, 64, .ro, 0⟩
/-- ERR_NEXT.value [63:0]: Latest captured record after FIRST (R486). Reset: Standby (R509). -/
def ErrNext.value : Fld := ⟨0, 64, .ro, 0⟩
/-- ERR_RING.value [63:0]: Slot s of the device event ring (R490). Reset: Standby (R509). -/
def ErrRing.value : Fld := ⟨0, 64, .ro, 0⟩
/-- ERR_SIG.value [63:0]: Failure signature g (R507). Reset: Standby (R509). -/
def ErrSig.value : Fld := ⟨0, 64, .ro, 0⟩
/-- PART_STEP_RANGE.kind [1:0]: 0 unused, 1 input, 2 output; 3 invalid. Reset: 0 (R511). -/
def PartStepRange.kind : Fld := ⟨0, 2, .rw, 0⟩
/-- PART_STEP_RANGE.space [3:2]: 0 scratchpad, 1 LLS scratch, 2 HBM; 3 invalid. Reset: 0 (R511). -/
def PartStepRange.space : Fld := ⟨2, 2, .rw, 0⟩
/-- PART_STEP_RANGE.where [12:4]: Logical core for scratchpad; die in [5:4] for LLS. Reset: 0 (R511). -/
def PartStepRange.whereF : Fld := ⟨4, 9, .rw, 0⟩
/-- PART_STEP_RANGE1.base [31:0]: 4 KiB units. Reset: 0 (R511). -/
def PartStepRange1.base : Fld := ⟨0, 32, .rw, 0⟩
/-- PART_STEP_RANGE1.size [63:32]: 4 KiB units, at most 2^28. Reset: 0 (R511). -/
def PartStepRange1.size : Fld := ⟨32, 32, .rw, 0⟩
/-- PWR_LASTGASP0.uptime [62:0]: UPTIME_NS at the trip. Reset: Standby (R540). -/
def PwrLastgasp0.uptime : Fld := ⟨0, 63, .ro, 0⟩
/-- PWR_LASTGASP0.valid [63:63]: R520. Reset: Standby (R540). -/
def PwrLastgasp0.valid : Fld := ⟨63, 1, .ro, 0⟩
/-- PWR_LASTGASP1.stitch [47:0]: STCH_COUNT at the trip. Reset: Standby (R540). -/
def PwrLastgasp1.stitch : Fld := ⟨0, 48, .ro, 0⟩
/-- PWR_LASTGASP1.pct [54:48]: k at the trip. Reset: Standby (R540). -/
def PwrLastgasp1.pct : Fld := ⟨48, 7, .ro, 0⟩
/-- PWR_LASTGASP2.vin_min [15:0]: Lowest VIN sample in the 10 µs before the trip, mV. Reset: Standby (R540). -/
def PwrLastgasp2.vinMin : Fld := ⟨0, 16, .ro, 0⟩
/-- PWR_LASTGASP2.pin [31:16]: Input power at the trip, W. Reset: Standby (R540). -/
def PwrLastgasp2.pin : Fld := ⟨16, 16, .ro, 0⟩
/-- PWR_LASTGASP2.cap [47:32]: Cap at the trip. Reset: Standby (R540). -/
def PwrLastgasp2.cap : Fld := ⟨32, 16, .ro, 0⟩
/-- PWR_LASTGASP2.cause [55:48]: 1 SAG_RESET, 2 THERM_TRIP. Reset: Standby (R540). -/
def PwrLastgasp2.cause : Fld := ⟨48, 8, .ro, 0⟩
/-- PWR_LASTGASP3.trips [31:0]: Trips since standby power-good; saturates. Reset: Standby (R540). -/
def PwrLastgasp3.trips : Fld := ⟨0, 32, .ro, 0⟩

/-- The fields of a register that are not reserved. -/
def Reg.fields : Reg → List Fld
  | .devId => [DevId.part, DevId.stepping, DevId.idcode]
  | .devCtl => [DevCtl.cmd]
  | .devBoot => [DevBoot.stage, DevBoot.primary, DevBoot.fallback, DevBoot.fwCopy, DevBoot.causes, DevBoot.bootUs]
  | .devDie => [DevDie.ok, DevDie.tested]
  | .devClk => [DevClk.pllLocked, DevClk.dieLocked, DevClk.refLost, DevClk.refGaps]
  | .devFw => [DevFw.seq0, DevFw.seq1, DevFw.fwMin, DevFw.ok0, DevFw.ok1]
  | .devStrap => [DevStrap.smbAddr, DevStrap.noAutoload]
  | .devIrqStat => [DevIrqStat.event, DevIrqStat.harness, DevIrqStat.state]
  | .devCoreGood j => [if j < 8 then DevCoreGood.good else { DevCoreGood.good with rst := 65535 }]
  | .devD2d _ => [DevD2d.roles, DevD2d.modules, DevD2d.repaired, DevD2d.fusedRepairs]
  | .devLoopCtl => [DevLoopCtl.kind, DevLoopCtl.target, DevLoopCtl.channel, DevLoopCtl.start]
  | .devLoopRes => [DevLoopRes.errors, DevLoopRes.done, DevLoopRes.refused]
  | .harnState => [HarnState.devState, HarnState.drained, HarnState.busy, HarnState.source, HarnState.armed]
  | .harnCtl => [HarnCtl.cmd, HarnCtl.partition]
  | .harnStatus => [HarnStatus.step, HarnStatus.result, HarnStatus.code, HarnStatus.detail, HarnStatus.elapsedUs]
  | .harnPushAddr => [HarnPushAddr.addr]
  | .harnPushLen => [HarnPushLen.len]
  | .harnBoot => [HarnBoot.autoload, HarnBoot.preferred, HarnBoot.flesh]
  | .harnFuse => [HarnFuse.keyPresent, HarnFuse.keyRevoked, HarnFuse.minSequence]
  | .harnDigest _ => [HarnDigest.value]
  | .stchCtl => [StchCtl.periodUs, StchCtl.role, StchCtl.cmd]
  | .stchStatus => [StchStatus.state, StchStatus.holdover, StchStatus.countSplit, StchStatus.actingMaster, StchStatus.periodMismatch, StchStatus.rejoinPending, StchStatus.rejoinRefused, StchStatus.input]
  | .stchCount => [StchCount.count]
  | .stchMasterCount => [StchMasterCount.count, StchMasterCount.valid]
  | .stchPhase => [StchPhase.errorNs]
  | .stchUptimeNs => [StchUptimeNs.value]
  | .stchBootId => [StchBootId.value]
  | .stchTickCount => [StchTickCount.value]
  | .stchTickUptime => [StchTickUptime.value]
  | .stchStat => [StchStat.holdovers, StchStat.inputChanges, StchStat.splits, StchStat.tokensIgnored]
  | .stchPart _ => [StchPart.entry, StchPart.rect]
  | .pwrCfg => [PwrCfg.limitW, PwrCfg.peakW, PwrCfg.cap0, PwrCfg.holdUs]
  | .pwrState => [PwrState.pct, PwrState.sag, PwrState.down, PwrState.cap, PwrState.pool, PwrState.grantRefused]
  | .pwrSagCtl => [PwrSagCtl.threshold, PwrSagCtl.pct, PwrSagCtl.cut]
  | .pwrIrqStat => [PwrIrqStat.sag, PwrIrqStat.throttle, PwrIrqStat.rise, PwrIrqStat.limit, PwrIrqStat.power, PwrIrqStat.sensor]
  | .pwrNow => [PwrNow.vin, PwrNow.iin, PwrNow.pin]
  | .pwrVinSnap => [PwrVinSnap.min, PwrVinSnap.max]
  | .pwrPinSnap => [PwrPinSnap.mean, PwrPinSnap.max, PwrPinSnap.mean1ms]
  | .pwrEnergySnap => [PwrEnergySnap.energy]
  | .pwrLastgasp i => if i = 0 then [PwrLastgasp0.uptime, PwrLastgasp0.valid] else if i = 1 then [PwrLastgasp1.stitch, PwrLastgasp1.pct] else if i = 2 then [PwrLastgasp2.vinMin, PwrLastgasp2.pin, PwrLastgasp2.cap, PwrLastgasp2.cause] else [PwrLastgasp3.trips]
  | .pwrGrant _ => [PwrGrant.allot, PwrGrant.flesh]
  | .pwrPart _ => [PwrPart.held, PwrPart.target, PwrPart.bucket]
  | .thrmClass _ => [ThrmClass.limits]
  | .thrmStatus => [ThrmStatus.atLimit, ThrmStatus.rising]
  | .thrmDomSnap _ => [ThrmDomSnap.max, ThrmDomSnap.sensor, ThrmDomSnap.rise]
  | .thrmMaxhold _ => [ThrmMaxhold.hold]
  | .thrmSensor _ => [ThrmSensor.value, ThrmSensor.failed]
  | .errRingHead => [ErrRingHead.head]
  | .errRingRead => [ErrRingRead.read]
  | .errEventsLostOldest => [ErrEventsLostOldest.lost]
  | .errIntake => [ErrIntake.occupied, ErrIntake.peak, ErrIntake.coalesced]
  | .errPath => [ErrPath.code, ErrPath.valid]
  | .errAwlCtl => [ErrAwlCtl.core, ErrAwlCtl.mask, ErrAwlCtl.start]
  | .errAwlStat => [ErrAwlStat.core, ErrAwlStat.busy, ErrAwlStat.refused, ErrAwlStat.passed]
  | .errSigStat => [ErrSigStat.made, ErrSigStat.overwritten]
  | .errCapCtl _ => [ErrCapCtl.firstValid, ErrCapCtl.escalated, ErrCapCtl.nextCount]
  | .errFirst _ _ => [ErrFirst.value]
  | .errNext _ _ => [ErrNext.value]
  | .errRing _ _ => [ErrRing.value]
  | .errSig _ _ => [ErrSig.value]
  | .fabNode => [FabNode.physical, FabNode.logical, FabNode.noLogical]
  | .fabTableCtl => [FabTableCtl.partMask, FabTableCtl.quiesce]
  | .fabTableStatus => [FabTableStatus.quiet, FabTableStatus.outstanding]
  | .fabVcCfg => [FabVcCfg.weights]
  | .fabCreditCfg _ => [FabCreditCfg.grants]
  | .fabStat _ => [FabStat.lo, FabStat.hi]
  | .fabRoute _ => [FabRoute.entry, FabRoute.flesh]
  | .fabXlate _ => [FabXlate.entry, FabXlate.flesh]
  | .fabReach _ _ => [FabReach.entry, FabReach.flesh]
  | .fabTransit _ => [FabTransit.weights]
  | .fabConsDev => [FabConsDev.audits, FabConsDev.gf, FabConsDev.vc0Lost]
  | .fabPortState _ => [FabPortState.role, FabPortState.partner, FabPortState.carrying]
  | .fabTxBytesSnap _ => [FabTxBytesSnap.bytes]
  | .fabRxBytesSnap _ => [FabRxBytesSnap.bytes]
  | .fabTxFlitsSnap _ => [FabTxFlitsSnap.flits]
  | .fabRxFlitsSnap _ => [FabRxFlitsSnap.flits]
  | .fabLinkErr _ => [FabLinkErr.crcFail, FabLinkErr.replays]
  | .fabConsStat _ => [FabConsStat.mismatches, FabConsStat.skipped, FabConsStat.starts, FabConsStat.resync, FabConsStat.recent]
  | .fabConsRetired _ => [FabConsRetired.granted, FabConsRetired.held]
  | .fabStallSnap _ _ => [FabStallSnap.cycles]
  | .fabQueueSnap _ _ => [FabQueueSnap.waiting, FabQueueSnap.peak, FabQueueSnap.held, FabQueueSnap.occupied]
  | .fabCredit _ _ => [FabCredit.held, FabCredit.occupied, FabCredit.grant, FabCredit.resyncs]
  | .optCfg => [OptCfg.burnishMs, OptCfg.slewW]
  | .optSlewStat => [OptSlewStat.ballast]
  | .optFeed _ => [OptFeed.power, OptFeed.low, OptFeed.shutterOpen]
  | .optSlewPart _ => [OptSlewPart.allowance, OptSlewPart.busy, OptSlewPart.held]
  | .optPortState _ => [OptPortState.state, OptPortState.txRetired, OptPortState.rxRetired, OptPortState.txSpare, OptPortState.rxSpare, OptPortState.delayNs, OptPortState.failures]
  | .optPortCtl _ => [OptPortCtl.disable, OptPortCtl.loop]
  | .optLbRes _ => [OptLbRes.bitErrors, OptLbRes.rttNs, OptLbRes.locked, OptLbRes.refused]
  | .optPortStat _ => [OptPortStat.mislocks, OptPortStat.burnishes, OptPortStat.trainFail, OptPortStat.ethDropped]
  | .optTxLine _ _ => [OptTxLine.detune, OptTxLine.lane, OptTxLine.state, OptTxLine.heaterMw, OptTxLine.corrected]
  | .optRxLine _ _ => [OptRxLine.detune, OptRxLine.lane, OptRxLine.state, OptRxLine.heaterMw, OptRxLine.corrected]
  | .hbmStackState _ => [HbmStackState.state, HbmStackState.working, HbmStackState.chOk]
  | .hbmScrubCtl => [HbmScrubCtl.periodH, HbmScrubCtl.enable]
  | .hbmMarginCtl => [HbmMarginCtl.stack, HbmMarginCtl.channel, HbmMarginCtl.lane, HbmMarginCtl.axis, HbmMarginCtl.start]
  | .hbmMarginRes => [HbmMarginRes.low, HbmMarginRes.high, HbmMarginRes.done, HbmMarginRes.refused]
  | .hbmScrubStat _ => [HbmScrubStat.passes, HbmScrubStat.blocksDone]
  | .hbmRdSnap _ => [HbmRdSnap.transfers]
  | .hbmWrSnap _ => [HbmWrSnap.transfers]
  | .hbmRegion _ => [HbmRegion.stacks, HbmRegion.weight, HbmRegion.base, HbmRegion.valid, HbmRegion.size]
  | .hbmChState _ _ => [HbmChState.lastMarked, HbmChState.marked, HbmChState.sparesUsed, HbmChState.caSpareUsed, HbmChState.state]
  | .hbmChEcc _ _ => [HbmChEcc.corrected, HbmChEcc.uncorrected]
  | .llsSlice _ _ => [LlsSlice.mode, LlsSlice.firstWay, LlsSlice.ways]
  | .llsHitSnap _ _ => [LlsHitSnap.count]
  | .llsMissSnap _ _ => [LlsMissSnap.count]
  | .llsErr _ => [LlsErr.corrected, LlsErr.uncorrected]
  | .coreCap _ => [CoreCap.spmKib, CoreCap.strips, CoreCap.cube, CoreCap.threads, CoreCap.queueDepth, CoreCap.vecLanes, CoreCap.tacks, CoreCap.dmaInflight]
  | .coreId _ => [CoreId.logical, CoreId.die, CoreId.partition, CoreId.granted]
  | .coreCtl _ => [CoreCtl.cmd]
  | .coreState _ => [CoreState.state, CoreState.running, CoreState.parked]
  | .coreFault _ => [CoreFault.cause, CoreFault.thread, CoreFault.engine, CoreFault.tag, CoreFault.more, CoreFault.pc]
  | .coreQstat _ => [CoreQstat.matrix, CoreQstat.vector, CoreQstat.dma, CoreQstat.dmaActive, CoreQstat.skiver]
  | .coreMxState _ => [CoreMxState.stripOk, CoreMxState.pairOk, CoreMxState.quadOk, CoreMxState.cubeOk, CoreMxState.busy, CoreMxState.shape, CoreMxState.drainBusy]
  | .coreMxInexact _ => [CoreMxInexact.inexact]
  | .corePc _ _ => [CorePc.pc]
  | .coreSkvGate _ => [CoreSkvGate.dropped, CoreSkvGate.rerouted]
  | .coreSkvSlots _ => [CoreSkvSlots.excluded, CoreSkvSlots.kept]
  | .coreSpmEcc _ => [CoreSpmEcc.corrected, CoreSpmEcc.uncorrected]
  | .coreSpmBlk _ => [CoreSpmBlk.crcFail, CoreSpmBlk.sparesUsed, CoreSpmBlk.maxBankUsed]
  | .coreTack _ => [CoreTack.value, CoreTack.initial]
  | .coreSyncStat _ => [CoreSyncStat.redundant, CoreSyncStat.cinchWaiting, CoreSyncStat.cinchLine]
  | .coreAwl _ => [CoreAwl.lastPass, CoreAwl.next, CoreAwl.fails]
  | .coreEnv _ _ _ => [CoreEnv.value]
  | .coreBusySnap _ _ => [CoreBusySnap.cycles]
  | .corePhys _ => [CorePhys.physical]
  | .coreSpmRemap _ _ _ => [CoreSpmRemap.row, CoreSpmRemap.valid, CoreSpmRemap.field, CoreSpmRemap.flesh]
  | .partId _ => [PartId.partition, PartId.granted, PartId.cores, PartId.ethFirst, PartId.ethCount, PartId.gtackFirst, PartId.gtackCount]
  | .partState _ => [PartState.state, PartState.devState, PartState.releasing, PartState.fenceCode]
  | .partIrqStat _ => [PartIrqStat.completion, PartIrqStat.event, PartIrqStat.state]
  | .partIrqTag _ => [PartIrqTag.core, PartIrqTag.tag, PartIrqTag.count]
  | .partStrapCtl _ => [PartStrapCtl.cmd]
  | .partStrapStatus _ => [HarnStatus.step, HarnStatus.result, HarnStatus.code, HarnStatus.detail, HarnStatus.elapsedUs]
  | .partStrapDigest _ _ => [PartStrapDigest.value]
  | .partStrapKey _ _ => [PartStrapKey.value]
  | .partStrapAddr _ => [PartStrapAddr.addr]
  | .partStrapLen _ => [PartStrapLen.len]
  | .partHchkBase _ => [PartHchkBase.base]
  | .partHchkSize _ => [PartHchkSize.size]
  | .partHchkArray _ => [PartHchkArray.array]
  | .partLls _ _ => [PartLls.slice]
  | .partHbm _ => [PartHbm.region]
  | .partHbmRdSnap _ => [PartHbmRdSnap.transfers]
  | .partHbmWrSnap _ => [PartHbmWrSnap.transfers]
  | .partRxBytes _ _ => [PartRxBytes.bytes]
  | .partRxPkts _ _ => [PartRxPkts.packets]
  | .partRxArm _ _ => [PartRxArm.armed, PartRxArm.tack, PartRxArm.threshold]
  | .partRxCtl _ => [PartRxCtl.counter, PartRxCtl.zero]
  | .partSyncStat _ => [PartSyncStat.redundant, PartSyncStat.auditFail]
  | .partGtackCtl _ => [PartGtackCtl.tack, PartGtackCtl.value, PartGtackCtl.flesh]
  | .partFlagHold _ => [PartFlagHold.held]
  | .partGtack _ _ => [PartGtack.value]
  | .partCinch _ => [PartCinch.arrived]
  | .partStchCfg _ => [PartStchCfg.cfg]
  | .partStchCtl _ => [PartStchCtl.hold, PartStchCtl.resumeCount]
  | .partStchSeg _ => [PartStchSeg.releases]
  | .partStchSlip _ => [PartStchSlip.slips, PartStchSlip.overruns]
  | .partFabNode _ => [PartFabNode.node]
  | .partFabReach _ _ => [PartFabReach.word]
  | .partFabTxSnap _ => [PartFabTxSnap.bytes]
  | .partFabRxSnap _ => [PartFabRxSnap.bytes]
  | .partFabStat _ => [PartFabStat.refused, PartFabStat.unreachable]
  | .partRegion _ _ _ => [PartRegion.word, PartRegion.flesh]
  | .partRmtCtl _ => [PartRmtCtl.bulk]
  | .partRmtStat _ => [PartRmtStat.refusedOwnership, PartRmtStat.refusedBound]
  | .partCollStat _ => [PartCollStat.busy, PartCollStat.completed]
  | .partAtomSnap _ => [PartAtomSnap.atomics]
  | .partSlew _ => [PartSlew.slew]
  | .partEthStat _ => [PartEthStat.droppedUnready, PartEthStat.droppedFull]
  | .partPwr _ => [PartPwr.allot, PartPwr.held, PartPwr.target, PartPwr.pct]
  | .partPwrStat _ => [PartPwrStat.waited]
  | .partEthqCtl _ _ => [PartEthqCtl.enable, PartEthqCtl.irq, PartEthqCtl.vector, PartEthqCtl.txLog2, PartEthqCtl.rxLog2, PartEthqCtl.gapUs]
  | .partEthqTxBase _ _ => [PartEthqTxBase.base]
  | .partEthqTxTail _ _ => [PartEthqTxTail.index]
  | .partEthqTxHead _ _ => [PartEthqTxHead.index]
  | .partEthqRxBase _ _ => [PartEthqRxBase.base]
  | .partEthqRxTail _ _ => [PartEthqRxTail.index]
  | .partEthqRxHead _ _ => [PartEthqRxHead.index]
  | .partEthqStat _ _ => [PartEthqStat.oversize, PartEthqStat.txBad, PartEthqStat.error, PartEthqStat.cause]
  | .partEvtHead _ => [PartEvtHead.count]
  | .partEvtRead _ => [PartEvtRead.count]
  | .partEvtLost _ => [PartEvtLost.lost]
  | .partStepCtl _ => [PartStepCtl.cmd]
  | .partStepStatus _ => [PartStepStatus.state, PartStepStatus.busy, PartStepStatus.refused, PartStepStatus.openBlocks]
  | .partStepId _ => [PartStepId.id]
  | .partStepFold _ => [PartStepFold.fold]
  | .partStepRange _ _ w => if w = 0 then [PartStepRange.kind, PartStepRange.space, PartStepRange.whereF] else [PartStepRange1.base, PartStepRange1.size]
  | .partReplaySrc _ => [PartReplaySrc.address]
  | .partReplayDst _ => [PartReplayDst.address]
  | .partReplayLen _ => [PartReplayLen.bytes]
  | .partReplayCtl _ => [PartReplayCtl.start]
  | .partReplayStatus _ => [PartReplayStatus.busy, PartReplayStatus.done, PartReplayStatus.lost, PartReplayStatus.copied]
  | .partWdigMine _ _ => [PartWdigMine.root]
  | .partWdigPeer _ _ => [PartWdigPeer.root]
  | .partWdigCtl _ => [PartWdigCtl.peer, PartWdigCtl.compare]
  | .partWdigStat _ => [PartWdigStat.compares, PartWdigStat.mismatches]
  | .partAwlCtl _ => [PartAwlCtl.fromF, PartAwlCtl.stitches]
  | .partAwlWin _ => [PartAwlWin.offset]

/-- The reset word of a register, assembled from its fields (R581). -/
def Reg.resetWord (r : Reg) : BitVec 64 :=
  BitVec.ofNat 64 (r.fields.foldl (fun acc f => acc + f.rst % 2 ^ f.width * 2 ^ f.lo) 0)

/-- A one-register row of an offset table. -/
def row0 (o base : Nat) (r : Reg) : Option Reg := if o = base then some r else none

/-- A row `base + stride * i` with `n` elements. -/
def row1 (o base stride n : Nat) (f : Nat → Reg) : Option Reg :=
  if base ≤ o ∧ (o - base) % stride = 0 ∧ (o - base) / stride < n then some (f ((o - base) / stride)) else none

/-- A row `base + s1 * i + s2 * j` with `n1` by `n2` elements. -/
def row2 (o base s1 n1 s2 n2 : Nat) (f : Nat → Nat → Reg) : Option Reg :=
  if base ≤ o ∧ (o - base) / s1 < n1 ∧ (o - base) % s1 % s2 = 0 ∧ (o - base) % s1 / s2 < n2 then
    some (f ((o - base) / s1) ((o - base) % s1 / s2)) else none

/-- The first row that holds the offset. -/
def firstRow : List (Option Reg) → Option Reg
  | [] => none
  | some r :: _ => some r
  | none :: rest => firstRow rest

/-- The register at offset `o` of the DEV block. -/
def devBlockReg (o : Nat) : Option Reg := firstRow [
  row0 o 0x0 (.devId),
  row0 o 0x8 (.devCtl),
  row0 o 0x10 (.devBoot),
  row0 o 0x18 (.devDie),
  row0 o 0x20 (.devClk),
  row0 o 0x28 (.devFw),
  row0 o 0x30 (.devStrap),
  row0 o 0x38 (.devIrqStat),
  row1 o 0x40 0x8 9 (.devCoreGood ·),
  row1 o 0x100 0x8 8 (.devD2d ·),
  row0 o 0x200 (.devLoopCtl),
  row0 o 0x208 (.devLoopRes)]

/-- The register at offset `o` of the HARN block. -/
def harnBlockReg (o : Nat) : Option Reg := firstRow [
  row0 o 0x0 (.harnState),
  row0 o 0x8 (.harnCtl),
  row0 o 0x10 (.harnStatus),
  row0 o 0x18 (.harnPushAddr),
  row0 o 0x20 (.harnPushLen),
  row0 o 0x28 (.harnBoot),
  row0 o 0x30 (.harnFuse),
  row1 o 0x40 0x8 6 (.harnDigest ·)]

/-- The register at offset `o` of the STCH block. -/
def stchBlockReg (o : Nat) : Option Reg := firstRow [
  row0 o 0x0 (.stchCtl),
  row0 o 0x8 (.stchStatus),
  row0 o 0x10 (.stchCount),
  row0 o 0x18 (.stchMasterCount),
  row0 o 0x20 (.stchPhase),
  row0 o 0x28 (.stchUptimeNs),
  row0 o 0x30 (.stchBootId),
  row0 o 0x38 (.stchTickCount),
  row0 o 0x40 (.stchTickUptime),
  row0 o 0x48 (.stchStat),
  row1 o 0x100 0x8 32 (.stchPart ·)]

/-- The register at offset `o` of the PWR block. -/
def pwrBlockReg (o : Nat) : Option Reg := firstRow [
  row0 o 0x0 (.pwrCfg),
  row0 o 0x8 (.pwrState),
  row0 o 0x10 (.pwrSagCtl),
  row0 o 0x18 (.pwrIrqStat),
  row0 o 0x20 (.pwrNow),
  row0 o 0x28 (.pwrVinSnap),
  row0 o 0x30 (.pwrPinSnap),
  row0 o 0x38 (.pwrEnergySnap),
  row1 o 0x40 0x8 4 (.pwrLastgasp ·),
  row1 o 0x100 0x8 32 (.pwrGrant ·),
  row1 o 0x200 0x8 32 (.pwrPart ·)]

/-- The register at offset `o` of the THRM block. -/
def thrmBlockReg (o : Nat) : Option Reg := firstRow [
  row1 o 0x0 0x8 4 (.thrmClass ·),
  row0 o 0x20 (.thrmStatus),
  row1 o 0x100 0x8 23 (.thrmDomSnap ·),
  row1 o 0x200 0x8 23 (.thrmMaxhold ·),
  row1 o 0x400 0x8 172 (.thrmSensor ·)]

/-- The register at offset `o` of the ERR block. -/
def errBlockReg (o : Nat) : Option Reg := firstRow [
  row0 o 0x0 (.errRingHead),
  row0 o 0x8 (.errRingRead),
  row0 o 0x10 (.errEventsLostOldest),
  row0 o 0x18 (.errIntake),
  row0 o 0x20 (.errPath),
  row0 o 0x28 (.errAwlCtl),
  row0 o 0x30 (.errAwlStat),
  row0 o 0x38 (.errSigStat),
  row1 o 0x100 0x8 20 (.errCapCtl ·),
  row2 o 0x1000 0x80 20 0x8 8 (.errFirst · ·),
  row2 o 0x1040 0x80 20 0x8 8 (.errNext · ·),
  row2 o 0x40000 0x40 4096 0x8 8 (.errRing · ·),
  row2 o 0x80000 0x200 64 0x8 64 (.errSig · ·)]

/-- The register at offset `o` of the FAB block. -/
def fabBlockReg (o : Nat) : Option Reg := firstRow [
  row0 o 0x0 (.fabNode),
  row0 o 0x8 (.fabTableCtl),
  row0 o 0x10 (.fabTableStatus),
  row0 o 0x18 (.fabVcCfg),
  row1 o 0x20 0x8 2 (.fabCreditCfg ·),
  row1 o 0x30 0x8 2 (.fabStat ·),
  row1 o 0x1000 0x8 1024 (.fabRoute ·),
  row1 o 0x3000 0x8 1024 (.fabXlate ·),
  row2 o 0x5000 0x100 32 0x8 18 (.fabReach · ·),
  row1 o 0x7000 0x8 32 (.fabTransit ·),
  row0 o 0x8000 (.fabConsDev),
  row1 o 0x100000 0x1000 64 (.fabPortState ·),
  row1 o 0x100008 0x1000 64 (.fabTxBytesSnap ·),
  row1 o 0x100010 0x1000 64 (.fabRxBytesSnap ·),
  row1 o 0x100018 0x1000 64 (.fabTxFlitsSnap ·),
  row1 o 0x100020 0x1000 64 (.fabRxFlitsSnap ·),
  row1 o 0x100028 0x1000 64 (.fabLinkErr ·),
  row1 o 0x100100 0x1000 64 (.fabConsStat ·),
  row1 o 0x100108 0x1000 64 (.fabConsRetired ·),
  row2 o 0x100040 0x1000 64 0x8 8 (.fabStallSnap · ·),
  row2 o 0x100080 0x1000 64 0x8 8 (.fabQueueSnap · ·),
  row2 o 0x100400 0x1000 64 0x8 194 (.fabCredit · ·)]

/-- The register at offset `o` of the OPT block. -/
def optBlockReg (o : Nat) : Option Reg := firstRow [
  row0 o 0x0 (.optCfg),
  row0 o 0x8 (.optSlewStat),
  row1 o 0x10 0x8 20 (.optFeed ·),
  row1 o 0x100 0x8 32 (.optSlewPart ·),
  row1 o 0x10000 0x400 68 (.optPortState ·),
  row1 o 0x10008 0x400 68 (.optPortCtl ·),
  row1 o 0x10010 0x400 68 (.optLbRes ·),
  row1 o 0x10018 0x400 68 (.optPortStat ·),
  row2 o 0x10100 0x400 68 0x8 9 (.optTxLine · ·),
  row2 o 0x10180 0x400 68 0x8 9 (.optRxLine · ·)]

/-- The register at offset `o` of the HBM block. -/
def hbmBlockReg (o : Nat) : Option Reg := firstRow [
  row1 o 0x0 0x8 8 (.hbmStackState ·),
  row0 o 0x40 (.hbmScrubCtl),
  row0 o 0x48 (.hbmMarginCtl),
  row0 o 0x50 (.hbmMarginRes),
  row1 o 0x80 0x8 8 (.hbmScrubStat ·),
  row1 o 0x100 0x8 32 (.hbmRdSnap ·),
  row1 o 0x200 0x8 32 (.hbmWrSnap ·),
  row1 o 0x400 0x8 32 (.hbmRegion ·),
  row2 o 0x1000 0x100 8 0x8 32 (.hbmChState · ·),
  row2 o 0x2000 0x100 8 0x8 32 (.hbmChEcc · ·)]

/-- The register at offset `o` of the LLS block. -/
def llsBlockReg (o : Nat) : Option Reg := firstRow [
  row2 o 0x0 0x100 4 0x8 32 (.llsSlice · ·),
  row2 o 0x400 0x100 4 0x8 32 (.llsHitSnap · ·),
  row2 o 0x800 0x100 4 0x8 32 (.llsMissSnap · ·),
  row1 o 0xC00 0x8 4 (.llsErr ·)]

/-- The register at offset `o` of the CORE block. -/
def coreBlockReg (n o : Nat) : Option Reg := firstRow [
  row0 o 0x0 (.coreCap n),
  row0 o 0x8 (.coreId n),
  row0 o 0x10 (.coreCtl n),
  row0 o 0x18 (.coreState n),
  row0 o 0x20 (.coreFault n),
  row0 o 0x28 (.coreQstat n),
  row0 o 0x30 (.coreMxState n),
  row0 o 0x38 (.coreMxInexact n),
  row1 o 0x40 0x8 8 (.corePc n ·),
  row0 o 0x80 (.coreSkvGate n),
  row0 o 0x88 (.coreSkvSlots n),
  row0 o 0x90 (.coreSpmEcc n),
  row0 o 0x98 (.coreSpmBlk n),
  row0 o 0xA0 (.coreTack n),
  row0 o 0xA8 (.coreSyncStat n),
  row0 o 0xB0 (.coreAwl n),
  row2 o 0x100 0x30 8 0x8 6 (.coreEnv n · ·),
  row1 o 0x300 0x8 5 (.coreBusySnap n ·),
  row0 o 0x1000 (.corePhys n),
  row2 o 0x1800 0x40 32 0x8 8 (.coreSpmRemap n · ·)]

/-- The register at offset `o` of the PART block. -/
def partBlockReg (q o : Nat) : Option Reg := firstRow [
  row0 o 0x0 (.partId q),
  row0 o 0x8 (.partState q),
  row0 o 0x10 (.partIrqStat q),
  row0 o 0x18 (.partIrqTag q),
  row0 o 0x1000 (.partStrapCtl q),
  row0 o 0x1008 (.partStrapStatus q),
  row1 o 0x1010 0x8 6 (.partStrapDigest q ·),
  row1 o 0x1040 0x8 6 (.partStrapKey q ·),
  row0 o 0x1070 (.partStrapAddr q),
  row0 o 0x1078 (.partStrapLen q),
  row0 o 0x2000 (.partHchkBase q),
  row0 o 0x2008 (.partHchkSize q),
  row0 o 0x2010 (.partHchkArray q),
  row1 o 0x2100 0x8 4 (.partLls q ·),
  row0 o 0x2200 (.partHbm q),
  row0 o 0x2208 (.partHbmRdSnap q),
  row0 o 0x2210 (.partHbmWrSnap q),
  row1 o 0x3000 0x8 64 (.partRxBytes q ·),
  row1 o 0x3200 0x8 64 (.partRxPkts q ·),
  row1 o 0x3400 0x8 64 (.partRxArm q ·),
  row0 o 0x3600 (.partRxCtl q),
  row0 o 0x3608 (.partSyncStat q),
  row0 o 0x3610 (.partGtackCtl q),
  row0 o 0x3618 (.partFlagHold q),
  row1 o 0x3700 0x8 16 (.partGtack q ·),
  row0 o 0x3780 (.partCinch q),
  row0 o 0x3800 (.partStchCfg q),
  row0 o 0x3808 (.partStchCtl q),
  row0 o 0x3810 (.partStchSeg q),
  row0 o 0x3818 (.partStchSlip q),
  row0 o 0x3900 (.partFabNode q),
  row1 o 0x3908 0x8 18 (.partFabReach q ·),
  row0 o 0x39A0 (.partFabTxSnap q),
  row0 o 0x39A8 (.partFabRxSnap q),
  row0 o 0x39B0 (.partFabStat q),
  row2 o 0x4000 0x20 256 0x8 4 (.partRegion q · ·),
  row0 o 0x6000 (.partRmtCtl q),
  row0 o 0x6008 (.partRmtStat q),
  row0 o 0x6010 (.partCollStat q),
  row0 o 0x6018 (.partAtomSnap q),
  row0 o 0x6100 (.partSlew q),
  row0 o 0x6108 (.partEthStat q),
  row0 o 0x6200 (.partPwr q),
  row0 o 0x6208 (.partPwrStat q),
  row1 o 0x7000 0x40 256 (.partEthqCtl q ·),
  row1 o 0x7008 0x40 256 (.partEthqTxBase q ·),
  row1 o 0x7010 0x40 256 (.partEthqTxTail q ·),
  row1 o 0x7018 0x40 256 (.partEthqTxHead q ·),
  row1 o 0x7020 0x40 256 (.partEthqRxBase q ·),
  row1 o 0x7028 0x40 256 (.partEthqRxTail q ·),
  row1 o 0x7030 0x40 256 (.partEthqRxHead q ·),
  row1 o 0x7038 0x40 256 (.partEthqStat q ·),
  row0 o 0xC000 (.partEvtHead q),
  row0 o 0xC008 (.partEvtRead q),
  row0 o 0xC010 (.partEvtLost q),
  row0 o 0xC100 (.partStepCtl q),
  row0 o 0xC108 (.partStepStatus q),
  row0 o 0xC110 (.partStepId q),
  row0 o 0xC118 (.partStepFold q),
  row2 o 0xC180 0x10 16 0x8 2 (.partStepRange q · ·),
  row0 o 0xC300 (.partReplaySrc q),
  row0 o 0xC308 (.partReplayDst q),
  row0 o 0xC310 (.partReplayLen q),
  row0 o 0xC318 (.partReplayCtl q),
  row0 o 0xC320 (.partReplayStatus q),
  row1 o 0xC400 0x8 4 (.partWdigMine q ·),
  row1 o 0xC420 0x8 4 (.partWdigPeer q ·),
  row0 o 0xC440 (.partWdigCtl q),
  row0 o 0xC448 (.partWdigStat q),
  row0 o 0xC500 (.partAwlCtl q),
  row0 o 0xC508 (.partAwlWin q)]

end Sys2Proof.Machine
end

