-- ==== Sys2Proof/Machine/State.lean ====
section
/-! DEFINITION. The state of the block: every register (by its name in RegMap), every memory, queue, buffer, counter and
mode of spec/, the free-value counter and the log of what the block sent (the model's own fields), and the queue of
waiting commands. Each field's comment names the rule that gives it and its value at reset. -/
namespace Sys2Proof.Machine

/-- Why the machine stops with a fault. -/
inductive Fault where
  /-- Raised by every meaning, through `commit`, for a command whose operands name a unit that the package does not
  have (a core above 511, a port above 67, a VF above 32: Instr.wf). Safe: the machine stops. -/
  | noSuchUnit
  deriving DecidableEq, Repr

/-- Why a command has no meaning. -/
inductive Refusal where
  /-- A row of the table whose meaning is not modelled yet; raised by exec's arm alone. Safe: the machine stops. -/
  | notModelled (mnemonic : String)
  deriving DecidableEq, Repr

/-- Registers that differ from their reset word (R581). -/
abbrev RegFile := List (Reg × BitVec 64)

/-- What leaves the block, in order (assumption 8): the model's own log. -/
inductive Output where
  /-- A memory read request to the host with its tag, in the address space of function `fn` (R432, R433). -/
  | hostRead (fn : Nat) (tag addr len : Nat)
  /-- A memory write to the host (R433). -/
  | hostWrite (fn : Nat) (addr : Nat) (bytes : List Byte)
  /-- An MSI-X message of vector `vec` of function `fn`, 0 for the PF (R436). -/
  | msix (fn vec : Nat)
  /-- The completion of a register read (R576). -/
  | readData (v : BitVec 64)
  /-- Unsupported Request for a malformed or absent BAR access (R575). -/
  | unsupported
  /-- The flit that a fabric port sent (R329). -/
  | flit (port : Nat) (bytes : List Byte)
  /-- A VC0 control message handed to a port (R335): kind and value. -/
  | ctrl (port kind : Nat) (v : BitVec 64)
  /-- The tag that a line of a fabric port carries after a MARKER (R389). -/
  | laneTag (port line : Nat) (bytes : List Byte)
  /-- An Ethernet frame with its FCS (R412). -/
  | ethFrame (port : Nat) (bytes : List Byte)
  /-- An SPDM answer over DOE (R447). -/
  | message (bytes : List Byte)
  /-- An answer over MCTP (R450): the device's SMBus address and endpoint ID, and the message cut into transmission units. -/
  | mctp (addr eid : Nat) (units : List (List Byte))
  /-- The levels a TAP instruction shifts out or drives (R567 to R569). -/
  | tap (v : Nat)
  /-- A pin the block drives, by its place among the CTRL lands of R544 (2 PWROK_OUT, 7 THERM_N), and its level. -/
  | pin (id : Nat) (high : Bool)
  deriving DecidableEq, Repr

/-! ## The Harness (chapter 02) -/

/-- A strap commit request as captured (R58, R68): partition, image address and length, and the VF that asked. -/
structure StrapReq where
  part : Nat
  addr : Nat
  len : Nat
  viaPf : Bool
  deriving DecidableEq, Repr

/-- The running Harness operation (R42, R56, R39, R446, R53). -/
inductive HarnOp where
  /-- A tree commit from source `src` (1 slot A, 2 slot B, 3 push) in step `step`; whether autoload asked (R36). -/
  | tree (src step : Nat) (auto : Bool)
  /-- A strap commit in step `step` of R56. -/
  | strap (req : StrapReq) (step : Nat)
  /-- A slot write to slot 0 (A) or 1 (B) (R39). -/
  | slotWrite (slot : Nat)
  /-- A RELEASE of partition `p` in step `step` of R446. -/
  | release (p step : Nat)
  deriving DecidableEq, Repr

/-- The image loader: image read so far, the ranges (first pair, count) still to read, the first of them under way, the
ranges read, whether a pair of them does not complement (R24), and the scratchpad rows that step 2 of a strap commit has
written, as (core, first byte, bytes) (R57). -/
structure Loader where
  addr : Nat
  len : Nat
  img : List (BitVec 64)
  todo : List (Nat × Nat)
  read : List (Nat × Nat)
  bad : Bool
  rows : List (Nat × Nat × Nat)
  deriving DecidableEq, Repr

/-- The loader with nothing to read. -/
def Loader.idle : Loader := ⟨0, 0, [], [], [], false, []⟩

/-- What a valid copy of the slot control block says (R40). -/
structure SlotCtl where
  count : Nat
  autoload : Bool
  preferred : Bool
  validA : Bool
  validB : Bool
  deriving DecidableEq, Repr

/-- One copy of the slot control block as the flash holds it (R40): its grain/flesh pairs and the CRC-32C of their bytes. -/
structure SlotCopy where
  words : List (BitVec 64)
  crc : BitVec 32
  deriving DecidableEq, Repr

/-- The boot flash (R35, R40, R558). -/
structure Flash where
  slotA : List (BitVec 64)
  slotB : List (BitVec 64)
  ctl0 : SlotCopy
  ctl1 : SlotCopy
  fw0 : List (BitVec 64)
  fw1 : List (BitVec 64)
  deriving DecidableEq, Repr

/-- The Harness (chapter 02). -/
structure Harn where
  op : Option HarnOp
  loader : Loader
  /-- Strap commit requests that wait, and a recorded DRAIN as none, in order of arrival (R58, R64). -/
  queue : List (Option StrapReq)
  startNs : Nat
  /-- The 4 MiB staging store: the image being committed, then the committed tree image (R37, R38). -/
  staging : List (BitVec 64)
  deriving DecidableEq, Repr

/-! ## The core (chapters 03 to 06) -/

/-- Why a thread is parked (R73, R76, R261). -/
inductive Park where
  | far (rd : Nat)
  | tack (t : Nat) (clear : Bool)
  | gtack (g : Nat) (clear : Bool)
  | rx (ctr thr : Nat)
  | cinch (line : Nat)
  /-- CINCH waiting for its far stores before it arrives (R278). -/
  | cinchFence (line : Nat)
  | fence
  | queueFull (eng : Nat)
  /-- The 17th far store waits for an acknowledgement (R360). -/
  | storeFull
  deriving DecidableEq, Repr

/-- The run state of a thread (R70, R71, R73). -/
inductive TStat where
  | stopped
  | ready
  | parked (why : Park)
  /-- Executed END; stops when its last descriptor completes (R71). -/
  | ending
  deriving DecidableEq, Repr

/-- A scalar thread (R72, R104): registers g1 to g31 by number (g0 never stored), envelope of six values. -/
structure Thread where
  stat : TStat
  pc : Nat
  regs : SMap (BitVec 64)
  env : List Nat
  /-- Far stores issued and not yet acknowledged (R73, R272). -/
  unacked : Nat
  deriving DecidableEq, Repr

/-- A descriptor in a queue: its eight words as captured, its thread, that thread's pc and envelope at issue (R86). -/
structure Desc where
  words : List (BitVec 64)
  thread : Nat
  pc : Nat
  env : List Nat
  /-- Its wait was met in the cycle in which another wait cleared the tack (R91, R263). -/
  met : Bool
  deriving DecidableEq, Repr

/-- Check value and state of a 4 KiB block of scratchpad or LLS scratch (R216). -/
structure Blk where
  check : BitVec 32
  valid : Bool
  deriving DecidableEq, Repr

/-- A descriptor in progress (R89, R90). -/
structure Act where
  id : Nat
  eng : Nat
  desc : Desc
  /-- STOP_ALL was applied: no tack, no interrupt (R109). -/
  silent : Bool
  /-- Transfers still outstanding; completion waits for them (R100). -/
  left : Nat
  /-- A fault struck it: its tack is not set (R101, R221). -/
  failed : Bool
  /-- Bytes gathered by a digest or a collective that waits for remote data, by offset of the visiting order. -/
  buf : Mem
  /-- Progress of a descriptor that moves data in more than one act: 0 gathers or has nothing to wait for, 1 its writes
  are out, 2 a reduce-scatter has combined (R370 to R376). -/
  phase : Nat
  /-- Check value and state of whole blocks that came with their data, by position of the visiting order (R219, R354). -/
  chks : SMap Blk
  /-- Base, size and array of the host check window as they stood at the start (R222). -/
  win : Nat × Nat × Nat
  /-- A collective's chunk sizes and its member table as they stood at the start (R371, R373, R375). -/
  sizes : List Nat
  table : List (BitVec 64 × BitVec 64)
  deriving DecidableEq, Repr

/-- The matrix engine's own state (R118, R129, R136, R139). -/
structure Matrix where
  /-- Accumulators keyed ((strip*2+bank)*16+row)*64+col; unlisted ones are zeroed. -/
  accs : SMap Acc
  /-- Failed strips (R136). -/
  failed : List Nat
  /-- Shape of the last MMA of each strip, or none before the first (R125, R139). -/
  lastShape : SMap Nat
  /-- By strip, the mask of the strips that have shared a unit with it since the accumulators were last zeroed (R136). -/
  units : SMap Nat
  deriving DecidableEq, Repr

/-- An awl run on a core (R495 to R497): the kernel under way, if one is, the kernel that the slew limiter holds back (R411), the
kernels after it of a scheduled run, whether its partition declared the run, and, while the kernel runs for the second time,
the CRC that its first run gave. -/
structure AwlRun where
  kernel : Option Nat
  wait : Option Nat
  rest : List Nat
  declared : Bool
  first : Option Nat
  deriving DecidableEq, Repr

/-- A core as framed (R69 to R112). Its scratchpad is `spm`, with the blocks' check values and states in `blk`. -/
structure Core where
  phys : Nat
  /-- Whether a PROGRAM section of the last strap commit started it: its task set has not ended (R69, R71). -/
  taskSet : Bool
  /-- The PROGRAM section's envelope (R106). -/
  progEnv : List Nat
  /-- Entry offsets waiting for the first tick after Armed (R70). -/
  entries : List (Option Nat)
  threads : SMap Thread
  run : Option Nat
  halted : Bool
  /-- STOP_ALL waits for the descriptors in progress (R109). -/
  stopping : Bool
  queues : SMap (List Desc)
  active : List Act
  nextId : Nat
  matrix : Matrix
  spm : Mem
  blk : SMap Blk
  /-- Correction counts of rows since the tree commit, by bank * 512 + row (R201, R203). -/
  rowFix : SMap Nat
  /-- Core cycle counter at the strap commit that loaded the core (R83). -/
  cycBase : Nat
  /-- Core tacks listed as used in SYNC_USE (R279). -/
  tacksUsed : BitVec 32
  /-- The awl run that has taken the core. -/
  awl : Option AwlRun
  deriving DecidableEq, Repr

/-! ## LLS and HBM (chapters 07, 08) -/

/-- A resident line of a cache-mode slice (R211): its partition-relative HBM offset divided by 128. -/
structure Line where
  idx : Nat
  bytes : Mem
  dirty : Bool
  deriving DecidableEq, Repr

/-- An entry of the pending-block store (R237): HBM block of the region, check value, VALID. -/
structure PendBlk where
  idx : Nat
  check : BitVec 32
  valid : Bool
  deriving DecidableEq, Repr

/-- The slice of a partition on a die (R206 to R214, R237): scratch bytes, or lines with the most recent first and the
pending-block store with the oldest first. Mode and ways are fields of LLS_SLICE. -/
structure Slice where
  mem : Mem
  blk : SMap Blk
  lines : List Line
  pend : List PendBlk
  deriving DecidableEq, Repr

/-- Metadata of an HBM block (R232, R234): assembled check value, open and poison bit per transfer. -/
structure HBlk where
  check : BitVec 32
  opens : BitVec 64
  poison : BitVec 64
  deriving DecidableEq, Repr

/-- HBM contents, keyed (k*32+c)*2^31 + channel byte; block metadata keyed by that address divided by 4096; the next
scrub byte of each channel, the corrected symbols of each lane since training, and the corrections of the stitch. -/
structure Hbm where
  mem : Mem
  blk : SMap HBlk
  scrubAt : SMap Nat
  laneFix : SMap Nat
  stitchFix : SMap Nat
  /-- Channels that training left working, as a mask by stack (R230, R247). -/
  trained : SMap Nat
  /-- Marked lanes by channel (R249, standby). -/
  marks : SMap (List Nat)
  /-- The lanes that the spare data lanes of a channel serve, first spare first (R246, R248, standby). -/
  spares : SMap (List Nat)
  /-- The CA lane that the spare CA lane of a channel serves (R246, R248, standby). -/
  caSpare : SMap Nat
  /-- The channel whose lane a margining run is measuring, as stack * 32 + channel (R253). -/
  margin : Option Nat
  deriving DecidableEq, Repr

/-! ## Partitions (chapters 09, 12, 14) -/

/-- A cinch line as SYNC_USE lists it (R279). -/
structure CinchUse where
  line : Nat
  grid : Bool
  mask : BitVec 8
  cores : List Nat
  deriving DecidableEq, Repr

/-- The arrivals at a cinch line (R274, R275, R277): threads arrived by core * 8 + thread, whether this device released
locally, and the job's devices whose release message arrived. -/
structure CinchState where
  arrived : List Nat
  localDone : Bool
  notes : List Nat
  deriving DecidableEq, Repr

/-! ## Events (chapter 16) -/

/-- An event record before its seal (R489). -/
structure Rec where
  code : Nat
  block : Nat
  flags : Nat
  count : Nat
  uptime : BitVec 64
  bootId : BitVec 64
  stitch : BitVec 48
  part : Nat
  core : Option Nat
  phys : Nat
  detail : List Byte
  deriving DecidableEq, Repr

/-- The error path (R493): the intake, oldest first, and the five overflow entries by class. The ring, the captures and
the signatures are registers. -/
structure Err where
  intake : List Rec
  overflow : SMap Rec
  /-- Signature slots not yet delivered by PLDM (R507). -/
  undelivered : List Nat
  deriving DecidableEq, Repr

/-! ## Packets and the X-die (chapters 11, 12) -/

/-- A packet (R334): header fields and data. `node` fields are physical, `srcLnode` logical. -/
structure Pkt where
  op : Nat
  dstNode : Nat
  dstPart : Nat
  space : Nat
  offset : Nat
  srcNode : Nat
  srcLnode : Nat
  srcPart : Nat
  core : Nat
  thread : Nat
  tag : Nat
  flagged : Bool
  rx : Nat
  flagCount : Nat
  chk : Bool
  valid : Bool
  check : Nat
  route : Nat
  hops : Nat
  aux : Nat
  length : Nat
  data : List Byte
  deriving DecidableEq, Repr

/-- A packet waiting at the X-die: the port it came in by, its VC, the flits received of how many (R335, R470). -/
structure WaitPkt where
  port : Option Nat
  vc : Nat
  got : Nat
  total : Nat
  pkt : Pkt
  deriving DecidableEq, Repr

/-- A packet in an output queue: the port it came in by when it is forwarded, its entry in the multicast store, the flits
sent and ready of how many, and the seq of its first flit (R335, R346, R471). -/
structure OutPkt where
  src : Option Nat
  mid : Option Nat
  vc : Nat
  sent : Nat
  got : Nat
  total : Nat
  headSeq : Nat
  pkt : Pkt
  deriving DecidableEq, Repr

/-- What an unanswered packet, or a run of packets under one tag, serves (R353, R356). -/
inductive XferUse where
  /-- A far load or atomic of a thread: function code of R359 and rd. -/
  | far (core thread fn rd : Nat)
  /-- A far store or GTSETR of a thread, with its program counter. -/
  | farStore (core thread pc : Nat)
  /-- A far access of a thread that STOP_ALL has stopped. -/
  | gone
  /-- Bytes that a DMA descriptor reads, at a position of its visiting order. -/
  | dmaRead (core id pos : Nat)
  /-- Packets that a descriptor wrote. -/
  | dmaWrite (core id : Nat)
  /-- A block that the replay engine of a partition fetches (R502). -/
  | replay (p pos : Nat)
  deriving DecidableEq, Repr

/-- An entry of the X-die's table of unanswered packets, by tag. -/
structure Xfer where
  use : XferUse
  part : Nat
  node : Nat
  left : Nat
  /-- A NODE_UNREACHABLE answer has been counted (R351). -/
  unreach : Bool
  deriving DecidableEq, Repr

/-- An answer that has not left yet (R356): to whom, for what, as which partition; cause 0 for an acknowledgement. -/
structure PendAck where
  node : Nat
  part : Nat
  tag : Nat
  core : Nat
  thread : Nat
  space : Nat
  offset : Nat
  resp : Nat
  cause : Nat
  count : Nat
  deriving DecidableEq, Repr

/-! ## Fabric links (chapters 11, 13, 15) -/

/-- A sequenced flit kept for replay (R332): with the pair and number of the credits that it returned, which its copy returns
again (R462), and the partition of a response that the device itself sent in it (R347). -/
structure TxFlit where
  seq : Nat
  kind : Nat
  vc : Nat
  payload : List Byte
  cred : Nat × Nat
  own : Option Nat
  deriving DecidableEq, Repr

/-- A CTRL message (R400, R465): kind, line, lane, new line, value. -/
structure Ctrl where
  kind : Nat
  line : Nat
  lane : Nat
  newLine : Nat
  value : BitVec 64
  deriving DecidableEq, Repr

/-- A CTRL request without its answer, and how often it was sent (R400). -/
structure CtrlReq where
  msg : Ctrl
  sends : Nat
  deriving DecidableEq, Repr

/-- A resynchronisation (R466): pair, whether this end is the sender of the direction, epoch, the step reached, and the
differences that the audit found in FS and CI. `seq` is the flit that must have been accepted before the next step. -/
structure Resync where
  pair : Nat
  asSender : Bool
  epoch : Nat
  step : Nat
  seq : Nat
  dFs : Nat
  dCi : Nat
  deriving DecidableEq, Repr

/-- One fabric port's link layer: as sender nextSeq, unacknowledged flits (oldest first), how many of them are still to be
sent again, replays without progress, frame slot; as receiver the last accepted seq, whether a discarded flit is awaited,
whether a nak is to be sent, flits accepted since ack was last reported; the credit counters of R460 by pair, with the
buffers that hold flits in `occ`; CTRL messages to send, unanswered requests, the marker to send (without its totals), resynchronisations
running and waiting, epochs by pair * 2 + direction, stitches of recent credit faults, aborts awaiting their answer as
(VC, seq), replays in this stitch, flits sent and flits received since the last marker, the largest waiting count by VC, the most credits held by
pair since the port carries traffic (R328 to R343, R460 to R472). -/
structure Link where
  nextSeq : Nat
  unacked : List TxFlit
  resend : Nat
  replays : Nat
  slot : Nat
  mgmtTurn : Nat
  lastAcc : Nat
  gap : Bool
  nakDue : Bool
  sinceAck : Nat
  fs : SMap Nat
  cr : SMap Nat
  h : SMap Nat
  fr : SMap Nat
  ci : SMap Nat
  o : SMap Nat
  occ : SMap Nat
  ctrl : List Ctrl
  reqs : List CtrlReq
  marker : Option (List Byte)
  out : List OutPkt
  resyncs : List Resync
  waitSync : List Resync
  epochs : SMap Nat
  resyncCount : SMap Nat
  faultAt : List Nat
  aborts : List (Nat × Nat)
  replayNow : Nat
  sinceMarker : Nat
  rxSince : Nat
  peak : SMap Nat
  top : SMap Nat
  deriving DecidableEq, Repr

/-- A burnish of one line (R402): line, the lane it carries (15: none, the spare itself), the spare, the step reached,
failures of step 4. -/
structure Burn where
  line : Nat
  lane : Nat
  spare : Nat
  step : Nat
  fails : Nat
  deriving DecidableEq, Repr

/-- A wrong-wavelength recovery of a receive line (R406): line, lane (15: none), attempt, phase (0 the receive ring is
swept, 1 the partner sweeps, 2 tags are read, 3 the lane goes back at the next tick), whether the line's last valid tag
named another line. -/
structure Recover where
  line : Nat
  lane : Nat
  attempt : Nat
  phase : Nat
  wrong : Bool
  deriving DecidableEq, Repr

/-- A lane move that SWAP or LANE_MOVE has announced (R403): the direction, whether a recovery takes the lane off its line by
LANE_MOVE, the lane, its new line, and the index of the first flit that travels there. -/
structure LaneMove where
  rx : Bool
  off : Bool
  lane : Nat
  line : Nat
  at_ : Nat
  deriving DecidableEq, Repr

/-- The optics of a port beyond its registers: the training step (1 to 6 in Train), receive lines found good, the retired
receive lines the partner announced, TRAIN_DONE sent and received, echoes answered and the sum of their round trips, the
burnish of the transmit and the receive direction, transmit lines due for a burnish and those of R392, which go first,
the recoveries in progress, receive lines without a valid tag, transmit lines that the partner has moved a lane off and
those whose ring is swept for it, whether each direction runs on seven lines, whether a seek wait runs, the announced lane
moves, the partner's port as its TRAIN_HELLO named it, receive lines whose alarm asks for a burnish and those burnished since
one (R385 to R407). -/
structure Opt where
  trainStep : Nat
  lines : BitVec 9
  peerRetired : BitVec 9
  doneSent : Bool
  doneGot : Bool
  echoes : Nat
  echoSum : Nat
  txBurn : Option Burn
  rxBurn : Option Burn
  due : List Nat
  urgent : List Nat
  recovers : List Recover
  noTag : BitVec 9
  txOut : List Nat
  sweeps : List Nat
  txSeven : Bool
  rxSeven : Bool
  seekWait : Bool
  moves : List LaneMove
  peerPort : Option Nat
  asked : List Nat
  burnt : List Nat
  deriving DecidableEq, Repr

/-- The X-die: packets waiting, packets that wait for injection (node field logical, with VC and store entry), unanswered transfers by tag, the next tag, answers not
yet sent, the multicast store as (entry, copies left), the next store entry, the Valiant rotation by partition * 8 + VC,
table entries written under R348 and disabled ones (R457) by register word offset of the FAB block, links and optics by
port. -/
structure Fab where
  waiting : List WaitPkt
  inject : List (Pkt × Nat × Option Nat)
  xfers : SMap Xfer
  nextTag : Nat
  acks : List PendAck
  mstore : SMap Nat
  nextMid : Nat
  valiant : SMap Nat
  written : List Nat
  disabled : List Nat
  links : SMap Link
  opts : SMap Opt
  deriving DecidableEq, Repr

/-! ## Ethernet (chapters 13, 14) -/

/-- A packet to an encapsulation peer (R416, R417): sequence number, VC, whose frame it counts as (the source partition, 32
for the device's own traffic, R415), header and data bytes. -/
structure PeerPkt where
  seq : Nat
  vc : Nat
  src : Nat
  bytes : List Byte
  deriving DecidableEq, Repr

/-- An encapsulation peer (R416, R417, R420): as sender the next sequence number, the packets sent and not acknowledged, how many
of them, the last ones, are to be sent again, the packets not sent yet (their sequence numbers not given), and replays without
progress; as receiver the last accepted sequence number, whether a discarded packet is awaited, whether a nak is to be sent and
whether an acknowledgement is due. -/
structure Peer where
  lnode : Nat
  port : Nat
  ip : List Byte
  mac : List Byte
  nextSeq : Nat
  unacked : List PeerPkt
  resend : Nat
  wait : List PeerPkt
  replays : Nat
  lastRx : Nat
  gap : Bool
  nakDue : Bool
  ackDue : Bool
  down : Bool
  deriving DecidableEq, Repr

/-- The frame that a transmit queue has taken from its ring (R440): partition, queue, address of its ring entry, the entry once
it has been read, host reads outstanding, the frame's bytes by offset, whether the queue has been enabled anew since. -/
structure TxQ where
  part : Nat
  idx : Nat
  ring : Nat
  ent : Option Nat
  left : Nat
  chunks : SMap (List Byte)
  stale : Bool
  deriving DecidableEq, Repr

/-- Frames that a receive queue has been given (R441): the first one's ring entry is being read, at this address. `stale` as
for a transmit queue. -/
structure RxQ where
  part : Nat
  idx : Nat
  ring : Nat
  frames : List (List Byte)
  stale : Bool
  deriving DecidableEq, Repr

/-- The ETHERNET section as committed (R420), the peers, the queues as device queue numbers whose message is deferred
or whose gap runs (R442), the transmit and receive sides of the queues by device queue number, by port the queue whose frame is leaving, and by port whose turn was last (R415). -/
structure Eth where
  present : Bool
  udpPort : Nat
  ip : List Byte
  queuePort : List Nat
  partMac : List (List Byte)
  devMac : List Byte
  peers : List Peer
  gapRuns : List Nat
  deferred : List Nat
  tx : SMap TxQ
  rx : SMap RxQ
  sending : SMap Nat
  lastTurn : SMap Nat
  deriving DecidableEq, Repr

/-! ## The stitch (chapter 10) -/

/-- An input port of the stitch (R289): whether it is lost, and whether its markers name the standby master. -/
structure StitchIn where
  lost : Bool
  standby : Bool
  deriving DecidableEq, Repr

/-- Stitch state beyond its registers: inputs by preference once they have delivered a valid marker, the hops that the
device's markers carry, stitches spent in Holdover, ticks withheld by slip tokens as (partition, tick), VC0 messages
applied as (kind, job, origin, tick or count, line), partitions whose cores had all finished at the last deadline,
partitions whose hold a write has cleared and that no deadline has followed yet, partitions that have logged OVERRUN in this
stitch. -/
structure Stitch where
  inputs : SMap StitchIn
  hops : Nat
  holdTicks : Nat
  withheld : List (Nat × Nat)
  seen : List (Nat × Nat × Nat × Nat × Nat)
  finished : List Nat
  unhold : List Nat
  overran : List Nat
  deriving DecidableEq, Repr

/-! ## Power and temperature (chapter 17) -/

/-- Samples and histories: input power of the last millisecond and VIN of the last 10 us (latest first), the sums of the
stitch, the uptime of the last down or hold condition, the pool's bucket in 10^-5 nJ,
readings per sensor (latest first), domains at their critical limit at the last reading, domains at the throttle
limit, whether the two power conditions hold (R514, R523, R526, R531 to R535). -/
structure Pwr where
  pinHist : List Nat
  vinHist : List Nat
  vinMin : Nat
  vinMax : Nat
  pinSum : Nat
  pinMax : Nat
  samples : Nat
  quietNs : Nat
  poolBucket : Int
  temps : SMap (List Int)
  critOnce : List Nat
  overLimit : Bool
  overPeak : Bool
  awlNow : List Nat
  awlHist : List Nat
  awlAllow : Nat
  deriving DecidableEq, Repr

/-! ## The host port (chapter 14) -/

/-- What an outstanding upstream read serves (R432, R433). -/
inductive HostUse where
  /-- The image loader's current range (R37, R56). -/
  | loader
  /-- Bytes of a DMA descriptor: core, descriptor id, first position in its visiting order. -/
  | dma (core id pos : Nat)
  /-- Check-window entries of a DMA descriptor's blocks (R222). -/
  | dmaCheck (core id pos : Nat)
  /-- The ring entry of a transmit queue of a partition, part of its frame from an offset, the ring entry of a receive queue
  (R432, R440, R441). -/
  | txEntry (part idx : Nat)
  | txFrame (part idx off : Nat)
  | rxEntry (part idx : Nat)
  deriving DecidableEq, Repr

/-- An outstanding upstream read. -/
structure HostReq where
  fn : Nat
  addr : Nat
  len : Nat
  use : HostUse
  deriving DecidableEq, Repr

/-- The host port: link, its width and generation (0 while it is down), VF Enable, Bus Master Enable of each function, MSI-X table words that differ from their reset,
pending bits (function * 64 + vector), outstanding reads by tag and the next tag (R426, R429, R430, R432, R436). -/
structure HostPort where
  linkUp : Bool
  linkWidth : Nat
  linkGen : Nat
  vfEnable : Bool
  busMaster : BitVec 33
  msixTab : SMap (BitVec 64)
  msixPend : List Nat
  reqs : SMap HostReq
  nextTag : Nat
  deriving DecidableEq, Repr

/-! ## Clocks, pins, package (chapter 18) -/

/-- Supplies, resets, clock and test port. -/
structure Pkg where
  /-- The standby domain is powered (R552). -/
  standby : Bool
  /-- The main rails are good. -/
  rails : Bool
  perstHigh : Bool
  sysRstHigh : Bool
  /-- SAG_RESET or THERM_TRIP holds the device in reset. -/
  sagHold : Bool
  tripHold : Bool
  /-- Boot is running or done: the device is out of reset. -/
  booted : Bool
  bootDone : Bool
  /-- UPTIME_NS at t0 of the last boot (R555). -/
  bootNs : Nat
  /-- The reference is present (R550). -/
  refOk : Bool
  /-- UPTIME_NS (R308). -/
  uptime : BitVec 64
  /-- Core cycles since the reset (R83): 20 per reference edge. -/
  cycles : Nat
  /-- The JTAG instruction in force (R567). -/
  tapInstr : Nat
  /-- Retired physical cores (R204; standby). -/
  retired : List Nat
  /-- Remap tables by physical core * 256 + bank * 8 + entry (R205; standby). -/
  remap : SMap (BitVec 64)
  /-- Number of standby power-ups, which numbers the boot identifiers (R309). -/
  powerUps : Nat
  /-- The four 48-byte tree-key slots of the OTP (R31), as numbers, first byte lowest. -/
  keySlots : List Nat
  /-- The firmware key value of the OTP (R558). -/
  fwKey : Nat
  /-- The MCTP endpoint identifier, 0 until assigned (R450). -/
  eid : Nat
  /-- How far each SPDM transport's requester has come (by transport: 0 MCTP, 1 PF, 1 + n VF n): 1 after GET_VERSION, 2 after
  GET_CAPABILITIES, 3 after NEGOTIATE_ALGORITHMS (R447; assumption 13). -/
  spdm : SMap Nat
  /-- A firmware copy being written: copy and image (R560). -/
  fwUpdate : Option (Nat × List (BitVec 64))
  /-- A die-to-die or HBM loopback is running (R570). -/
  loopBusy : Bool
  /-- D2D links with retries in this stitch (R565). -/
  d2dRetries : List Nat
  deriving DecidableEq, Repr

/-- A granted partition: its grant record (48 words, R584), what its strap listed, and the state its registers do not
hold. PART_STATE, receive counters and the rest of its registers are in the register file. -/
structure Part where
  grant : List (BitVec 32)
  /-- Sequence of the last strap committed since the grant, if any (R34). -/
  lastSeq : Option Nat
  gtUsed : BitVec 1024
  gtSettable : BitVec 1024
  gtInit : BitVec 1024
  lines : List CinchUse
  /-- Bucket B_p in units of 10^-5 nJ (R523). -/
  bucket : Int
  /-- Busy strips of the preceding microseconds, the latest first, at most 100 (R409, R410). -/
  slewHist : List Nat
  /-- Strips, as 4 * core + strip, that an MMA has kept busy in this microsecond (R409). -/
  busyNow : List Nat
  /-- Strips that run ballast (R410). -/
  ballast : Nat
  /-- Flagged packets held until the packets before them have been written (R268, R269). -/
  held : List WaitPkt
  /-- First block of the replay region that the next fetch reads, as a byte offset (R502). -/
  replayNext : Nat
  /-- The event view: records by slot, oldest replaced (R492). -/
  view : SMap (List Byte)
  /-- The tick count at which the awl run that the partition declared ends (R497). -/
  awlEnd : Nat
  /-- Bytes and packets of the stitch that the path that writes packets has handled (R473). -/
  wrote : Nat × Nat
  /-- Bytes and packets of the stitch that the path that updates receive counters has handled (R473). -/
  counted : Nat × Nat
  deriving DecidableEq, Repr

/-- The whole block. -/
structure State where
  /-- Registers that differ from their reset word. -/
  regs : RegFile
  /-- Running counts behind the SNAP registers, latched at each tick (R7, R304). -/
  live : RegFile
  pkg : Pkg
  host : HostPort
  harn : Harn
  flash : Flash
  /-- Cores by logical ID (R9). -/
  cores : SMap Core
  /-- Granted partitions (R52). -/
  parts : SMap Part
  /-- The 1,024 grid tacks (R261). -/
  gtacks : BitVec 1024
  /-- Cinch lines with arrivals (R274). -/
  cinches : SMap CinchState
  /-- LLS slices by die * 32 + partition (R206). -/
  lls : SMap Slice
  hbm : Hbm
  fab : Fab
  eth : Eth
  stitch : Stitch
  pwr : Pwr
  err : Err
  /-- What the block sent, oldest first: the model's own log (assumption 8). -/
  out : List Output
  /-- Free values drawn so far: the model's own counter (assumption 9). -/
  freeCtr : Nat
  /-- The commands waiting, first in first out. -/
  pending : List Instr
  deriving DecidableEq, Repr

/-- The boot identifier of a standby power-up: never 0 (R309). -/
def bootIdOf (n : Nat) : BitVec 64 := if Config.bootId n = 0 then 1 else Config.bootId n

/-- The machine right after the reset of a first power-up (R551 to R554): standby power and main rails good, both reset pins
released, boot not started, no structure (R51). Registers stand at their reset words but for the boot identifier and the
cause of the reset (assumptions 1 and 7). The flash holds no tree image; the first copy of its slot control block is valid with
count 0, the second erased (assumption 64). -/
def State.reset : State :=
  { regs := [(.stchBootId, bootIdOf 0), (.devBoot, 65536#64)]
    live := []
    pkg := { standby := true, rails := true, perstHigh := true, sysRstHigh := true, sagHold := false, tripHold := false,
             booted := false, bootDone := false, bootNs := 0, refOk := true, uptime := 0, cycles := 0, tapInstr := 1,
             retired := [], remap := [], powerUps := 1, keySlots := [Config.fusedTreeKey, 0, 0, 0], fwKey := Config.fusedFwKey,
             eid := 0, spdm := [], fwUpdate := none, loopBusy := false, d2dRetries := [] }
    host := { linkUp := false, linkWidth := 0, linkGen := 0, vfEnable := false, busMaster := 0, msixTab := [], msixPend := [], reqs := [], nextTag := 0 }
    harn := { op := none, loader := Loader.idle, queue := [], startNs := 0, staging := [] }
    flash := { slotA := [], slotB := [], ctl0 := ⟨List.replicate 5 0xFFFFFFFF00000000#64, 0x748D013D#32⟩,
               ctl1 := ⟨List.replicate 5 0xFFFFFFFFFFFFFFFF#64, 0xFFFFFFFF#32⟩,
               fw0 := Config.bootFirmware 0, fw1 := Config.bootFirmware 1 }
    cores := []
    parts := []
    gtacks := 0
    cinches := []
    lls := []
    hbm := { mem := [], blk := [], scrubAt := [], laneFix := [], stitchFix := [], trained := [], marks := [], spares := [], caSpare := [], margin := none }
    fab := { waiting := [], inject := [], xfers := [], nextTag := 0, acks := [], mstore := [], nextMid := 0, valiant := [],
             written := [], disabled := [], links := [], opts := [] }
    eth := { present := false, udpPort := 0, ip := [], queuePort := [], partMac := [], devMac := [], peers := [], gapRuns := [],
             deferred := [], tx := [], rx := [], sending := [], lastTurn := [] }
    stitch := { inputs := [], hops := 0, holdTicks := 0, withheld := [], seen := [], finished := [], unhold := [], overran := [] }
    pwr := { pinHist := [], vinHist := [], vinMin := 0, vinMax := 0, pinSum := 0, pinMax := 0, samples := 0, quietNs := 0,
             poolBucket := 0, temps := [], critOnce := [], overLimit := false, overPeak := false, awlNow := [], awlHist := [], awlAllow := 0 }
    err := { intake := [], overflow := [], undelivered := [] }
    out := []
    freeCtr := 0
    pending := [] }

end Sys2Proof.Machine
end

