-- ==== Sys2Proof/Machine/Ops.lean ====
section
/-! DEFINITION. The named operations over sparse tables, memories, bit fields and registers that every meaning uses,
and `commit`, through which every meaning answers. -/
namespace Sys2Proof.Machine

/-! ## Sparse tables -/

/-- The entry of a table, if listed. -/
def mfind {α : Type} : SMap α → Nat → Option α
  | [], _ => none
  | (k', v) :: r, k => if k' = k then some v else mfind r k

/-- The entry of a table, or the value of an unlisted one. -/
def mget {α : Type} (m : SMap α) (k : Nat) (d : α) : α := (mfind m k).getD d

/-- Put an entry, keeping the indices rising. -/
def mset {α : Type} : SMap α → Nat → α → SMap α
  | [], k, v => [(k, v)]
  | (k', v') :: r, k, v =>
    if k' = k then (k, v) :: r
    else if k < k' then (k, v) :: (k', v') :: r
    else (k', v') :: mset r k v

/-- Remove an entry. -/
def mdel {α : Type} (m : SMap α) (k : Nat) : SMap α := m.filter (fun p => p.1 != k)

/-- Change a listed entry. -/
def mmod {α : Type} (m : SMap α) (k : Nat) (f : α → α) : SMap α :=
  match mfind m k with
  | none => m
  | some v => mset m k (f v)

/-! ## Memories -/

/-- The byte at an address; an unlisted address reads 0 (assumption 6). -/
def memGet (m : Mem) (a : Nat) : Byte := mget m a 0

/-- The listed cells of a run of bytes at `a`: the bytes that are not zero. -/
def memCells : Nat → List Byte → Mem
  | _, [] => []
  | a, b :: r => if b = 0 then memCells (a + 1) r else (a, b) :: memCells (a + 1) r

/-- Store a run of bytes at `a`. -/
def memWrite (m : Mem) (a : Nat) (bs : List Byte) : Mem :=
  m.filter (fun p => p.1 < a) ++ memCells a bs ++ m.filter (fun p => a + bs.length ≤ p.1)

/-- Zero `n` bytes at `a`. -/
def memZero (m : Mem) (a n : Nat) : Mem := m.filter (fun p => p.1 < a ∨ a + n ≤ p.1)

/-- Read `n` bytes at `a`. -/
def memRead (m : Mem) (a n : Nat) : List Byte :=
  let sub := m.filter (fun p => a ≤ p.1 ∧ p.1 < a + n)
  (List.range n).map (fun i => memGet sub (a + i))

/-- Addresses strictly rise and no cell holds zero. -/
def memWfFrom : Option Nat → Mem → Bool
  | _, [] => true
  | lo, (a, b) :: r => (match lo with
    | none => true
    | some x => x < a) && b != 0 && memWfFrom (some a) r

/-- The canonical form of a memory. -/
def Memory.wf (m : Mem) : Bool := memWfFrom none m

/-- The little-endian number of a run of bytes. -/
def leNat : List Byte → Nat
  | [] => 0
  | b :: r => b.toNat + 256 * leNat r

/-- The `n` little-endian bytes of a number. -/
def leBytes : Nat → Nat → List Byte
  | 0, _ => []
  | n + 1, v => BitVec.ofNat 8 v :: leBytes n (v / 256)

/-- Read a little-endian number of `n` bytes. -/
def memNat (m : Mem) (a n : Nat) : Nat := leNat (memRead m a n)

/-! ## Bits -/

/-- Bits [lo + w - 1 : lo] of a number. -/
def bitsOf (v lo w : Nat) : Nat := v / 2 ^ lo % 2 ^ w

/-- Bits of a 64-bit word. -/
def wbits (v : BitVec 64) (lo w : Nat) : Nat := bitsOf v.toNat lo w

/-- Bit `i` of a number. -/
def bitAt (v i : Nat) : Bool := v / 2 ^ i % 2 = 1

/-- A list without repeats, keeping first places. -/
def uniq : List Nat → List Nat
  | [] => []
  | x :: r => x :: (uniq r).filter (· != x)

/-- A flag as a number. -/
def b2n (b : Bool) : Nat := if b then 1 else 0

/-- The signed reading of `w` bits. -/
def signed (w v : Nat) : Int := if v % 2 ^ w ≥ 2 ^ (w - 1) then (v % 2 ^ w : Nat) - (2 ^ w : Nat) else (v % 2 ^ w : Nat)

/-- The `w`-bit two's-complement code of an integer. -/
def unsigned (w : Nat) (x : Int) : Nat := (Int.emod x (2 ^ w : Nat)).toNat

/-- The value of a field in a word. -/
def Fld.get (f : Fld) (v : BitVec 64) : Nat := wbits v f.lo f.width

/-- A word with a field replaced. -/
def Fld.put (f : Fld) (v : BitVec 64) (x : Nat) : BitVec 64 :=
  BitVec.ofNat 64 (v.toNat - f.get v * 2 ^ f.lo + x % 2 ^ f.width * 2 ^ f.lo)

/-- The bits that a field covers. -/
def Fld.mask (f : Fld) : BitVec 64 := BitVec.ofNat 64 ((2 ^ f.width - 1) * 2 ^ f.lo)

/-- Both halves of a grain/flesh pair of a 32-bit value (R23). -/
def gfPair (w : Nat) : BitVec 64 := BitVec.ofNat 64 (w % 2 ^ 32 + (2 ^ 32 - 1 - w % 2 ^ 32) * 2 ^ 32)

/-- The pair that a GF register holds after an accepted write of `v`: reserved bits of the grain stay 0 (R6, R7). -/
def gfMasked (v : BitVec 64) (mask : Nat) : BitVec 64 := gfPair (v.toNat % 2 ^ 32 &&& mask)

/-- Whether the flesh of a pair is the complement of its grain (R7, R23). -/
def gfOk (v : BitVec 64) : Bool := v.toNat % 2 ^ 32 + v.toNat / 2 ^ 32 = 2 ^ 32 - 1

/-- The grain of a pair. -/
def grain (v : BitVec 64) : Nat := v.toNat % 2 ^ 32

/-! ## Registers -/

/-- The stored word of a register. -/
def regGet : RegFile → Reg → BitVec 64
  | [], r => r.resetWord
  | (r', v) :: t, r => if r' = r then v else regGet t r

/-- Store a register word; a register at its reset word is not listed. -/
def regSet (f : RegFile) (r : Reg) (v : BitVec 64) : RegFile :=
  if v = r.resetWord then f.filter (fun p => p.1 ≠ r) else (r, v) :: f.filter (fun p => p.1 ≠ r)

/-- The stored word of a register (a computed view is not stored: see Regs). -/
def State.reg (s : State) (r : Reg) : BitVec 64 := regGet s.regs r
/-- Store a register. -/
def State.setReg (s : State) (r : Reg) (v : BitVec 64) : State := { s with regs := regSet s.regs r v }
/-- A field of a stored register. -/
def State.fld (s : State) (r : Reg) (f : Fld) : Nat := f.get (s.reg r)
/-- Store a field. -/
def State.setFld (s : State) (r : Reg) (f : Fld) (x : Nat) : State := s.setReg r (f.put (s.reg r) x)
/-- Add to a saturating field. -/
def State.satFld (s : State) (r : Reg) (f : Fld) (n : Nat) : State :=
  s.setFld r f (min (2 ^ f.width - 1) (s.fld r f + n))
/-- Add to a wrapping field. -/
def State.wrapFld (s : State) (r : Reg) (f : Fld) (n : Nat) : State := s.setFld r f (s.fld r f + n)
/-- Add to a running count behind a SNAP register; it wraps at the field's width. -/
def State.liveAdd (s : State) (r : Reg) (f : Fld) (n : Nat) : State :=
  { s with live := regSet s.live r (f.put (regGet s.live r) (f.get (regGet s.live r) + n)) }
/-- Forget every stored register that a condition names: it reads its reset word again (R581). -/
def State.resetRegs (s : State) (q : Reg → Bool) : State := { s with regs := s.regs.filter (fun p => !q p.1) }

/-- A sent item joins the log (assumption 8). -/
def State.emit (s : State) (o : Output) : State := { s with out := s.out ++ [o] }

/-- Draw a fresh open word (assumption 9). -/
def State.drawWord (s : State) : BitVec 64 × State := (Config.freeWord s.freeCtr, { s with freeCtr := s.freeCtr + 1 })

/-- Change a core. -/
def State.modCore (s : State) (c : Nat) (f : Core → Core) : State := { s with cores := mmod s.cores c f }
/-- Change a partition. -/
def State.modPart (s : State) (p : Nat) (f : Part → Part) : State := { s with parts := mmod s.parts p f }

/-! ## Device and partition facts -/

/-- HARN_STATE.dev_state: 0 Bare, 1 Framed, 2 Armed, 3 Fenced (R51). -/
def State.devState (s : State) : Nat := s.fld .harnState HarnState.devState
/-- PART_STATE.state: 0 no grant, 1 Framed, 2 Armed, 3 Fenced (R52). -/
def State.partState (s : State) (p : Nat) : Nat := s.fld (.partState p) PartState.state
/-- STCH_COUNT. -/
def State.count (s : State) : Nat := s.fld .stchCount StchCount.count
/-- A word of a partition's grant record (R584). -/
def State.grantWord (s : State) (p i : Nat) : Nat :=
  match mfind s.parts p with
  | none => 0
  | some q => (q.grant.getD i 0).toNat
/-- Whether a logical core is in a partition's grant. -/
def State.granted (s : State) (p c : Nat) : Bool := c < 512 ∧ bitAt (s.grantWord p (1 + c / 32)) (c % 32)
/-- The partition that owns a core, if any. -/
def State.ownerOf (s : State) (c : Nat) : Option Nat := (s.parts.map Prod.fst).find? (fun p => s.granted p c)
/-- The granted partition numbers, ascending. -/
def State.partNums (s : State) : List Nat := s.parts.map Prod.fst
/-- The logical cores of a partition that exist, ascending. -/
def State.coresOf (s : State) (p : Nat) : List Nat := (s.cores.map Prod.fst).filter (s.granted p)
/-- A read through the PF reaches a device that is out of reset. -/
def State.pfRead (s : State) (eff : State) : State := if s.pkg.booted then eff else s
/-- A register write through the PF reaches a device that is out of reset and not Fenced: Fenced leaves PF reads and management
only (R51, assumption 56). -/
def State.pfWrite (s : State) (eff : State) : State := if s.pkg.booted && s.devState ≠ 3 then eff else s
/-- A register write through the VF of a partition reaches its block when the partition is granted and VF Enable is set (R428),
and the device is not Fenced (R51, assumption 56). -/
def State.vfWrite (s : State) (p : Nat) (eff : State) : State :=
  match mfind s.parts p with
  | none => s
  | some _ => if s.host.vfEnable && s.devState ≠ 3 then eff else s

/-- The die of a physical core (R10). -/
def dieOf (phys : Nat) : Nat := phys / 132

/-- Answer a command from state `s`: its effect `t` when its operands name units of the package, a fault when they do not. The
queue of waiting commands is no command's to change: it stays as `s` holds it. -/
def commit (s : State) (ok : Bool) (t : State) : Host.Outcome State Fault Refusal :=
  if ok then .next { t with pending := s.pending } else .fault .noSuchUnit

end Sys2Proof.Machine
end

