-- ==== Sys2Proof/Machine/Crypto.lean ====
section
/-! DEFINITION. The digests, checks and signature scheme that the spec names by their standards: SHA-256 and SHA-384
(R43, R103), ECDSA P-384 (R29, R31), CRC-32C (R215), CRC-64 (R330) and the FCS-free helpers. The algorithms are those of
FIPS 180-4, FIPS 186 and SP 800-186 (assumption 12). -/
namespace Sys2Proof.Machine

/-! ## SHA-2 -/

/-- Round constants of SHA-384. -/
def k512 : List Nat :=
  [0x428A2F98D728AE22, 0x7137449123EF65CD, 0xB5C0FBCFEC4D3B2F, 0xE9B5DBA58189DBBC,
   0x3956C25BF348B538, 0x59F111F1B605D019, 0x923F82A4AF194F9B, 0xAB1C5ED5DA6D8118,
   0xD807AA98A3030242, 0x12835B0145706FBE, 0x243185BE4EE4B28C, 0x550C7DC3D5FFB4E2,
   0x72BE5D74F27B896F, 0x80DEB1FE3B1696B1, 0x9BDC06A725C71235, 0xC19BF174CF692694] ++
  [0xE49B69C19EF14AD2, 0xEFBE4786384F25E3, 0x0FC19DC68B8CD5B5, 0x240CA1CC77AC9C65,
   0x2DE92C6F592B0275, 0x4A7484AA6EA6E483, 0x5CB0A9DCBD41FBD4, 0x76F988DA831153B5,
   0x983E5152EE66DFAB, 0xA831C66D2DB43210, 0xB00327C898FB213F, 0xBF597FC7BEEF0EE4,
   0xC6E00BF33DA88FC2, 0xD5A79147930AA725, 0x06CA6351E003826F, 0x142929670A0E6E70] ++
  [0x27B70A8546D22FFC, 0x2E1B21385C26C926, 0x4D2C6DFC5AC42AED, 0x53380D139D95B3DF,
   0x650A73548BAF63DE, 0x766A0ABB3C77B2A8, 0x81C2C92E47EDAEE6, 0x92722C851482353B,
   0xA2BFE8A14CF10364, 0xA81A664BBC423001, 0xC24B8B70D0F89791, 0xC76C51A30654BE30,
   0xD192E819D6EF5218, 0xD69906245565A910, 0xF40E35855771202A, 0x106AA07032BBD1B8] ++
  [0x19A4C116B8D2D0C8, 0x1E376C085141AB53, 0x2748774CDF8EEB99, 0x34B0BCB5E19B48A8,
   0x391C0CB3C5C95A63, 0x4ED8AA4AE3418ACB, 0x5B9CCA4F7763E373, 0x682E6FF3D6B2B8A3,
   0x748F82EE5DEFB2FC, 0x78A5636F43172F60, 0x84C87814A1F0AB72, 0x8CC702081A6439EC,
   0x90BEFFFA23631E28, 0xA4506CEBDE82BDE9, 0xBEF9A3F7B2C67915, 0xC67178F2E372532B] ++
  [0xCA273ECEEA26619C, 0xD186B8C721C0C207, 0xEADA7DD6CDE0EB1E, 0xF57D4F7FEE6ED178,
   0x06F067AA72176FBA, 0x0A637DC5A2C898A6, 0x113F9804BEF90DAE, 0x1B710B35131C471B,
   0x28DB77F523047D84, 0x32CAAB7B40C72493, 0x3C9EBE0A15C9BEBC, 0x431D67C49C100D4C,
   0x4CC5D4BECB3E42B6, 0x597F299CFC657E2A, 0x5FCB6FAB3AD6FAEC, 0x6C44198C4A475817]

/-- Round constants of SHA-256. -/
def k256 : List Nat :=
  [0x428A2F98, 0x71374491, 0xB5C0FBCF, 0xE9B5DBA5,
   0x3956C25B, 0x59F111F1, 0x923F82A4, 0xAB1C5ED5,
   0xD807AA98, 0x12835B01, 0x243185BE, 0x550C7DC3,
   0x72BE5D74, 0x80DEB1FE, 0x9BDC06A7, 0xC19BF174] ++
  [0xE49B69C1, 0xEFBE4786, 0x0FC19DC6, 0x240CA1CC,
   0x2DE92C6F, 0x4A7484AA, 0x5CB0A9DC, 0x76F988DA,
   0x983E5152, 0xA831C66D, 0xB00327C8, 0xBF597FC7,
   0xC6E00BF3, 0xD5A79147, 0x06CA6351, 0x14292967] ++
  [0x27B70A85, 0x2E1B2138, 0x4D2C6DFC, 0x53380D13,
   0x650A7354, 0x766A0ABB, 0x81C2C92E, 0x92722C85,
   0xA2BFE8A1, 0xA81A664B, 0xC24B8B70, 0xC76C51A3,
   0xD192E819, 0xD6990624, 0xF40E3585, 0x106AA070] ++
  [0x19A4C116, 0x1E376C08, 0x2748774C, 0x34B0BCB5,
   0x391C0CB3, 0x4ED8AA4A, 0x5B9CCA4F, 0x682E6FF3,
   0x748F82EE, 0x78A5636F, 0x84C87814, 0x8CC70208,
   0x90BEFFFA, 0xA4506CEB, 0xBEF9A3F7, 0xC67178F2]

/-- Initial words of SHA-384. -/
def h384 : List Nat :=
  [0xCBBB9D5DC1059ED8, 0x629A292A367CD507, 0x9159015A3070DD17, 0x152FECD8F70E5939,
   0x67332667FFC00B31, 0x8EB44A8768581511, 0xDB0C2E0D64F98FA7, 0x47B5481DBEFA4FA4]

/-- Initial words of SHA-256. -/
def h256 : List Nat :=
  [0x6A09E667, 0xBB67AE85, 0x3C6EF372, 0xA54FF53A,
   0x510E527F, 0x9B05688C, 0x1F83D9AB, 0x5BE0CD19]

/-- Rotate a `w`-bit word right. -/
def rotr (w k x : Nat) : Nat := x / 2 ^ k + x % 2 ^ k * 2 ^ (w - k)

/-- The rotation amounts of a SHA-2 variant: word bits, two message functions (third amount a shift) and two round
functions. -/
structure ShaPar where
  w : Nat
  s0 : Nat × Nat × Nat
  s1 : Nat × Nat × Nat
  b0 : Nat × Nat × Nat
  b1 : Nat × Nat × Nat

/-- SHA-384's amounts. -/
def par512 : ShaPar := ⟨64, (1, 8, 7), (19, 61, 6), (28, 34, 39), (14, 18, 41)⟩
/-- SHA-256's amounts. -/
def par256 : ShaPar := ⟨32, (7, 18, 3), (17, 19, 10), (2, 13, 22), (6, 11, 25)⟩

/-- Two rotations and a shift, exclusive-ored. -/
def shaSmall (w : Nat) (r : Nat × Nat × Nat) (x : Nat) : Nat := rotr w r.1 x ^^^ rotr w r.2.1 x ^^^ x / 2 ^ r.2.2
/-- Three rotations, exclusive-ored. -/
def shaBig (w : Nat) (r : Nat × Nat × Nat) (x : Nat) : Nat := rotr w r.1 x ^^^ rotr w r.2.1 x ^^^ rotr w r.2.2 x

/-- The message schedule, last word first, extended by `n` words. -/
def shaSchedule (p : ShaPar) : Nat → List Nat → List Nat
  | 0, l => l
  | n + 1, l =>
    let x := (shaSmall p.w p.s1 (l.getD 1 0) + l.getD 6 0 + shaSmall p.w p.s0 (l.getD 14 0) + l.getD 15 0) % 2 ^ p.w
    shaSchedule p n (x :: l)

/-- The rounds over schedule and constants. -/
def shaRounds (p : ShaPar) : List (Nat × Nat) → List Nat → List Nat
  | (x, k) :: r, [a, b, c, d, e, f, g, h] =>
    let m := 2 ^ p.w
    let t1 := h + shaBig p.w p.b1 e + ((e &&& f) ^^^ ((m - 1 - e) &&& g)) + k + x
    let t2 := shaBig p.w p.b0 a + ((a &&& b) ^^^ (a &&& c) ^^^ (b &&& c))
    shaRounds p r [(t1 + t2) % m, a, b, c, (d + t1) % m, e, f, g]
  | _, st => st

/-- Big-endian number of bytes. -/
def beNat (bs : List Byte) : Nat := bs.foldl (fun a b => a * 256 + b.toNat) 0
/-- The `n` big-endian bytes of a number. -/
def beBytes (n v : Nat) : List Byte := (leBytes n v).reverse

/-- Words of `k` bytes, big-endian. -/
def beWords (k : Nat) : Nat → List Byte → List Nat
  | 0, _ => []
  | n + 1, bs => beNat (bs.take k) :: beWords k n (bs.drop k)

/-- The compression function over `n` blocks. -/
def shaBlocks (p : ShaPar) (ks : List Nat) : Nat → List Byte → List Nat → List Nat
  | 0, _, h => h
  | n + 1, bs, h =>
    let k := p.w / 8
    let w := (shaSchedule p (ks.length - 16) (beWords k 16 (bs.take (16 * k))).reverse).reverse
    let r := shaRounds p (w.zip ks) h
    shaBlocks p ks n (bs.drop (16 * k)) (List.zipWith (fun a b => (a + b) % 2 ^ p.w) h r)

/-- Padding: a one bit, zeros, and the bit length in two words, up to a whole block. -/
def shaPad (p : ShaPar) (bs : List Byte) : List Byte :=
  let blk := 2 * p.w
  let lenB := p.w / 4
  let z := (2 * blk - 1 - lenB - bs.length % blk) % blk
  bs ++ [0x80] ++ List.replicate z 0 ++ beBytes lenB (8 * bs.length)

/-- SHA-384 of a byte string. -/
def sha384 (bs : List Byte) : List Byte :=
  let m := shaPad par512 bs
  (shaBlocks par512 k512 (m.length / 128) m h384).flatMap (beBytes 8) |>.take 48

/-- SHA-256 of a byte string. -/
def sha256 (bs : List Byte) : List Byte :=
  let m := shaPad par256 bs
  (shaBlocks par256 k256 (m.length / 64) m h256).flatMap (beBytes 4)

/-! ## Cyclic redundancy checks -/

/-- One bit of a reflected CRC. -/
def crcBit (poly x : Nat) : Nat := if x % 2 = 1 then x / 2 ^^^ poly else x / 2

/-- One byte of a reflected CRC. -/
def crcByte (poly x : Nat) (b : Byte) : Nat :=
  let y := x ^^^ b.toNat
  crcBit poly (crcBit poly (crcBit poly (crcBit poly (crcBit poly (crcBit poly (crcBit poly (crcBit poly y)))))))

/-- CRC-32C (R215): 0x1EDC6F41 reflected, initial value and final exclusive-or all ones. -/
def crc32c (bs : List Byte) : Nat := bs.foldl (crcByte 0x82F63B78) 0xFFFFFFFF ^^^ 0xFFFFFFFF

/-- The check value of 4,096 zero bytes (R216). -/
def zeroBlockCheck : BitVec 32 := 0x98F94189#32

/-! ## ECDSA P-384 -/

/-- The field prime of P-384. -/
def p384 : Nat := 2 ^ 384 - 2 ^ 128 - 2 ^ 96 + 2 ^ 32 - 1
/-- The group order of P-384. -/
def n384 : Nat := 0xFFFFFFFFFFFFFFFFFFFFFFFFFFFFFFFFFFFFFFFFFFFFFFFFC7634D81F4372DDF581A0DB248B0A77AECEC196ACCC52973
/-- The coefficient b of P-384. -/
def b384 : Nat := 0xB3312FA7E23EE7E4988E056BE3F82D19181D9C6EFE8141120314088F5013875AC656398D8A2ED19D2A85C8EDD3EC2AEF
/-- The base point of P-384. -/
def g384 : Nat × Nat :=
  (0xAA87CA22BE8B05378EB1C71EF320AD746E1D3B628BA79B9859F741E082542A385502F25DBF55296C3A545E3872760AB7,
   0x3617DE4A96262C6F5D9E98BF9292DC29F8F41DBD289A147CE9DA3113B5F0B8C00A60B1CE1D7E819D7A431D7C90EA0E5F)

/-- Modular power by the low `fuel` bits of the exponent. -/
def powMod (m : Nat) : Nat → Nat → Nat → Nat → Nat
  | 0, _, _, acc => acc
  | k + 1, b, e, acc => powMod m k (b * b % m) (e / 2) (if e % 2 = 1 then acc * b % m else acc)

/-- Inverse modulo a prime. -/
def invMod (m x : Nat) : Nat := powMod m 384 (x % m) (m - 2) 1

/-- Doubling in Jacobian coordinates (a = -3); z = 0 is the point at infinity. -/
def jDouble (q : Nat × Nat × Nat) : Nat × Nat × Nat :=
  let (x, y, z) := q
  let p := p384
  let d := z * z % p
  let g := y * y % p
  let b := x * g % p
  let a := 3 * ((x + p - d) % p) % p * ((x + d) % p) % p
  let x3 := (a * a + 8 * p - 8 * b) % p
  (x3, (a * ((4 * b + p - x3) % p) + 8 * p - 8 * (g * g % p)) % p, 2 * y * z % p)

/-- Addition in Jacobian coordinates. -/
def jAdd (q r : Nat × Nat × Nat) : Nat × Nat × Nat :=
  let p := p384
  if q.2.2 % p = 0 then r else if r.2.2 % p = 0 then q else
  let (x1, y1, z1) := q
  let (x2, y2, z2) := r
  let z1s := z1 * z1 % p
  let z2s := z2 * z2 % p
  let u1 := x1 * z2s % p
  let u2 := x2 * z1s % p
  let s1 := y1 * z2 % p * z2s % p
  let s2 := y2 * z1 % p * z1s % p
  if u1 = u2 then (if s1 = s2 then jDouble q else (1, 1, 0))
  else
    let h := (u2 + p - u1) % p
    let t := (s2 + p - s1) % p
    let h2 := h * h % p
    let h3 := h2 * h % p
    let v := u1 * h2 % p
    let x3 := (t * t + 3 * p - h3 - 2 * v) % p
    (x3, (t * ((v + p - x3) % p) + p - s1 * h3 % p) % p, h * z1 % p * z2 % p)

/-- Scalar multiplication by the low `fuel` bits. -/
def jMul : Nat → Nat → Nat × Nat × Nat → Nat × Nat × Nat → Nat × Nat × Nat
  | 0, _, _, acc => acc
  | k + 1, e, q, acc => jMul k (e / 2) (jDouble q) (if e % 2 = 1 then jAdd acc q else acc)

/-- Whether (r, s) is a signature of the digest `h` by the key (x, y) on the curve (R31). -/
def ecdsaVerify (x y r s h : Nat) : Bool :=
  let p := p384
  if x < p ∧ y < p ∧ y * y % p = (x * x % p * x + (p - 3) * x + b384) % p ∧ 0 < r ∧ r < n384 ∧ 0 < s ∧ s < n384 then
    let w := invMod n384 s
    let q := jAdd (jMul 384 (h * w % n384) (g384.1, g384.2, 1) (1, 1, 0)) (jMul 384 (r * w % n384) (x, y, 1) (1, 1, 0))
    if q.2.2 % p = 0 then false
    else
      let zi := invMod p q.2.2
      q.1 * (zi * zi % p) % p % n384 = r
  else false

end Sys2Proof.Machine
end

