-- ==== Sys2Proof/Machine/Events.lean ====
section
/-! DEFINITION. Interrupts (R435, R436), events with capture, intake and signatures (R480 to R489, R493, R506, R507,
R583, R585), the end of a Harness operation (R67, R68), stopping a core (R109) and the class actions that fence a
partition or the device (R51, R52, R54, R66, R480). -/
namespace Sys2Proof.Machine

/-! ## Interrupts -/

/-- Index of the second 8-byte word of MSI-X table entry `vec` of function `fn`: data and vector control. -/
def msixKey (fn vec : Nat) : Nat := fn * 128 + 2 * vec + 1

/-- Whether the vector is masked: vector control bit 0; entries are masked after reset (assumption 15). -/
def State.msixMasked (s : State) (fn vec : Nat) : Bool := wbits (mget s.host.msixTab (msixKey fn vec) (BitVec.ofNat 64 (2 ^ 32))) 32 1 = 1

/-- Send a message, or hold it pending while its vector is masked (R436). -/
def State.sendMsix (s : State) (fn vec : Nat) : State :=
  if s.msixMasked fn vec then
    { s with host := { s.host with msixPend := (fn * 64 + vec) :: s.host.msixPend.filter (· != fn * 64 + vec) } }
  else s.emit (.msix fn vec)

/-- A cause sets its status bit, and its message is sent when the bit goes from 0 to 1 (R436). -/
def State.raiseIrq (s : State) (r : Reg) (f : Fld) (fn vec : Nat) : State :=
  if s.fld r f = 1 then s else (s.setFld r f 1).sendMsix fn vec

/-- A cause of VF vector 0 to 2 of partition `p`. -/
def State.partIrq (s : State) (p : Nat) (f : Fld) : State := s.raiseIrq (.partIrqStat p) f (p + 1) f.lo
/-- A cause of PF vector 0 to 2. -/
def State.devIrq (s : State) (f : Fld) : State := s.raiseIrq .devIrqStat f 0 f.lo
/-- A cause of PF vector 3. -/
def State.pwrIrq (s : State) (f : Fld) : State := s.raiseIrq .pwrIrqStat f 0 3

/-- Change PART_STATE.state, with VF vector 2 on a change (R435) and the Armed bitmap of HARN_STATE (R68). -/
def State.setPartState (s : State) (p st : Nat) : State :=
  if s.partState p = st then s
  else
    let armed := s.fld .harnState HarnState.armed
    let armed' := armed - b2n (bitAt armed p) * 2 ^ p + b2n (st = 2) * 2 ^ p
    ((s.setFld (.partState p) PartState.state st).setFld .harnState HarnState.armed armed').partIrq p PartIrqStat.state

/-- Change HARN_STATE.dev_state, with PF vector 2 and VF vector 2 of every granted partition (R435). -/
def State.setDevState (s : State) (st : Nat) : State :=
  if s.devState = st then s
  else s.partNums.foldl (fun t p => t.partIrq p PartIrqStat.state)
    ((s.setFld .harnState HarnState.devState st).devIrq DevIrqStat.state)

/-! ## Events -/

/-- An event as raised: code, partition, core, the die, stack or block its place needs (R583), detail bytes 36 on,
the where map of its signature. -/
structure Ev where
  code : Nat
  part : Option Nat := none
  core : Option Nat := none
  unit : Nat := 0
  detail : List Byte := []
  whr : List (Nat × Nat) := []

/-- Little-endian detail bytes from (width, value) fields in order. -/
def det (l : List (Nat × Nat)) : List Byte := l.flatMap (fun (w, v) => leBytes w v)

/-- The rank of a code: 1 to 3 for Contained, Partition-fatal and Device-fatal, else 0 (R480). -/
def codeRank (code : Nat) : Nat := if code / 4096 ≤ 3 then code / 4096 else 0

/-- The physical index of a core, or 0xFFFF. -/
def State.physOf (s : State) (c : Option Nat) : Nat :=
  match c with
  | none => 0xFFFF
  | some n => match mfind s.cores n with
    | none => 0xFFFF
    | some k => k.phys

/-- The reporting block of an event (R583): `unit` is the die, the stack, or for package events the block itself. -/
def State.evBlock (s : State) (e : Ev) : Nat :=
  let src := e.code / 256 % 16
  let die := match e.core with
    | none => e.unit
    | some _ => dieOf (s.physOf e.core)
  if src = 1 ∨ src = 3 ∨ src = 4 then die
  else if src = 2 then 15 else if src = 5 then 4 + e.unit
  else if src = 6 then (if e.core = none then 16 else die)
  else if src = 7 then 14 else if src = 8 then 12 else if src = 9 then 13 else if src = 10 then 16
  else if src = 11 then 18
  else if src = 12 then (if e.code = 0x1C10 then die else if e.code = 0x1C30 ∨ e.code = 0x2C20 then 16 else 19)
  else if src = 13 then 17 else e.unit

/-- Pad or cut a byte string to `n` bytes. -/
def padTo (n : Nat) (bs : List Byte) : List Byte := (bs ++ List.replicate n 0).take n

/-- The record of an event by itself (R489). -/
def State.mkRec (s : State) (e : Ev) : Rec :=
  ⟨e.code, s.evBlock e, 0, 1, s.pkg.uptime, s.reg .stchBootId, BitVec.ofNat 48 s.count, e.part.getD 0xFF, e.core,
    s.physOf e.core, padTo 20 e.detail⟩

/-- Bytes 0 to 55 of a record (R489). -/
def Rec.body (r : Rec) : List Byte :=
  leBytes 2 r.code ++ leBytes 1 r.block ++ leBytes 1 r.flags ++ leBytes 4 r.count ++ leBytes 8 r.uptime.toNat
    ++ leBytes 8 r.bootId.toNat ++ leBytes 6 r.stitch.toNat ++ leBytes 1 r.part ++ leBytes 1 0
    ++ leBytes 2 (match r.core with
      | none => 0
      | some c => c % 512 + 2 ^ 15) ++ leBytes 2 r.phys ++ r.detail

/-- All 64 bytes of a record: body, seal and flesh (R489, R490). -/
def Rec.bytes (r : Rec) : List Byte :=
  let c := crc32c r.body
  r.body ++ leBytes 4 c ++ leBytes 4 (2 ^ 32 - 1 - c)

/-- The little-endian 64-bit words of a byte string. -/
def toWords : Nat → List Byte → List (BitVec 64)
  | 0, _ => []
  | n + 1, bs => BitVec.ofNat 64 (leNat (bs.take 8)) :: toWords n (bs.drop 8)

/-- Store words in consecutive registers. -/
def State.setRegs (s : State) (f : Nat → Reg) (ws : List (BitVec 64)) : State :=
  ws.zipIdx.foldl (fun t (w, i) => t.setReg (f i) w) s

/-- OR flags into a record (R489). -/
def Rec.flag (r : Rec) (m : Nat) : Rec := { r with flags := r.flags ||| m }

/-- Capture of an event of rank 1 to 3 (R486, R487): FIRST or NEXT, the escalation messages, and the flags that its
ring record carries. -/
def State.capture (s : State) (r : Rec) : State × Rec :=
  if codeRank r.code = 0 then (s, r)
  else if s.fld (.errCapCtl r.block) ErrCapCtl.firstValid = 0 then
    ((s.setRegs (.errFirst r.block) (toWords 8 r.bytes)).setFld (.errCapCtl r.block) ErrCapCtl.firstValid 1, r)
  else
    let firstCode := wbits (s.reg (.errFirst r.block 0)) 0 16
    let esc := codeRank r.code > codeRank firstCode
    let r' := (r.flag 4).flag (if esc then 2 else 0)
    let s1 := (s.setRegs (.errNext r.block) (toWords 8 r'.bytes)).satFld (.errCapCtl r.block) ErrCapCtl.nextCount 1
    if esc then
      let s2 := (s1.setFld (.errCapCtl r.block) ErrCapCtl.escalated 1).sendMsix 0 0
      (if r.part < 32 then s2.sendMsix (r.part + 1) 1 else s2, r')
    else (s1, r')

/-- The number of intake and overflow entries in use. -/
def State.intakeUsed (s : State) : Nat := s.err.intake.length + s.err.overflow.length

/-- Update of the peak of ERR_INTAKE after an entry joined (R509). -/
def State.notePeak (s : State) : State :=
  s.setFld .errIntake ErrIntake.peak (max (s.fld .errIntake ErrIntake.peak) s.intakeUsed)

/-- Join a record to the first intake entry of its code, block and partition; none when there is no such entry. -/
def joinIntake (r : Rec) : List Rec → Option (List Rec)
  | [] => none
  | x :: t =>
    if x.code = r.code ∧ x.block = r.block ∧ x.part = r.part then
      some ({ x with count := min (2 ^ 32 - 1) (x.count + 1), flags := x.flags ||| r.flags ||| 1 } :: t)
    else (joinIntake r t).map (x :: ·)

/-- The overflow entry of a class after one more event (R493). -/
def overEntry (old : Option Rec) (r : Rec) : Rec :=
  match old with
  | none => ⟨r.code / 4096 * 4096 + 0xC00, 19, r.flags ||| 9, 1, r.uptime, r.bootId, r.stitch, 0xFF, none, 0xFFFF,
      padTo 20 (det [(2, r.code), (2, r.code)])⟩
  | some x => { x with count := min (2 ^ 32 - 1) (x.count + 1), flags := x.flags ||| r.flags ||| 1,
                       detail := x.detail.take 2 ++ leBytes 2 r.code ++ x.detail.drop 4 }

/-- Entry into the intake, with the coalescing of R493. -/
def State.enqueue (s : State) (r : Rec) : State :=
  if s.err.intake.length < 32 then
    { s with err := { s.err with intake := s.err.intake ++ [r] } }.notePeak
  else match joinIntake r s.err.intake with
    | some l => { s with err := { s.err with intake := l } }.satFld .errIntake ErrIntake.coalesced 1
    | none =>
      let cls := r.code / 4096
      ({ s with err := { s.err with overflow := mset s.err.overflow cls (overEntry (mfind s.err.overflow cls) r) } }.notePeak).satFld
        .errIntake ErrIntake.coalesced 1

/-! ### Failure signatures -/

/-- A CBOR head of a major type (R506). -/
def cborHead (major v : Nat) : List Byte :=
  if v < 24 then leBytes 1 (major * 32 + v)
  else if v < 256 then leBytes 1 (major * 32 + 24) ++ beBytes 1 v
  else if v < 65536 then leBytes 1 (major * 32 + 25) ++ beBytes 2 v
  else if v < 2 ^ 32 then leBytes 1 (major * 32 + 26) ++ beBytes 4 v
  else leBytes 1 (major * 32 + 27) ++ beBytes 8 v
/-- A CBOR unsigned integer. -/
def cborUint (v : Nat) : List Byte := cborHead 0 v
/-- A CBOR byte string. -/
def cborBytes (bs : List Byte) : List Byte := cborHead 2 bs.length ++ bs

/-- HARN_DIGEST as 48 bytes. -/
def State.treeDigest (s : State) : List Byte := (List.range 6).flatMap (fun i => leBytes 8 (s.reg (.harnDigest i)).toNat)

/-- Whether a firmware copy has booted: the boot has passed one (R559). -/
def State.fwBooted (s : State) : Bool := s.fld .devFw DevFw.ok0 = 1 || s.fld .devFw DevFw.ok1 = 1
/-- Measurement 1, the SHA-384 of the boot firmware copy that runs, or zero when none has booted (R448, R559). -/
def State.fwDigest (s : State) : List Byte :=
  if s.fwBooted then
    sha384 ((if s.fld .devBoot DevBoot.fwCopy = 1 then s.flash.fw1 else s.flash.fw0).flatMap (fun w => leBytes 8 w.toNat))
  else List.replicate 48 0

/-- The failure signature of a record (R506). -/
def State.signature (s : State) (r : Rec) (whr : List (Nat × Nat)) : List Byte :=
  let firstCode := wbits (s.reg (.errFirst r.block 0)) 0 16
  let hasFirst := s.fld (.errCapCtl r.block) ErrCapCtl.firstValid = 1 ∧ firstCode ≠ r.code
  cborHead 5 (if hasFirst then 16 else 15)
    ++ cborUint 0 ++ cborUint 2
    ++ cborUint 1 ++ cborHead 3 8 ++ [0x46, 0x4A, 0x42, 0x2D, 0x35, 0x32, 0x36, 0x34]
    ++ cborUint 2 ++ cborUint 0xA1
    ++ cborUint 3 ++ cborBytes Config.deviceKeyDigest
    ++ cborUint 4 ++ cborUint r.bootId.toNat
    ++ cborUint 5 ++ cborUint r.uptime.toNat
    ++ cborUint 6 ++ cborUint r.stitch.toNat
    ++ cborUint 7 ++ cborBytes (if s.devState = 0 then [] else s.treeDigest)
    ++ cborUint 8 ++ cborBytes s.fwDigest
    ++ cborUint 9 ++ cborUint r.code
    ++ cborUint 10 ++ cborUint r.block
    ++ cborUint 11 ++ (if r.part = 0xFF then [0xF6] else cborUint r.part)
    ++ cborUint 12 ++ cborHead 5 whr.length ++ whr.flatMap (fun (k, v) => cborUint k ++ cborUint v)
    ++ cborUint 13 ++ cborUint r.count
    ++ cborUint 14 ++ cborBytes r.detail
    ++ (if hasFirst then cborUint 15 ++ cborUint firstCode else [])

/-- Codes below rank 1 that form a signature: CORE_RETIRED, SPM_ROW_REPLACED, HBM_LANE_MARKED, HBM_CH_RETIRED,
OPT_LINE_RETIRED and CREDIT_RETIRED (R506). -/
def signedCodes : List Nat := [0x410A, 0x4401, 0x4501, 0x4502, 0x4901, 0x4B02]

/-- Store and send a signature (R506, R507). -/
def State.formSignature (s : State) (r : Rec) (whr : List (Nat × Nat)) : State :=
  if codeRank r.code = 0 ∧ !signedCodes.contains r.code then s
  else
    let g := s.fld .errSigStat ErrSigStat.made % 64
    let bs := s.signature r whr
    let s1 := if s.err.undelivered.contains g then s.satFld .errSigStat ErrSigStat.overwritten 1 else s
    let s2 := (s1.setRegs (.errSig g) (toWords 64 (padTo 512 bs))).wrapFld .errSigStat ErrSigStat.made 1
    { s2 with err := { s2.err with undelivered := g :: s2.err.undelivered.filter (· != g) } }.emit (.message bs)

/-- Where keys that follow from the core of an event: die and physical core (R506). -/
def State.whrOf (s : State) (e : Ev) : List (Nat × Nat) :=
  match e.core with
  | none => e.whr
  | some _ => [(0, dieOf (s.physOf e.core)), (1, s.physOf e.core)] ++ e.whr

/-- Record an event without its class action: capture, intake, signature (R486, R493, R506). -/
def State.record (s : State) (e : Ev) : State :=
  let r0 := s.mkRec e
  let (s1, r) := s.capture r0
  (s1.enqueue r).formSignature r0 (s.whrOf e)

/-! ## Ends and stops -/

/-- The check value of a zeroed block, VALID (R216). -/
def Blk.zero : Blk := ⟨zeroBlockCheck, true⟩

/-- The command code of a Harness operation (R585 byte 44). -/
def HarnOp.cmd : HarnOp → Nat
  | .tree src _ _ => src
  | .strap _ _ => 9
  | .slotWrite slot => 6 + slot
  | .release _ _ => 0xB

/-- HARN_STATUS.step while an operation runs (R68). -/
def HarnOp.stepNo : HarnOp → Nat
  | .tree _ st _ => st
  | .strap _ _ => 7
  | .slotWrite _ => 8
  | .release _ _ => 0

/-- Microseconds since a time (R68). -/
def State.sinceUs (s : State) (t : Nat) : Nat := (s.pkg.uptime.toNat - t) / 1000

/-- Write the result of an operation to a status register of the layout of HARN_STATUS (R68). -/
def State.putStatus (s : State) (r : Reg) (step result code detail us : Nat) : State :=
  ((((s.setFld r HarnStatus.step step).setFld r HarnStatus.result result).setFld r HarnStatus.code code).setFld r
    HarnStatus.detail detail).setFld r HarnStatus.elapsedUs us

/-- Log a Harness outcome (R67, R585): status step, detail, elapsed time, command code. -/
def State.harnEvent (s : State) (code step detail us cmd : Nat) (p : Option Nat) : State :=
  s.record { code := code, part := p, detail := det [(1, step), (1, detail), (2, 0), (4, us), (1, cmd)] }

/-- A refused command (R64, R67): result 3 with HARN_REFUSED in HARN_STATUS, or in PART_STRAP_STATUS for a VF. -/
def State.harnRefuse (s : State) (cmd : Nat) (vf : Option Nat) : State :=
  let r : Reg := match vf with
    | none => .harnStatus
    | some p => .partStrapStatus p
  (((s.setFld r HarnStatus.result 3).setFld r HarnStatus.code 0x420A).setFld r HarnStatus.detail 0).harnEvent 0x420A 0 0 0 cmd vf

/-- The partition that a Harness operation concerns, if one. -/
def HarnOp.part? : HarnOp → Option Nat
  | .strap r _ => some r.part
  | .release p _ => some p
  | _ => none

/-- Bytes of a scratchpad are zeroed, and the blocks that hold them become OPEN (R218). -/
def Core.zeroBytes (k : Core) (a n : Nat) : Core :=
  { k with
    spm := memZero k.spm a n
    blk := (List.range ((a + n + 4095) / 4096 - a / 4096)).foldl (fun m i =>
      mset m (a / 4096 + i) { mget m (a / 4096 + i) Blk.zero with valid := false }) k.blk }

/-- What a strap commit that fails takes back: the scratchpad rows that its step 2 wrote are zeroed, and the digests that its
step 3 recorded read 0 again (R57, assumption 57). -/
def State.unload (s : State) : State :=
  match s.harn.op with
  | some (.strap r st) =>
    let s1 := s.harn.loader.rows.foldl (fun t (c, a, n) => t.modCore c (fun k => k.zeroBytes a n)) s
    if st = 4 then (s1.setRegs (.partStrapDigest r.part ·) (List.replicate 6 0)).setRegs (.partStrapKey r.part ·) (List.replicate 6 0)
    else s1
  | _ => s

/-- The end of the running Harness operation (R48, R57, R67, R68, R435): result 1 done, 2 failed, 3 refused. -/
def State.harnEnd (s : State) (result code detail : Nat) : State :=
  match s.harn.op with
  | none => s
  | some op =>
    let us := s.sinceUs s.harn.startNs
    let s0 := if result = 1 then s else s.unload
    let s1 := { s0 with
      harn := { s0.harn with op := none, loader := Loader.idle },
      host := { s0.host with reqs := s0.host.reqs.filter (fun (x : Nat × HostReq) => x.2.use ≠ HostUse.loader) } }
    let s2 := (s1.setFld .harnState HarnState.busy 0).putStatus .harnStatus 0 result code detail us
    let s3 := match op with
      | .strap r _ => s2.putStatus (.partStrapStatus r.part) 0 result code detail us
      | _ => s2
    let s4 := if code = 0 then s3 else s3.harnEvent code op.stepNo detail us op.cmd op.part?
    s4.devIrq DevIrqStat.harness

/-- Zero the accumulators, operand buffers and Skiver registers of a core (R109, R130), with CORE_MX_INEXACT (R139). -/
def State.zeroCoreRegs (s : State) (c : Nat) : State :=
  (((s.modCore c (fun k => { k with matrix := { k.matrix with accs := [], units := [] } })).setReg (.coreSkvGate c) 0).setReg
    (.coreSkvSlots c) 0).setReg (.coreMxInexact c) 0

/-- The last step of STOP_ALL, once no descriptor is in progress (R109). -/
def State.stopDone (s : State) (c : Nat) : State :=
  ((s.zeroCoreRegs c).setReg (.coreFault c) 0).modCore c (fun k => { k with stopping := false, halted := false })

/-- Far accesses of a core whose threads have been stopped serve nobody any more. -/
def State.orphanFar (s : State) (c : Nat) : State :=
  { s with fab := { s.fab with xfers := s.fab.xfers.map (fun (t, x) => (t, match x.use with
      | .far c' _ _ _ | .farStore c' _ _ => if c' = c then { x with use := .gone } else x
      | _ => x)) } }

/-- Stop a core at once as STOP_ALL does (R109); a retired core is left alone. -/
def State.stopCore (s : State) (c : Nat) : State :=
  match mfind s.cores c with
  | none => s
  | some k =>
    if s.pkg.retired.contains k.phys then s
    else
      let act := k.active.map (fun a => { a with silent := true })
      let s1 := (s.orphanFar c).modCore c (fun k => { k with
        threads := k.threads.map (fun (t, th) => (t, { th with stat := .stopped })), run := none, queues := [],
        active := act, taskSet := false, entries := [], stopping := true })
      if act.isEmpty then s1.stopDone c else s1

/-- The cores of a partition stop (R52, R53, R109). -/
def State.stopPart (s : State) (p : Nat) : State := (s.coresOf p).foldl State.stopCore s

/-- A partition enters Fenced (R52, R480); a partition that has no grant has no state to leave. -/
def State.fencePart (s : State) (p code : Nat) : State :=
  match mfind s.parts p with
  | none => s
  | some _ =>
    if s.partState p = 3 then s
    else ((s.stopPart p).setFld (.partState p) PartState.fenceCode code).setPartState p 3

/-- The device enters Fenced (R51, R54, R66): a running Harness operation ends with HARN_TIMEOUT, the queue of strap
commits is discarded, every core stops. -/
def State.fenceDev (s : State) : State :=
  if s.devState = 3 then s
  else
    let s1 := s.harnEnd 2 0x4209 0
    let s2 := { s1 with harn := { s1.harn with queue := [] } }
    ((s2.cores.map Prod.fst).foldl State.stopCore s2).setDevState 3

/-- Raise an event: record it and take its class action (R480). -/
def State.log (s : State) (e : Ev) : State :=
  let s1 := s.record e
  match e.code / 4096 with
  | 2 => match e.part with
    | some p => s1.fencePart p e.code
    | none => s1
  | 3 => s1.fenceDev
  | _ => s1

end Sys2Proof.Machine
end

