-- ==== Sys2Proof/Machine/CoreOps.lean ====
section
/-! DEFINITION. The shared operations of a core: thread registers (R72), faults and halting (R108, R482), retirement
(R204, R137), thread switching (R73, R74), the end of threads and task sets with the audit (R71, R282, R283). -/
namespace Sys2Proof.Machine

/-! ## Causes of R108 -/

/-- ILLEGAL_INSN. -/
def cIllegal : Nat := 1
/-- MISALIGN. -/
def cMisalign : Nat := 2
/-- DESC_INVALID. -/
def cDesc : Nat := 3
/-- DESC_SYNC. -/
def cSync : Nat := 4
/-- BOUND. -/
def cBound : Nat := 5
/-- CRC_BLOCK. -/
def cCrc : Nat := 6
/-- NODE_UNREACHABLE. -/
def cNode : Nat := 7
/-- OWNERSHIP. -/
def cOwner : Nat := 8
/-- ENGINE_HW. -/
def cHw : Nat := 9

/-- The event code of a cause (R482). -/
def causeCode (cause : Nat) : Nat := if cause = 6 ∨ cause = 7 ∨ cause = 9 then 0x1100 + cause else 0x4100 + cause

/-! ## Threads -/

/-- The idle thread: stopped, registers zero. -/
def Thread.idle : Thread := ⟨.stopped, 0, [], [], 0⟩

/-- A thread of a core. -/
def Core.thread (k : Core) (t : Nat) : Thread := mget k.threads t Thread.idle
/-- Change a thread of a core. -/
def Core.setThread (k : Core) (t : Nat) (th : Thread) : Core := { k with threads := mset k.threads t th }

/-- General register `r` of a thread: g0 reads as zero (R72). -/
def Thread.g (th : Thread) (r : Nat) : BitVec 64 := if r = 0 then 0 else mget th.regs r 0
/-- Write general register `r`: a write to g0 has no effect (R72). -/
def Thread.setG (th : Thread) (r : Nat) (v : BitVec 64) : Thread :=
  if r = 0 then th else { th with regs := mset th.regs r v }

/-- Whether a thread is started and not stopped (CORE_STATE.running). -/
def Thread.started (th : Thread) : Bool := th.stat != .stopped

/-- A thread of a core of the state. -/
def State.thread (s : State) (c t : Nat) : Thread :=
  match mfind s.cores c with
  | none => Thread.idle
  | some k => k.thread t
/-- Change a thread of a core of the state. -/
def State.modThread (s : State) (c t : Nat) (f : Thread → Thread) : State :=
  s.modCore c (fun k => k.setThread t (f (k.thread t)))

/-- The next ready thread in ascending order after `t`, wrapping (R74). -/
def Core.nextReady (k : Core) (t : Nat) : Option Nat :=
  ((List.range 8).map (fun i => (t + 1 + i) % 8)).find? (fun u => (k.thread u).stat = .ready)

/-- The scalar engine picks a thread when none runs and the core is not halted (R74): the next ready one after `t`. -/
def State.switchFrom (s : State) (c t : Nat) : State :=
  s.modCore c (fun k => if k.halted then { k with run := none } else { k with run := k.nextReady t })

/-- When no thread runs, a thread that has become ready issues (R74). Of several that one command makes ready on an idle
engine, the first one it wakes issues, in the order in which that command names them: ascending thread number, or the order of
arrival at a cinch line (assumption 68). -/
def State.wakeIdle (s : State) (c : Nat) : State :=
  s.modCore c (fun k => if k.run = none ∧ !k.halted then { k with run := k.nextReady 7 } else k)

/-- A thread blocks for a reason and the engine switches (R73, R74). -/
def State.park (s : State) (c t : Nat) (why : Park) : State :=
  (s.modThread c t (fun th => { th with stat := .parked why })).switchFrom c t

/-- A parked thread becomes ready. -/
def State.unpark (s : State) (c t : Nat) : State :=
  (s.modThread c t (fun th => { th with stat := .ready })).wakeIdle c

/-! ## Faults -/

/-- The detail bytes of a core fault (R585). -/
def faultDetail (thread engine tag pc node rsp strip : Nat) : List Byte :=
  det [(1, thread), (1, engine), (1, tag), (1, 0), (4, pc), (2, node), (1, rsp), (1, strip)]

/-- A core stops after a fault (R108): queues discarded, threads stopped where they are. A discarded descriptor no longer keeps
a thread in END from stopping, but the thread is seen to stop only when `settleEnds` next runs on the core, at the completion of
a started descriptor or the END of another thread (assumption 69). -/
def State.haltCore (s : State) (c : Nat) : State :=
  s.modCore c (fun k => { k with halted := true, run := none, queues := [] })

/-- Where a fault came from: thread, engine (0xF scalar), descriptor tag, program counter, destination node, whether an
RSP_FAULT raised it, the failed strip or 0xFF. -/
structure FaultAt where
  thread : Nat
  engine : Nat := 0xF
  tag : Nat := 0
  pc : Nat := 0
  node : Nat := 0
  rsp : Nat := 0
  strip : Nat := 0xFF

/-- A fault of a core (R108, R109): recorded in CORE_FAULT, or counted in `more` while an earlier one stands, logged,
and the core halts. CORE_SPM_BLK counts the CRC_BLOCK faults of descriptors (R224). -/
def State.coreFault (s : State) (c cause : Nat) (w : FaultAt) : State :=
  match mfind s.cores c with
  | none => s
  | some _ =>
    let s1 :=
      if s.fld (.coreFault c) CoreFault.cause = 0 then
        ((((s.setFld (.coreFault c) CoreFault.cause cause).setFld (.coreFault c) CoreFault.thread w.thread).setFld
          (.coreFault c) CoreFault.engine w.engine).setFld (.coreFault c) CoreFault.tag w.tag).setFld
          (.coreFault c) CoreFault.pc w.pc
      else s.satFld (.coreFault c) CoreFault.more 1
    let s2 := if cause = cCrc ∧ w.engine ≠ 0xF then s1.satFld (.coreSpmBlk c) CoreSpmBlk.crcFail 1 else s1
    (s2.haltCore c).log {
      code := causeCode cause, part := s.ownerOf c, core := some c,
      detail := faultDetail w.thread w.engine w.tag w.pc w.node w.rsp w.strip,
      whr := if w.strip < 4 then [(2, w.strip)] else [] }

/-- A fault of the scalar engine at the instruction of thread `t` (R108). -/
def State.scalarFault (s : State) (c t cause : Nat) : State :=
  s.coreFault c cause { thread := t, pc := (s.thread c t).pc }

/-- A fault of a descriptor (R108). -/
def State.descFault (s : State) (c : Nat) (d : Desc) (cause : Nat) : State :=
  s.coreFault c cause {
    thread := d.thread, engine := wbits (d.words.getD 0 0) 0 4,
    tag := wbits (d.words.getD 0 0) 40 8, pc := d.pc }

/-- A core is retired (R137, R204): it halts, its task set is over without an audit of its own, it stays out of use, and
CORE_RETIRED is logged. -/
def State.retireCore (s : State) (c : Nat) : State :=
  match mfind s.cores c with
  | none => s
  | some k =>
    let s1 := (s.haltCore c).modCore c (fun k => { k with taskSet := false, entries := [] })
    ({ s1 with pkg := { s1.pkg with retired := k.phys :: s1.pkg.retired.filter (· != k.phys) } }).log
      { code := 0x410A, part := s.ownerOf c, core := some c, detail := faultDetail 0 0xF 0 0 0 0 0xFF }

/-- Whether a core is retired (CORE_STATE.state 3). -/
def State.isRetired (s : State) (c : Nat) : Bool :=
  match mfind s.cores c with
  | none => false
  | some k => s.pkg.retired.contains k.phys

/-! ## Ends of threads and task sets -/

/-- Whether a thread still has descriptors waiting or in progress (R71). -/
def Core.busyThread (k : Core) (t : Nat) : Bool :=
  k.queues.any (fun q => q.2.any (fun d => d.thread = t)) || k.active.any (fun a => a.desc.thread = t)

/-- Ending threads whose descriptors have completed stop (R71). -/
def Core.stopEnded (k : Core) : Core :=
  { k with threads := k.threads.map (fun (t, th) =>
      (t, if th.stat = .ending ∧ !k.busyThread t then { th with stat := .stopped } else th)) }

/-- Lines at which a core has an arrival pending (R282). -/
def State.arrivalsOf (s : State) (c : Nat) : List Nat :=
  (s.cinches.filter (fun (_, x) => x.arrived.any (fun a => a / 8 = c))).map Prod.fst

/-- The core-level leave-as-found check (R282, R283). -/
def State.auditCore (s : State) (c : Nat) : State :=
  let v := s.fld (.coreTack c) CoreTack.value
  let i := s.fld (.coreTack c) CoreTack.initial
  if v = i ∧ (s.arrivalsOf c).isEmpty then s
  else
    let s1 := s.log { code := 0x4601, part := s.ownerOf c, core := some c, detail := det [(4, v ^^^ i)] }
    match s.ownerOf c with
    | none => s1
    | some p => s1.satFld (.partSyncStat p) PartSyncStat.auditFail 1

/-- A 64-bit map of the indices below 64 that a condition names. -/
def bitmap64 (q : Nat → Bool) : Nat := (List.range 64).foldl (fun a i => if q i then a + 2 ^ i else a) 0

/-- First grid tack and count of a grant (R584 word 22). -/
def State.gtFirst (s : State) (p : Nat) : Nat := bitsOf (s.grantWord p 22) 0 10
/-- Count of grid tacks of a grant. -/
def State.gtCount (s : State) (p : Nat) : Nat := bitsOf (s.grantWord p 22) 16 11

/-- Whether a partition's cinch bitmap holds a line (R584 words 23 to 24). -/
def State.ownsLine (s : State) (p l : Nat) : Bool := bitAt (s.grantWord p (23 + l / 32)) (l % 32)

/-- The partition-level leave-as-found check (R282, R283). -/
def State.auditPart (s : State) (p : Nat) : State :=
  match mfind s.parts p with
  | none => s
  | some q =>
    let diffs := ((List.range (s.gtCount p)).map (s.gtFirst p + ·)).filter (fun g =>
      s.gtacks.getLsbD g != q.gtInit.getLsbD g)
    let lines := bitmap64 (fun l => s.ownsLine p l && (match mfind s.cinches l with
      | none => false
      | some x => !x.arrived.isEmpty))
    let arms := bitmap64 (fun r => s.fld (.partRxArm p r) PartRxArm.armed = 1)
    if diffs.isEmpty ∧ lines = 0 ∧ arms = 0 then s
    else (s.log {
        code := 0x4601, part := some p,
        detail := det [(2, diffs.headD 0), (2, diffs.length), (8, lines), (8, arms)] }).satFld
      (.partSyncStat p) PartSyncStat.auditFail 1

/-- Ends that follow from completed descriptors: threads stop, the task set ends when every thread has stopped, and
the audits run (R71, R282). -/
def State.settleEnds (s : State) (c : Nat) : State :=
  let s1 := s.modCore c Core.stopEnded
  match mfind s1.cores c with
  | none => s1
  | some k =>
    if k.taskSet ∧ k.threads.all (fun (_, th) => !th.started) ∧ k.entries.isEmpty then
      let s2 := (s1.modCore c (fun k => { k with taskSet := false })).auditCore c
      match s2.ownerOf c with
      | none => s2
      | some p =>
        if (s2.coresOf p).any (fun d => match mfind s2.cores d with
          | none => false
          | some x => x.taskSet) then s2 else s2.auditPart p
    else s1

end Sys2Proof.Machine
end

