-- ==== Sys2Proof/Machine/Store.lean ====
section
/-! DEFINITION. The three kinds of memory and their check values: scratchpad rows, errors and spares (R193, R201 to
R205), LLS scratch space and cache (R206 to R214), HBM mapping, metadata, poison and the pending-block store (R228 to
R237, R249), and reads, writes, verification and generation of check values over all of them (R215 to R221). -/
namespace Sys2Proof.Machine

/-- A memory of the device: a core's scratchpad, the LLS scratch space of a partition on a die, a partition's HBM. -/
inductive Loc where
  | spm (c : Nat)
  | lls (d p : Nat)
  | hbm (p : Nat)
  deriving DecidableEq, Repr

/-- Bytes as (address, length) or (address, contents). -/
abbrev Span := Nat × Nat

/-- Cut `n` bytes at `a` at multiples of `sz`. -/
def cutAt (sz : Nat) : Nat → Nat → Nat → List Span
  | 0, _, _ => []
  | fuel + 1, a, n =>
    if n = 0 then []
    else
      let k := min n (sz - a % sz)
      (a, k) :: cutAt sz fuel (a + k) (n - k)

/-- The pieces of `n` bytes at `a` that do not cross a multiple of `sz`. -/
def pieces (sz a n : Nat) : List Span := cutAt sz (n / sz + 2) a n

/-- Whether spans cover every byte from `lo` to `hi`, scanning `fuel` times. -/
def coverFrom (spans : List Span) (hi : Nat) : Nat → Nat → Bool
  | 0, lo => hi ≤ lo
  | fuel + 1, lo =>
    if hi ≤ lo then true
    else
      let nxt := spans.foldl (fun m (a, n) => if a ≤ lo then max m (a + n) else m) lo
      if nxt = lo then false else coverFrom spans hi fuel nxt

/-- Whether spans together cover the 4 KiB block `b` (R217, R220). -/
def coversBlock (spans : List Span) (b : Nat) : Bool := coverFrom spans (4096 * b + 4096) spans.length (4096 * b)

/-- The 4 KiB blocks that spans touch. -/
def blocksOf (spans : List Span) : List Nat :=
  uniq (spans.flatMap (fun (a, n) =>
    if n = 0 then [] else (List.range ((a + n - 1) / 4096 - a / 4096 + 1)).map (a / 4096 + ·)))

/-- Whether a span list touches a byte. -/
def touches (spans : List Span) (a : Nat) : Bool := spans.any (fun (x, n) => x ≤ a ∧ a < x + n)
/-- Whether a span list touches any byte of a range. -/
def touchesRange (spans : List Span) (a len : Nat) : Bool := spans.any (fun (x, n) => x < a + len ∧ a < x + n ∧ n ≠ 0)

/-- The metadata of a zeroed HBM block, VALID (R216, R245). -/
def HBlk.zero : HBlk := ⟨zeroBlockCheck, 0, 0⟩

/-! ## Scratchpad -/

/-- The bank of a scratchpad byte (R193). -/
def spmBank (a : Nat) : Nat := (a / 128 % 32) ^^^ (a / 4096 % 32)
/-- The row of a scratchpad byte within its bank (R193). -/
def spmRow (a : Nat) : Nat := a / 4096 % 512

/-- Scratchpad bytes of a core: CORE_CAP.spm_kib (R193). -/
def spmSize : Nat := 2097152

/-- Key of a remap entry in the standby domain. -/
def remapKey (phys bank i : Nat) : Nat := phys * 256 + bank * 8 + i

/-- Whether a remap entry is in use. -/
def State.remapUsed (s : State) (phys bank i : Nat) : Bool :=
  bitAt (grain (mget s.pkg.remap (remapKey phys bank i) 0)) 9

/-- Replace a row by the next unused spare of its bank, or retire the core (R203, R204). -/
def State.replaceRow (s : State) (c bank row : Nat) : State :=
  match mfind s.cores c with
  | none => s
  | some k =>
    match (List.range 8).find? (fun i => !s.remapUsed k.phys bank i) with
    | none => (s.coreFault c cHw { thread := 0 }).retireCore c
    | some i =>
      let s1 := { s with pkg := { s.pkg with remap := mset s.pkg.remap (remapKey k.phys bank i) (gfPair (row + 512 + 1024)) } }
      (s1.modCore c (fun k => { k with rowFix := mdel k.rowFix (bank * 512 + row) })).log {
        code := 0x4401, part := s.ownerOf c, core := some c,
        detail := det [(1, bank), (1, i), (2, row)], whr := [(9, bank), (10, row)] }

/-- Mark a scratchpad block OPEN. -/
def State.spmOpen (s : State) (c b : Nat) : State :=
  s.modCore c (fun k => { k with blk := mset k.blk b { mget k.blk b Blk.zero with valid := false } })

/-- One corrected word (R201, R203). -/
def State.spmCorrected (s : State) (c a : Nat) : State :=
  let key := spmBank a * 512 + spmRow a
  let s1 := (s.satFld (.coreSpmEcc c) CoreSpmEcc.corrected 1).modCore c (fun k =>
    { k with rowFix := mset k.rowFix key (mget k.rowFix key 0 + 1) })
  match mfind s1.cores c with
  | none => s
  | some k => if mget k.rowFix key 0 ≥ 16 then s1.replaceRow c (spmBank a) (spmRow a) else s1

/-- One uncorrectable row (R202): zeroed, its block OPEN, replaced when the read-back fails. -/
def State.spmLost (s : State) (c a : Nat) (ok : Bool) : State :=
  let s1 := (s.modCore c (fun k => { k with spm := memZero k.spm (a / 128 * 128) 128 })).spmOpen c (a / 4096)
  let s2 := s1.satFld (.coreSpmEcc c) CoreSpmEcc.uncorrected 1
  if ok then s2 else s2.replaceRow c (spmBank a) (spmRow a)

/-! ## HBM mapping and metadata -/

/-- The HBM_REGION index of a partition, or none (R229). -/
def State.regionOf (s : State) (p : Nat) : Option Nat :=
  match mfind s.parts p with
  | none => none
  | some _ => if s.grantWord p 18 < 32 ∧ s.fld (.hbmRegion (s.grantWord p 18)) HbmRegion.valid = 1 then some (s.grantWord p 18) else none

/-- Size in bytes of a partition's HBM region (R229). -/
def State.hbmSize (s : State) (p : Nat) : Nat :=
  match s.regionOf p with
  | none => 0
  | some i => 4096 * s.fld (.hbmRegion i) HbmRegion.size

/-- The stacks of a mask, ascending. -/
def maskList (w m : Nat) : List Nat := (List.range w).filter (bitAt m)

/-- Where a partition-relative HBM offset lies: channel number k * 32 + c and channel byte (R230). -/
def State.hbmPlace (s : State) (p a : Nat) : Option (Nat × Nat) :=
  match s.regionOf p with
  | none => none
  | some i =>
    let ss := maskList 8 (s.fld (.hbmRegion i) HbmRegion.stacks)
    let b := a / 4096
    let k := ss.getD (b % ss.length) 0
    let ws := maskList 32 (mget s.hbm.trained k 0)
    let lb := b / ss.length
    if ss.isEmpty ∨ ws.isEmpty then none
    else some (k * 32 + ws.getD (lb % ws.length) 0, (s.fld (.hbmRegion i) HbmRegion.base + lb / ws.length) * 4096 + a % 4096)

/-- Address of a channel byte in the model's HBM memory. -/
def hbmAddr (ch byte : Nat) : Nat := ch * 2 ^ 31 + byte

/-- Whether a channel was lost in the field (R250): HBM_CH_STATE.state 2. -/
def State.chLost (s : State) (ch : Nat) : Bool := s.fld (.hbmChState (ch / 32) (ch % 32)) HbmChState.state = 2

/-- Metadata of the HBM block that holds an address. -/
def State.hblk (s : State) (addr : Nat) : HBlk := mget s.hbm.blk (addr / 4096) HBlk.zero

/-- Change the metadata of the block that holds an address. -/
def State.modHblk (s : State) (addr : Nat) (f : HBlk → HBlk) : State :=
  { s with hbm := { s.hbm with blk := mset s.hbm.blk (addr / 4096) (f (s.hblk addr)) } }

/-- The mask of the 64-byte transfers of a block that a span within it touches. -/
def trMask (a n : Nat) : Nat :=
  (List.range 64).foldl (fun m t => if a % 4096 < 64 * t + 64 ∧ 64 * t < a % 4096 + n then m + 2 ^ t else m) 0
/-- The mask of the transfers that a span covers whole. -/
def trWhole (a n : Nat) : Nat :=
  (List.range 64).foldl (fun m t => if a % 4096 ≤ 64 * t ∧ 64 * t + 64 ≤ a % 4096 + n then m + 2 ^ t else m) 0
/-- Number of ones of a 64-bit mask. -/
def popcount (w m : Nat) : Nat := (maskList w m).length

/-- Charge a partition's bucket, in units of 10^-5 nJ (R521, R523). -/
def State.charge (s : State) (p n : Nat) : State := s.modPart p (fun q => { q with bucket := q.bucket - n })

/-- Count transfers read in a partition's region (HBM_RD_SNAP and the partition's own), at 1.1 nJ each (R521). -/
def State.countRd (s : State) (p n : Nat) : State :=
  (s.liveAdd (.hbmRdSnap p) HbmRdSnap.transfers n).charge p (110000 * n)
/-- Count of written transfers. -/
def State.countWr (s : State) (p n : Nat) : State :=
  (s.liveAdd (.hbmWrSnap p) HbmWrSnap.transfers n).charge p (110000 * n)

/-- Read a span within one block directly from HBM (R236, R250): bytes, and whether a transfer is poisoned or lost. -/
def State.rawRead (s : State) (p a n : Nat) : State × List Byte × Bool :=
  match s.hbmPlace p a with
  | none => (s, List.replicate n 0, true)
  | some (ch, byte) =>
    let addr := hbmAddr ch byte
    let bad := s.chLost ch ∨ (s.hblk addr).poison.toNat &&& trMask byte n ≠ 0
    (s.countRd p (popcount 64 (trMask byte n)), memRead s.hbm.mem addr n, bad)

/-- Write a span within one block directly to HBM without a whole-block check value (R234, R236): whether a partial
transfer was poisoned, in which case nothing is written. A lost channel discards writes, and the read that a partial write
makes first completes as poisoned (R250). -/
def State.rawWrite (s : State) (p a : Nat) (bs : List Byte) : State × Bool :=
  match s.hbmPlace p a with
  | none => (s, true)
  | some (ch, byte) =>
    let addr := hbmAddr ch byte
    let n := bs.length
    let part := trMask byte n - trWhole byte n
    let s0 := (s.countWr p (popcount 64 (trMask byte n))).countRd p (popcount 64 part)
    if s.chLost ch then (s0, decide (part ≠ 0))
    else if (s.hblk addr).poison.toNat &&& part ≠ 0 then (s0, true)
    else
      (({ s0 with hbm := { s0.hbm with mem := memWrite s0.hbm.mem addr bs } }).modHblk addr (fun h =>
        { h with opens := h.opens ||| BitVec.ofNat 64 (trMask byte n),
                 poison := h.poison &&& ~~~ BitVec.ofNat 64 (trWhole byte n) }), false)

/-! ## LLS -/

/-- Ways of a partition on a die (R584 word 17). -/
def State.llsWays (s : State) (d p : Nat) : Nat := bitsOf (s.grantWord p 17) (8 * d) 5
/-- Whether the slice is in cache mode (R208). -/
def State.llsCache (s : State) (d p : Nat) : Bool := s.llsWays d p ≠ 0 ∧ s.fld (.llsSlice d p) LlsSlice.mode = 1
/-- Size of the LLS scratch space (R209). -/
def State.llsSize (s : State) (d p : Nat) : Nat := if s.llsCache d p then 0 else s.llsWays d p * 6291456

/-- An empty slice. -/
def Slice.empty : Slice := ⟨[], [], [], []⟩
/-- A slice of a partition on a die. -/
def State.slice (s : State) (d p : Nat) : Slice := mget s.lls (d * 32 + p) Slice.empty
/-- Change a slice. -/
def State.modSlice (s : State) (d p : Nat) (f : Slice → Slice) : State :=
  { s with lls := mset s.lls (d * 32 + p) (f (s.slice d p)) }

/-- The die whose cache-mode slice holds an HBM offset of a partition, if one does (R210). -/
def State.homeDie (s : State) (p a : Nat) : Option Nat :=
  match s.hbmPlace p a with
  | none => none
  | some (ch, _) => if s.llsCache (ch / 64) p then some (ch / 64) else none

/-- VALID state and check value of an HBM block as its stack holds it (R234). -/
def State.stackBlk (s : State) (p b : Nat) : Blk :=
  match s.hbmPlace p (4096 * b) with
  | none => ⟨0, false⟩
  | some (ch, byte) =>
    let h := s.hblk (hbmAddr ch byte)
    ⟨h.check, h.opens = 0 ∧ h.poison = 0 ∧ !s.chLost ch⟩

/-- Write a dirty line to its stack with the metadata of its pending-block entry (R237). -/
def State.writeLine (s : State) (d p : Nat) (l : Line) : State :=
  match s.hbmPlace p (128 * l.idx) with
  | none => s
  | some (ch, byte) =>
    let addr := hbmAddr ch byte
    let s1 := s.countWr p 2
    if s.chLost ch then s1
    else
      let e := (s.slice d p).pend.find? (fun e => e.idx = l.idx / 32)
      let m := BitVec.ofNat 64 (trMask byte 128)
      let s2 := { s1 with hbm := { s1.hbm with mem := memWrite s1.hbm.mem addr (memRead l.bytes 0 128) } }
      s2.modHblk addr (fun h => match e with
        | some ⟨_, chk, true⟩ =>
          let nib := BitVec.ofNat 32 (if byte % 4096 / 64 < 8 then 0xFF * 2 ^ (byte % 4096 / 16) else 0)
          { check := (h.check &&& ~~~ nib) ||| (chk &&& nib), opens := h.opens &&& ~~~ m, poison := h.poison &&& ~~~ m }
        | _ => { h with opens := h.opens ||| m, poison := h.poison &&& ~~~ m })

/-- Release the pending-block entry of a block without dirty lines (R237). -/
def State.releasePend (s : State) (d p blk : Nat) : State :=
  s.modSlice d p (fun x =>
    if x.lines.any (fun l => l.dirty ∧ l.idx / 32 = blk) then x
    else { x with pend := x.pend.filter (fun e => e.idx ≠ blk) })

/-- Write back every dirty line of the block whose entry was allocated longest ago, and release the entry (R237). -/
def State.flushOldest (s : State) (d p : Nat) : State :=
  match (s.slice d p).pend with
  | [] => s
  | e :: _ =>
    let ls := (s.slice d p).lines.filter (fun l => l.dirty ∧ l.idx / 32 = e.idx)
    let s1 := ls.foldl (fun t l => t.writeLine d p l) s
    (s1.modSlice d p (fun x => { x with
      lines := x.lines.map (fun l => if l.idx / 32 = e.idx then { l with dirty := false } else l) })).releasePend d p e.idx

/-- Have a pending-block entry for a block (R237). -/
def State.needPend (s : State) (d p blk : Nat) : State :=
  if (s.slice d p).pend.any (fun e => e.idx = blk) then s
  else
    let s1 := if (s.slice d p).pend.length ≥ 1536 * s.llsWays d p then s.flushOldest d p else s
    let b := s1.stackBlk p blk
    s1.modSlice d p (fun x => { x with pend := x.pend ++ [⟨blk, b.check, b.valid⟩] })

/-- Evict the least recently used line of a set when its ways are full (R211). -/
def State.makeRoom (s : State) (d p idx : Nat) : State :=
  let same := (s.slice d p).lines.filter (fun l => l.idx % 49152 = idx % 49152)
  if same.length < s.llsWays d p then s
  else match same.getLast? with
    | none => s
    | some v =>
      let s1 := if v.dirty then s.writeLine d p v else s
      (s1.modSlice d p (fun x => { x with lines := x.lines.filter (fun l => l.idx ≠ v.idx) })).releasePend d p (v.idx / 32)

/-- Make a line resident and most recent (R211): a hit, or a miss with a fill unless the whole line is written.
Answers whether the fill met a poisoned transfer, in which case the line is not allocated. -/
def State.touchLine (s : State) (d p idx : Nat) (fill : Bool) : State × Bool :=
  match (s.slice d p).lines.find? (fun l => l.idx = idx) with
  | some l =>
    ((s.modSlice d p (fun x => { x with lines := l :: x.lines.filter (fun y => y.idx ≠ idx) })).liveAdd
      (.llsHitSnap d p) LlsHitSnap.count 1, false)
  | none =>
    let s1 := s.liveAdd (.llsMissSnap d p) LlsMissSnap.count 1
    let (s2, bs, bad) := if fill then s1.rawRead p (128 * idx) 128 else (s1, [], false)
    if bad then (s2, true)
    else
      let s3 := s2.makeRoom d p idx
      (s3.modSlice d p (fun x => { x with lines := ⟨idx, memCells 0 bs, false⟩ :: x.lines }), false)

/-- Read a span within one line through the slice. -/
def State.lineRead (s : State) (d p a n : Nat) : State × List Byte × Bool :=
  let (s1, bad) := s.touchLine d p (a / 128) true
  match (s1.slice d p).lines.find? (fun l => l.idx = a / 128) with
  | none => (s1, List.replicate n 0, true)
  | some l => (s1, memRead l.bytes (a % 128) n, bad)

/-- Write a span within one line through the slice (write-back, write-allocate: R211). -/
def State.lineWrite (s : State) (d p a : Nat) (bs : List Byte) : State × Bool :=
  let s0 := s.needPend d p (a / 4096)
  let (s1, bad) := s0.touchLine d p (a / 128) (bs.length ≠ 128)
  if bad then (s1.releasePend d p (a / 4096), true)
  else
    (s1.modSlice d p (fun x => { x with
      lines := x.lines.map (fun l => if l.idx = a / 128 then { l with bytes := memWrite l.bytes (a % 128) bs, dirty := true } else l),
      pend := x.pend.map (fun e => if e.idx = a / 4096 then { e with valid := false } else e) }), false)

/-! ## Every space -/

/-- Size in bytes of a memory. -/
def State.locSize (s : State) : Loc → Nat
  | .spm c => match mfind s.cores c with
    | none => 0
    | some _ => spmSize
  | .lls d p => s.llsSize d p
  | .hbm p => s.hbmSize p

/-- The partition whose memory it is. -/
def State.locPart (s : State) : Loc → Option Nat
  | .spm c => s.ownerOf c
  | .lls _ p => some p
  | .hbm p => some p

/-- The memory and block range (first block, blocks) that step range `i` of a partition names (R511). -/
def State.stepRange (s : State) (p i : Nat) : Nat × Loc × Nat × Nat :=
  let w : Reg := .partStepRange p i 0
  let x := s.fld w PartStepRange.whereF
  let l : Loc := if s.fld w PartStepRange.space = 0 then .spm x
    else if s.fld w PartStepRange.space = 1 then .lls (x % 4) p else .hbm p
  (s.fld w PartStepRange.kind, l, s.fld (.partStepRange p i 1) PartStepRange1.base,
    s.fld (.partStepRange p i 1) PartStepRange1.size)

/-- Whether the partition's step is Open or Closed (R498). -/
def State.stepOpen (s : State) (p : Nat) : Bool := s.fld (.partStepStatus p) PartStepStatus.state ≥ 2

/-- Whether a write of `n` bytes at `a` would reach an input range of an Open or Closed step (R499). -/
def State.stepGuards (s : State) (l : Loc) (a n : Nat) : Bool :=
  match s.locPart l with
  | none => false
  | some p => s.stepOpen p && (List.range 16).any (fun i =>
      let (kind, l', b, sz) := s.stepRange p i
      kind = 1 && l' = l && a < 4096 * (b + sz) && 4096 * b < a + n)

/-- Whether any of the spans would reach an input range. -/
def State.stepGuarded (s : State) (l : Loc) (spans : List Span) : Bool := spans.any (fun (a, n) => s.stepGuards l a n)

/-- Read one span: bytes, and whether a transfer of it was lost. -/
def State.readSpan (s : State) (l : Loc) (a n : Nat) : State × List Byte × Bool :=
  match l with
  | .spm c => match mfind s.cores c with
    | none => (s, List.replicate n 0, false)
    | some k => (s, memRead k.spm a n, false)
  | .lls d p => (s, memRead (s.slice d p).mem a n, false)
  | .hbm p =>
    (pieces 4096 a n).foldl (fun (t, acc, bad) (x, k) =>
      match t.homeDie p x with
      | none => let (t1, bs, b) := t.rawRead p x k
                (t1, acc ++ bs, bad || b)
      | some d => (pieces 128 x k).foldl (fun (u, acc, bad) (y, m) =>
          let (u1, bs, b) := u.lineRead d p y m
          (u1, acc ++ bs, bad || b)) (t, acc, bad)) (s, [], false)

/-- Write one span and make the blocks it touches OPEN (R218): whether a write was not performed (R236). -/
def State.writeSpan (s : State) (l : Loc) (a : Nat) (bs : List Byte) : State × Bool :=
  match l with
  | .spm c =>
    ((blocksOf [(a, bs.length)]).foldl (fun t b => t.spmOpen c b)
      (s.modCore c (fun k => { k with spm := memWrite k.spm a bs })), false)
  | .lls d p =>
    (s.modSlice d p (fun x => { x with
      mem := memWrite x.mem a bs,
      blk := (blocksOf [(a, bs.length)]).foldl (fun m b => mset m b { mget m b Blk.zero with valid := false }) x.blk }), false)
  | .hbm p =>
    (pieces 4096 a bs.length).foldl (fun (t, bad) (x, k) =>
      let part := (bs.drop (x - a)).take k
      match t.homeDie p x with
      | none => let (t1, b) := t.rawWrite p x part
                (t1, bad || b)
      | some d => (pieces 128 x k).foldl (fun (u, bad) (y, m) =>
          let (u1, b) := u.lineWrite d p y ((bs.drop (y - a)).take m)
          (u1, bad || b)) (t, bad)) (s, false)

/-- Check value and state of block `b` of a memory (R216, R234, R237). -/
def State.blkOf (s : State) (l : Loc) (b : Nat) : Blk :=
  match l with
  | .spm c => match mfind s.cores c with
    | none => ⟨0, false⟩
    | some k => mget k.blk b Blk.zero
  | .lls d p => mget (s.slice d p).blk b Blk.zero
  | .hbm p => match s.homeDie p (4096 * b) with
    | none => s.stackBlk p b
    | some d => match (s.slice d p).pend.find? (fun e => e.idx = b) with
      | some e => ⟨e.check, e.valid⟩
      | none => s.stackBlk p b

/-- The transfers of an HBM block that its home slice holds dirty. -/
def State.dirtyMask (s : State) (d p b : Nat) : BitVec 64 :=
  (s.slice d p).lines.foldl (fun m l => if l.dirty ∧ l.idx / 32 = b then m ||| BitVec.ofNat 64 (3 * 2 ^ (2 * (l.idx % 32))) else m) 0

/-- The bits of a check value that a mask of transfers carries: nibble t in transfer t (R232). -/
def nibMask (m : BitVec 64) : BitVec 32 :=
  BitVec.ofNat 32 ((List.range 8).foldl (fun x t => if m.getLsbD t then x + 15 * 16 ^ t else x) 0)

/-- A valid check value goes into the transfers of a block that the stack holds: all but the dirty ones of its slice (R234). -/
def State.sealStack (s : State) (p b : Nat) (dirty : BitVec 64) (x : Blk) : State :=
  match s.hbmPlace p (4096 * b) with
  | none => s
  | some (ch, byte) =>
    if x.valid then s.modHblk (hbmAddr ch byte) (fun h =>
      { h with check := (h.check &&& nibMask dirty) ||| (x.check &&& ~~~ nibMask dirty), opens := h.opens &&& dirty }) else s

/-- Store check value and state of a block that has just been written whole (R217, R219, R234). Lines that its home slice has
written back meanwhile carry them too. -/
def State.sealBlk (s : State) (l : Loc) (b : Nat) (x : Blk) : State :=
  match l with
  | .spm c => s.modCore c (fun k => { k with blk := mset k.blk b x })
  | .lls d p => s.modSlice d p (fun y => { y with blk := mset y.blk b x })
  | .hbm p => match s.homeDie p (4096 * b) with
    | some d => (s.modSlice d p (fun y => { y with
        pend := y.pend.map (fun e => if e.idx = b then { e with check := x.check, valid := x.valid } else e) })).sealStack p b
          (s.dirtyMask d p b) x
    | none => s.sealStack p b 0 x

/-- The bytes of a block as they stand, through the slice of its home die, without moving any state. -/
def State.peekBlock (s : State) (l : Loc) (b : Nat) : List Byte := (s.readSpan l (4096 * b) 4096).2.1

/-- Whether a descriptor's read of these spans finds a VALID block whose bytes differ from its check value (R220). -/
def State.mismatch (s : State) (l : Loc) (spans : List Span) : Bool :=
  (blocksOf spans).any (fun b => coversBlock spans b &&
    (let x := s.blkOf l b
     x.valid && crc32c (s.peekBlock l b) != x.check.toNat))

/-- Make VALID the blocks that a generating descriptor wrote whole (R217). -/
def State.generate (s : State) (l : Loc) (spans : List Span) : State :=
  (blocksOf spans).foldl (fun t b =>
    if coversBlock spans b then t.sealBlk l b ⟨BitVec.ofNat 32 (crc32c (t.peekBlock l b)), true⟩ else t) s

/-! ## Storage errors met by a read -/

/-- What storage errors did to a read. -/
inductive Hurt where
  /-- Nothing was lost. -/
  | none
  /-- A scratchpad row was lost (R202). -/
  | row
  /-- An LLS line, LLS scratch data or an HBM transfer was lost (R214, R236). -/
  | data
  deriving DecidableEq, Repr

/-- One corrected HBM symbol (R233, R249, R252): counts, and the mark at the 256th since the last training, of a lane marked
before it too. -/
def State.hbmCorrected (s : State) (k c lane : Nat) : State :=
  let ch := k * 32 + c
  let key := ch * 68 + lane
  let n := mget s.hbm.laneFix key 0 + 1
  let s1 := (s.satFld (.hbmChEcc k c) HbmChEcc.corrected 1)
  let s2 := { s1 with hbm := { s1.hbm with
    laneFix := mset s1.hbm.laneFix key n,
    stitchFix := mset s1.hbm.stitchFix ch (mget s1.hbm.stitchFix ch 0 + 1) } }
  if n = 256 then
    let s3 := { s2 with hbm := { s2.hbm with marks := mset s2.hbm.marks ch (uniq (mget s2.hbm.marks ch [] ++ [lane])) } }
    let s4 := (s3.setFld (.hbmChState k c) HbmChState.lastMarked lane).satFld (.hbmChState k c) HbmChState.marked 1
    let s5 := if s4.fld (.hbmChState k c) HbmChState.state = 0 then s4.setFld (.hbmChState k c) HbmChState.state 1 else s4
    s5.log { code := 0x4501, unit := k, detail := det [(1, k), (1, c), (1, lane)], whr := [(3, k), (4, c), (5, lane)] }
  else s2

/-- One uncorrectable HBM transfer (R236): zeros, poison, HBM_UNCORRECTED. -/
def State.hbmLost (s : State) (k c byte : Nat) (p : Option Nat) : State :=
  let addr := hbmAddr (k * 32 + c) (byte / 64 * 64)
  let s1 := { s with hbm := { s.hbm with mem := memZero s.hbm.mem addr 64 } }
  let s2 := (s1.modHblk addr (fun h => { h with poison := h.poison ||| BitVec.ofNat 64 (2 ^ (byte % 4096 / 64)) })).satFld
    (.hbmChEcc k c) HbmChEcc.uncorrected 1
  s2.log {
    code := 0x1501, part := p, unit := k,
    detail := det [(1, k), (1, c), (2, 0), (8, byte / 64 * 64)], whr := [(3, k), (4, c)] }

/-- A check value was lost: the block is OPEN and CHK_STORE_LOST is logged (R216, R483). -/
def State.checkLost (s : State) (l : Loc) (b : Nat) : State :=
  match l with
  | .spm c => (s.spmOpen c b).log {
      code := 0x1401, part := s.ownerOf c, core := some c,
      detail := det [(1, 0), (1, dieOf (s.physOf (some c))), (2, 0), (8, 4096 * b)] }
  | .lls d p => (s.modSlice d p (fun x => { x with blk := mset x.blk b { mget x.blk b Blk.zero with valid := false } })).log {
      code := 0x1401, part := some p, unit := d,
      detail := det [(1, 1), (1, d), (2, 0), (8, 4096 * b)], whr := [(0, d)] }
  | .hbm p => match s.hbmPlace p (4096 * b), s.homeDie p (4096 * b) with
    | some (ch, byte), some d => (s.modSlice d p (fun x => { x with
        pend := x.pend.map (fun e => if e.idx = b then { e with valid := false } else e) })).log {
          code := 0x1401, part := some p, unit := d,
          detail := det [(1, 2), (1, d), (1, ch / 32), (1, 0), (8, byte / 4096 * 4096)], whr := [(0, d)] }
    | _, _ => s

/-- An uncorrectable error in a line or in LLS scratch data (R214): whether data was lost. -/
def State.llsHit (s : State) (d p a : Nat) : State × Bool :=
  if s.llsCache d p then
    match (s.slice d p).lines.find? (fun l => l.idx = a / 128) with
    | none => (s, false)
    | some l =>
      if l.dirty then
        let s1 := s.modSlice d p (fun x => { x with
          lines := x.lines.map (fun y => if y.idx = l.idx then { y with bytes := [] } else y),
          pend := x.pend.map (fun e => if e.idx = a / 4096 then { e with valid := false } else e) })
        ((s1.satFld (.llsErr d) LlsErr.uncorrected 1).log {
          code := 0x1402, part := some p, unit := d,
          detail := det [(1, d), (1, s.fld (.llsSlice d p) LlsSlice.firstWay), (2, 0), (4, a / 128 % 49152)], whr := [(0, d)] }, true)
      else
        ((s.modSlice d p (fun x => { x with lines := x.lines.filter (fun y => y.idx ≠ l.idx) })).satFld
          (.llsErr d) LlsErr.corrected 1, false)
  else
    let s1 := s.modSlice d p (fun x => { x with
      mem := memZero x.mem (a / 128 * 128) 128, blk := mset x.blk (a / 4096) { mget x.blk (a / 4096) Blk.zero with valid := false } })
    ((s1.satFld (.llsErr d) LlsErr.uncorrected 1).log {
      code := 0x1402, part := some p, unit := d,
      detail := det [(1, d), (1, s.fld (.llsSlice d p) LlsSlice.firstWay + a / 6291456), (2, 0), (4, a / 128)], whr := [(0, d)] }, true)

/-- Whether a partition's HBM offset lies in a transfer. -/
def State.inTransfer (s : State) (p a ch byte : Nat) : Bool :=
  match s.hbmPlace p a with
  | none => false
  | some (c, b) => c = ch ∧ b / 64 = byte / 64

/-- Whether a read of spans of a partition's region takes a transfer from its channel (R211, R236): one that the spans
touch, and under a cache-mode slice either one of a line that must be filled. -/
def State.hbmTouched (s : State) (p : Nat) (spans : List Span) (ch byte : Nat) : Bool :=
  spans.any (fun (a, n) => (pieces 64 a n).any (fun (x, _) => match s.homeDie p x with
    | none => s.inTransfer p x ch byte
    | some d => !(s.slice d p).lines.any (fun l => l.idx = x / 128)
        && (s.inTransfer p (x / 128 * 128) ch byte || s.inTransfer p (x / 128 * 128 + 64) ch byte)))

/-- One upset against a read of spans of a memory: nothing when the read does not touch its place. -/
def State.upset (s : State) (l : Loc) (spans : List Span) (u : Upset) : State × Hurt :=
  match u, l with
  | .spmFixed c a, .spm c' => if c = c' ∧ touchesRange spans (a / 8 * 8) 8 then (s.spmCorrected c a, .none) else (s, .none)
  | .spmLost c a ok, .spm c' =>
    if c = c' ∧ touchesRange spans (a / 128 * 128) 128 then (s.spmLost c a ok, .row) else (s, .none)
  | .spmCheck c b, .spm c' => if c = c' ∧ coversBlock spans b then (s.checkLost l b, .none) else (s, .none)
  | .llsFixed d p a, .lls d' p' =>
    if d = d' ∧ p = p' ∧ touchesRange spans (a / 8 * 8) 8 then (s.satFld (.llsErr d) LlsErr.corrected 1, .none) else (s, .none)
  | .llsLost d p a, .lls d' p' =>
    if d = d' ∧ p = p' ∧ touchesRange spans (a / 128 * 128) 128 then
      let (s1, lost) := s.llsHit d p a
      (s1, if lost then .data else .none)
    else (s, .none)
  | .llsCheck d p b, .lls d' p' => if d = d' ∧ p = p' ∧ coversBlock spans b then (s.checkLost l b, .none) else (s, .none)
  | .llsFixed d p a, .hbm p' =>
    if p = p' ∧ s.homeDie p a = some d ∧ touchesRange spans (a / 8 * 8) 8 then (s.satFld (.llsErr d) LlsErr.corrected 1, .none)
    else (s, .none)
  | .llsLost d p a, .hbm p' =>
    if p = p' ∧ s.homeDie p a = some d ∧ touchesRange spans (a / 128 * 128) 128 then
      let (s1, lost) := s.llsHit d p a
      (s1, if lost then .data else .none)
    else (s, .none)
  | .llsCheck d p b, .hbm p' =>
    if p = p' ∧ s.homeDie p (4096 * b) = some d ∧ coversBlock spans b ∧ (s.slice d p).pend.any (fun e => e.idx = b) then
      (s.checkLost l b, .none)
    else (s, .none)
  | .hbmFixed k c a lane, .hbm p => if s.hbmTouched p spans (k * 32 + c) a then (s.hbmCorrected k c lane, .none) else (s, .none)
  | .hbmLost k c a, .hbm p => if s.hbmTouched p spans (k * 32 + c) a then (s.hbmLost k c a (some p), .data) else (s, .none)
  | _, _ => (s, .none)

/-- The worse of two hurts. -/
def Hurt.max (a b : Hurt) : Hurt := if a = .none then b else a

/-- The channel and transfer of an HBM upset. -/
def hbmPlaceOf : Upset → Option (Nat × Nat)
  | .hbmFixed k c a _ | .hbmLost k c a => some (k * 32 + c, a / 64)
  | _ => none

/-- Whether an upset makes a transfer wrong in another symbol than that of `lane`. -/
def otherSymbol (lane : Nat) : Upset → Bool
  | .hbmFixed _ _ _ l => l ≠ lane
  | .hbmLost _ _ _ => true
  | _ => false

/-- Whether an upset names one of the 68 lanes of a channel (R233). -/
def laneOk : Upset → Bool
  | .hbmFixed _ _ _ lane => lane < 68
  | _ => true

/-- The upsets of a command, each transfer of HBM once: the code of R233 corrects one of its 68 symbols, and a transfer with
two wrong ones is uncorrectable (R249). -/
def merged (all : List Upset) : List Upset → List Upset
  | [] => []
  | u :: rest =>
    match u with
    | .hbmFixed k c a lane =>
      if rest.any (fun v => hbmPlaceOf v = hbmPlaceOf u) then merged all rest
      else (if all.any (fun v => hbmPlaceOf v = hbmPlaceOf u ∧ otherSymbol lane v) then .hbmLost k c a else u) :: merged all rest
    | .hbmLost _ _ _ => if rest.any (fun v => hbmPlaceOf v = hbmPlaceOf u) then merged all rest else u :: merged all rest
    | _ => u :: merged all rest

/-- All the upsets of a command against one read. -/
def State.upsets (s : State) (l : Loc) (spans : List Span) (us : List Upset) : State × Hurt :=
  (merged (us.filter laneOk) (us.filter laneOk)).foldl (fun (t, h) u => let (t1, h1) := t.upset l spans u
                                        (t1, h.max h1)) (s, .none)

/-- The reads that a write of part of an HBM transfer, or of part of a cached line, makes first (R211, R236). -/
def State.preWrite (s : State) (l : Loc) (a n : Nat) (us : List Upset) : State :=
  match l with
  | .hbm p =>
    let g := if (s.homeDie p a).isSome then 128 else 64
    let e (x : Nat) : List Span := if x % g = 0 then [] else [(x / g * g, g)]
    (s.upsets l (e a ++ e (a + n)) us).1
  | _ => s

/-- Read spans in order with the upsets they meet: bytes and hurt. -/
def State.readSpans (s : State) (l : Loc) (spans : List Span) (us : List Upset) : State × List Byte × Hurt :=
  let (s1, h) := s.upsets l spans us
  let (s2, bs, bad) := spans.foldl (fun (t, acc, bad) (a, n) => let (t1, bs, b) := t.readSpan l a n
                                                                (t1, acc ++ bs, bad || b)) (s1, [], false)
  (s2, bs, h.max (if bad then .data else .none))

/-- Write runs of bytes: whether one was not performed (R236). -/
def State.writeRuns (s : State) (l : Loc) (runs : List (Nat × List Byte)) : State × Bool :=
  runs.foldl (fun (t, bad) (a, bs) => let (t1, b) := t.writeSpan l a bs
                                      (t1, bad || b)) (s, false)

/-- Write runs as a generating descriptor: blocks written whole become VALID, the others OPEN (R217, R218). -/
def State.writeGen (s : State) (l : Loc) (runs : List (Nat × List Byte)) : State × Bool :=
  let (s1, bad) := s.writeRuns l runs
  (s1.generate l (runs.map (fun (a, bs) => (a, bs.length))), bad)

end Sys2Proof.Machine
end

