-- ==== Sys2Proof/Machine/Sync.lean ====
section
/-! DEFINITION. Tacks, receive counters and cinch lines as shared operations (R261 to R283): sets and clears with their
redundant counts, waits met by them, arrivals and releases. -/
namespace Sys2Proof.Machine

/-! ## Core tacks -/

/-- Whether core tack `t` is set. -/
def State.tackSet? (s : State) (c t : Nat) : Bool := bitAt (s.fld (.coreTack c) CoreTack.value) t
/-- Whether grid tack `g` is set. -/
def State.gtackSet? (s : State) (g : Nat) : Bool := s.gtacks.getLsbD g

/-- The tack that a descriptor's header waits on: kind 0 none, 1 core, 2 grid; and its index (R84). -/
def Desc.wait (d : Desc) : Nat × Nat := (wbits (d.words.getD 0 0) 12 2, wbits (d.words.getD 0 0) 14 10)
/-- Whether the header clears the tack it waits on (R84). -/
def Desc.waitClear (d : Desc) : Bool := wbits (d.words.getD 0 0) 24 1 = 1
/-- The tack that a descriptor's header sets (R84). -/
def Desc.set (d : Desc) : Nat × Nat := (wbits (d.words.getD 0 0) 25 2, wbits (d.words.getD 0 0) 27 10)

/-- Mark the descriptors that stand at the heads of a core's queues and wait on a tack: their waits were met in the same
cycle (R91). -/
def Core.meetHeads (k : Core) (kind idx : Nat) : Core :=
  { k with queues := k.queues.map (fun (e, q) => (e, match q with
      | [] => []
      | d :: r => (if d.wait = (kind, idx) then { d with met := true } else d) :: r)) }

/-- One cycle of core-tack clears and sets, each a mask: clears first, then sets; a set of a set tack and a clear of a
clear tack are redundant (R262, R264). -/
def State.tackCycle (s : State) (c clr set : Nat) : State :=
  let v := s.fld (.coreTack c) CoreTack.value
  let red := popcount 32 (v &&& set) + popcount 32 (clr - (clr &&& v))
  (s.setFld (.coreTack c) CoreTack.value ((v - (v &&& clr)) ||| set)).satFld (.coreSyncStat c) CoreSyncStat.redundant red

/-- Threads of a core parked on a core tack that is set become ready, and the waits that clear it clear it once
(R261 to R264). -/
def State.wakeTack (s : State) (c t : Nat) : State :=
  match mfind s.cores c with
  | none => s
  | some k =>
    if s.tackSet? c t then
      let ws := k.threads.filter (fun (_, th) => th.stat = .parked (.tack t true) ∨ th.stat = .parked (.tack t false))
      let clear := ws.any (fun (_, th) => th.stat = .parked (.tack t true))
      let s1 := ws.foldl (fun x (i, _) => x.unpark c i) s
      if clear then (s1.tackCycle c (2 ^ t) 0).modCore c (fun k => k.meetHeads 1 t) else s1
    else s

/-- Set a core tack. -/
def State.setTack (s : State) (c t : Nat) : State := (s.tackCycle c 0 (2 ^ t)).wakeTack c t
/-- Clear a core tack. -/
def State.clearTack (s : State) (c t : Nat) : State := s.tackCycle c (2 ^ t) 0

/-! ## Grid tacks -/

/-- The partition whose grant range holds a grid tack. -/
def State.gtOwner (s : State) (g : Nat) : Option Nat :=
  s.partNums.find? (fun p => s.gtFirst p ≤ g ∧ g < s.gtFirst p + s.gtCount p)

/-- Set or clear a grid tack without waking anybody; a redundant change is counted in its partition (R264). -/
def State.gtackPut (s : State) (g : Nat) (v : Bool) : State :=
  let s1 := if s.gtackSet? g = v then
      (match s.gtOwner g with
      | none => s
      | some p => s.satFld (.partSyncStat p) PartSyncStat.redundant 1) else s
  { s1 with gtacks := if v then s1.gtacks ||| BitVec.ofNat 1024 (2 ^ g) else s1.gtacks &&& ~~~ BitVec.ofNat 1024 (2 ^ g) }

/-- Threads of every core parked on a grid tack that is set become ready; it is cleared once when a wait clears it. -/
def State.wakeGtack (s : State) (g : Nat) : State :=
  if s.gtackSet? g then
    let ws := s.cores.flatMap (fun (c, k) => (k.threads.filter (fun (_, th) =>
      th.stat = .parked (.gtack g true) ∨ th.stat = .parked (.gtack g false))).map (fun (i, th) => (c, i, th.stat)))
    let s1 := ws.foldl (fun x (c, i, _) => x.unpark c i) s
    if ws.any (fun (_, _, st) => st = .parked (.gtack g true)) then
      let s2 := s1.gtackPut g false
      { s2 with cores := s2.cores.map (fun (c, k) => (c, k.meetHeads 2 g)) }
    else s1
  else s

/-- Set a grid tack. -/
def State.setGtack (s : State) (g : Nat) : State := (s.gtackPut g true).wakeGtack g
/-- Clear a grid tack. -/
def State.clearGtack (s : State) (g : Nat) : State := s.gtackPut g false

/-- Set the tack of a completed descriptor (R90, R265). -/
def State.setDescTack (s : State) (c : Nat) (d : Desc) : State :=
  match d.set with
  | (1, t) => s.setTack c t
  | (2, g) => s.setGtack g
  | _ => s

/-- Whether a head's wait is satisfied now (R84, R88). -/
def State.waitOk (s : State) (c : Nat) (d : Desc) : Bool :=
  d.met || match d.wait with
    | (1, t) => s.tackSet? c t
    | (2, g) => s.gtackSet? g
    | _ => true

/-- The clear of a satisfied wait: once, together with the other heads that wait on the tack (R91). -/
def State.takeWait (s : State) (c : Nat) (d : Desc) : State :=
  if d.met ∨ !d.waitClear then s
  else match d.wait with
    | (1, t) => (s.clearTack c t).modCore c (fun k => k.meetHeads 1 t)
    | (2, g) =>
      let s1 := s.clearGtack g
      { s1 with cores := s1.cores.map (fun (x, k) => (x, k.meetHeads 2 g)) }
    | _ => s

/-! ## Receive counters -/

/-- Whether count `c` has reached threshold `h`, on the low 32 bits (R267). -/
def reached (c h : Nat) : Bool := (c + 2 ^ 32 - h % 2 ^ 32) % 2 ^ 32 < 2 ^ 31

/-- Low 32 bits of a counter's byte count. -/
def State.rxLow (s : State) (p ctr : Nat) : Nat := s.fld (.partRxBytes p ctr) PartRxBytes.bytes % 2 ^ 32

/-- The armed counter sets its tack once when its threshold is reached, and is disarmed (R270). -/
def State.fireArm (s : State) (p ctr : Nat) : State :=
  if s.fld (.partRxArm p ctr) PartRxArm.armed = 1 ∧ reached (s.rxLow p ctr) (s.fld (.partRxArm p ctr) PartRxArm.threshold) then
    (s.setFld (.partRxArm p ctr) PartRxArm.armed 0).setGtack (s.fld (.partRxArm p ctr) PartRxArm.tack)
  else s

/-- Threads parked by RXWAIT whose threshold is reached become ready (R270). -/
def State.wakeRx (s : State) (p ctr : Nat) : State :=
  let low := s.rxLow p ctr
  ((s.coresOf p).flatMap (fun c => match mfind s.cores c with
    | none => []
    | some k => k.threads.filterMap (fun (i, th) => match th.stat with
      | .parked (.rx x h) => if x = ctr ∧ reached low h then some (c, i) else none
      | _ => none))).foldl (fun t (c, i) => t.unpark c i) s

/-- Add a packet to a sum of the stitch (R473). -/
def addPacket (x : Nat × Nat) (bytes : Nat) : Nat × Nat := (x.1 + bytes, x.2 + 1)
/-- The path that writes packets has written one (R473). -/
def State.noteWritten (s : State) (p bytes : Nat) : State := s.modPart p (fun q => { q with wrote := addPacket q.wrote bytes })
/-- The path that updates receive counters counts one (R266, R473). -/
def State.countPacket (s : State) (p ctr bytes : Nat) : State :=
  ((s.wrapFld (.partRxBytes p ctr) PartRxBytes.bytes bytes).wrapFld (.partRxPkts p ctr) PartRxPkts.packets 1).modPart p (fun q =>
    { q with counted := addPacket q.counted bytes })
/-- A packet that has been written is counted (R266); its counter may fire and wake threads. -/
def State.rxCount (s : State) (p ctr bytes : Nat) : State :=
  (((s.noteWritten p bytes).countPacket p ctr bytes).fireArm p ctr).wakeRx p ctr

/-- Zero and disarm a counter (R271). -/
def State.rxZero (s : State) (p ctr : Nat) : State :=
  ((s.setReg (.partRxBytes p ctr) 0).setReg (.partRxPkts p ctr) 0).setReg (.partRxArm p ctr) 0

/-! ## Cinch lines -/

/-- The line as the partition's SYNC_USE lists it. -/
def State.lineUse (s : State) (p l : Nat) : Option CinchUse :=
  match mfind s.parts p with
  | none => none
  | some q => q.lines.find? (fun x => x.line = l)

/-- The partition whose strap lists a line. -/
def State.linePart (s : State) (l : Nat) : Option (Nat × CinchUse) :=
  s.parts.findSome? (fun (p, q) => (q.lines.find? (fun x => x.line = l)).map (fun u => (p, u)))

/-- The arrivals at a line. -/
def State.cinch (s : State) (l : Nat) : CinchState := mget s.cinches l ⟨[], false, []⟩

/-- A thread arrives at a line and stays parked until it releases (R274, R278). -/
def State.arrive (s : State) (c t l : Nat) : State :=
  let x := s.cinch l
  ({ s with cinches := mset s.cinches l { x with arrived := x.arrived ++ [c * 8 + t] } }).modThread c t
    (fun th => { th with stat := .parked (.cinch l) })

/-- Whether every participating core has arrived (R274). -/
def State.allArrived (s : State) (u : CinchUse) : Bool :=
  u.cores.all (fun c => (List.range 8).all (fun t => !u.mask.getLsbD t || (s.cinch u.line).arrived.contains (c * 8 + t)))

/-- The release of a line: the threads parked at it become ready and every arrival is cleared (R275); a thread that STOP_ALL
has stopped since it arrived stays stopped (R109). -/
def State.releaseLine (s : State) (l : Nat) : State :=
  (s.cinch l).arrived.foldl (fun t a =>
    if (t.thread (a / 8) (a % 8)).stat = .parked (.cinch l) then t.unpark (a / 8) (a % 8) else t)
    { s with cinches := mdel s.cinches l }

/-- Acknowledgement of one far store of a thread (R73, R278, R360): a fence ends, a cinch goes on to its arrival, a
waiting 17th store issues again. -/
def State.ackStore (s : State) (c t : Nat) : State :=
  let s1 := s.modThread c t (fun th => { th with unacked := th.unacked - 1 })
  let th := s1.thread c t
  if th.stat = .parked .storeFull then s1.unpark c t
  else if th.unacked = 0 then
    match th.stat with
    | .parked .fence => s1.unpark c t
    | .parked (.cinchFence l) => s1.arrive c t l
    | _ => s1
  else s1

end Sys2Proof.Machine
end

