-- ==== Sys2Proof/WellFormed.lean ====
section
/-! DEFINITION. Well-formed commands: the operands name units that the package has (R9, R13, R227, R388, R425, R485). -/
namespace Sys2Proof

/-- A function of the host port: the PF or VF 1 to 32 (R427). -/
def Path.wf : Path → Bool
  | .pf => true
  | .vf n => decide (1 ≤ n ∧ n ≤ 32)

/-- An interrupt register of a partition 0 to 31, of the device or of power. -/
def IrqReg.wf : IrqReg → Bool
  | .part p => decide (p < 32)
  | _ => true

/-- A DOE mailbox belongs to the PF or to VF 1 to 32 (R447). -/
def Transport.wf : Transport → Bool
  | .vfDoe n => decide (1 ≤ n ∧ n ≤ 32)
  | _ => true

/-- A checked word lies in its storage (R454, R457). -/
def GfUpset.wf (g : GfUpset) : Bool :=
  if g.cls = 0 then decide (g.unit < 512 ∧ g.index < 32)
  else if g.cls = 1 then decide (g.unit < 32 ∧ g.index < 1024)
  else if g.cls = 2 then decide (g.unit < 32 ∧ g.index < 256)
  else if g.cls = 3 then decide (g.unit < 64 ∧ g.index < 194)
  else if g.cls = 4 then decide (g.unit < 32 ∧ g.index < 64)
  else if g.cls = 5 then decide (g.index ≤ 32)
  else if g.cls = 8 then decide (g.unit < 18 ∧ g.index < 32)
  else if g.cls = 9 then decide (g.unit < 512 ∧ g.index < 256)
  else decide (g.cls = 6 ∨ g.cls = 7) && decide (g.index < 1024)

/-- An entry of a fabric table exists: 1,024 routes and translations, 18 words in each of 32 reach records (R344). -/
def GfTable.wf (tab : GfTable) (i w : Nat) : Bool :=
  match tab with
  | .reach => decide (i < 32 ∧ w < 18)
  | _ => decide (i < 1024 ∧ w = 0)

/-- The operands of a command name units of the package: 512 logical cores, 32 partitions, 64 fabric and four Ethernet
ports of 9 lines, 8 stacks of 32 channels, 4 dies, 20 reporting blocks; a flit has 128 bytes, a lane tag 8, a marker
payload 112 (R329, R336, R391). -/
def Instr.wf : Instr → Bool
  | .commitSlotA => true
  | .commitSlotB => true
  | .commitPush => true
  | .arm => true
  | .drain => true
  | .drainTakesEffect => true
  | .writeSlotA => true
  | .writeSlotB => true
  | .slotWriteDone => true
  | .raiseSeq => true
  | .strapPush via p => via.wf && decide (p < 32)
  | .unload via p => via.wf && decide (p < 32)
  | .release p => decide (p < 32)
  | .releaseStepEnd => true
  | .strapQueueStart => true
  | .treeCommitStepEnd _ => true
  | .harnTimeout => true
  | .strapCommitStepEnd => true
  | .harnBootWrite _ => true
  | .registerWrite via _ _ => via.wf
  | .malformedBarAccess via _ _ _ => via.wf
  | .thrmMaxholdRead d => decide (d < 23)
  | .errIntakeRead => true
  | .irqStatusClear which _ => which.wf
  | .add c _ _ _ => decide (c < 512)
  | .sub c _ _ _ => decide (c < 512)
  | .and c _ _ _ => decide (c < 512)
  | .or c _ _ _ => decide (c < 512)
  | .xor c _ _ _ => decide (c < 512)
  | .shl c _ _ _ => decide (c < 512)
  | .shr c _ _ _ => decide (c < 512)
  | .sra c _ _ _ => decide (c < 512)
  | .slt c _ _ _ => decide (c < 512)
  | .sltu c _ _ _ => decide (c < 512)
  | .min c _ _ _ => decide (c < 512)
  | .max c _ _ _ => decide (c < 512)
  | .mul c _ _ _ => decide (c < 512)
  | .mulh c _ _ _ => decide (c < 512)
  | .div c _ _ _ => decide (c < 512)
  | .rem c _ _ _ => decide (c < 512)
  | .addi c _ _ _ => decide (c < 512)
  | .andi c _ _ _ => decide (c < 512)
  | .ori c _ _ _ => decide (c < 512)
  | .xori c _ _ _ => decide (c < 512)
  | .shli c _ _ _ => decide (c < 512)
  | .shri c _ _ _ => decide (c < 512)
  | .srai c _ _ _ => decide (c < 512)
  | .slti c _ _ _ => decide (c < 512)
  | .sltui c _ _ _ => decide (c < 512)
  | .ld c _ _ _ _ _ => decide (c < 512)
  | .st c _ _ _ _ => decide (c < 512)
  | .reservedInstruction f => decide (f.core < 512)
  | .beq c _ _ _ => decide (c < 512)
  | .bne c _ _ _ => decide (c < 512)
  | .blt c _ _ _ => decide (c < 512)
  | .bge c _ _ _ => decide (c < 512)
  | .bltu c _ _ _ => decide (c < 512)
  | .bgeu c _ _ _ => decide (c < 512)
  | .jal c _ _ => decide (c < 512)
  | .lui c _ _ => decide (c < 512)
  | .jalr c _ _ _ => decide (c < 512)
  | .csrr c _ _ => decide (c < 512)
  | .csrw c _ _ => decide (c < 512)
  | .tstart c _ _ => decide (c < 512)
  | .yield c => decide (c < 512)
  | .quantumExpiry c => decide (c < 512)
  | .endThread c => decide (c < 512)
  | .fenceL c => decide (c < 512)
  | .fld c _ _ _ => decide (c < 512)
  | .fst c _ _ _ => decide (c < 512)
  | .fadd32 c _ _ _ _ => decide (c < 512)
  | .fadd64 c _ _ _ _ => decide (c < 512)
  | .faddf c _ _ _ _ => decide (c < 512)
  | .fcas32 c _ _ _ _ _ => decide (c < 512)
  | .fcas64 c _ _ _ _ _ => decide (c < 512)
  | .fswp32 c _ _ _ _ => decide (c < 512)
  | .fswp64 c _ _ _ _ => decide (c < 512)
  | .fmin32 c _ _ _ _ => decide (c < 512)
  | .fmin64 c _ _ _ _ => decide (c < 512)
  | .fmax32 c _ _ _ _ => decide (c < 512)
  | .fmax64 c _ _ _ _ => decide (c < 512)
  | .tset c _ => decide (c < 512)
  | .tclr c _ => decide (c < 512)
  | .twait c _ => decide (c < 512)
  | .twaitc c _ => decide (c < 512)
  | .ttest c _ _ => decide (c < 512)
  | .gtset c _ => decide (c < 512)
  | .gtclr c _ => decide (c < 512)
  | .gtwait c _ => decide (c < 512)
  | .gtwaitc c _ => decide (c < 512)
  | .gttest c _ _ => decide (c < 512)
  | .gtsetr c _ _ => decide (c < 512)
  | .cinch c _ => decide (c < 512)
  | .cinchRelease _ => true
  | .rxarm c _ _ => decide (c < 512)
  | .rxwait c _ => decide (c < 512)
  | .issue c _ _ _ => decide (c < 512)
  | .descriptorComplete c _ _ => decide (c < 512)
  | .resume c => decide (c < 512)
  | .stopAll c => decide (c < 512)
  | .clearFault c => decide (c < 512)
  | .mma c _ => decide (c < 512)
  | .matrixDrain c => decide (c < 512)
  | .lpLoad c _ => decide (c < 512)
  | .lpAdd c _ => decide (c < 512)
  | .zero c => decide (c < 512)
  | .stripFailure c strip => decide (c < 512) && decide (strip < 4)
  | .vectorAdd c _ => decide (c < 512)
  | .vectorMultiply c _ => decide (c < 512)
  | .vectorFma c _ => decide (c < 512)
  | .vectorMax c _ => decide (c < 512)
  | .vectorMin c _ => decide (c < 512)
  | .convert c _ => decide (c < 512)
  | .rowSum c _ => decide (c < 512)
  | .rowMax c _ => decide (c < 512)
  | .rowSoftmax c _ => decide (c < 512)
  | .division c _ => decide (c < 512)
  | .sqrt c _ => decide (c < 512)
  | .rsqrt c _ => decide (c < 512)
  | .reciprocal c _ => decide (c < 512)
  | .exp2 c _ => decide (c < 512)
  | .log2 c _ => decide (c < 512)
  | .sinCos c _ => decide (c < 512)
  | .tanh c _ => decide (c < 512)
  | .sigmoid c _ => decide (c < 512)
  | .erf c _ => decide (c < 512)
  | .gelu c _ => decide (c < 512)
  | .copy c _ => decide (c < 512)
  | .fill c _ => decide (c < 512)
  | .digest c _ => decide (c < 512)
  | .digestWithRoot c _ => decide (c < 512)
  | .mcastPut c _ => decide (c < 512)
  | .mcastColl c _ => decide (c < 512)
  | .reduceScatter c _ => decide (c < 512)
  | .reduceScatterCombine c _ _ => decide (c < 512)
  | .allGather c _ => decide (c < 512)
  | .counts c _ => decide (c < 512)
  | .expand c _ => decide (c < 512)
  | .compact c _ => decide (c < 512)
  | .rowScan c _ => decide (c < 512)
  | .rowPack c _ => decide (c < 512)
  | .rowUnpack c _ => decide (c < 512)
  | .gate c _ => decide (c < 512)
  | .slots c _ => decide (c < 512)
  | .xchg c _ => decide (c < 512)
  | .combine c _ => decide (c < 512)
  | .pendingBlockWriteback d p => decide (d < 4) && decide (p < 32)
  | .scrubRead k ch _ => decide (k < 8) && decide (ch < 32)
  | .hbmChannelLost k ch => decide (k < 8) && decide (ch < 32)
  | .hbmStackLost k => decide (k < 8)
  | .marginStart _ => true
  | .marginDone _ _ => true
  | .stitchTick gf => gf.all GfUpset.wf
  | .marker port payload _ _ => decide (port < 64) && decide (payload.length = 112)
  | .inputLost i => decide (i < 4)
  | .standbyTakeover => true
  | .segmentDeadline p => decide (p < 32)
  | .slipToken _ => true
  | .cinchNote _ => true
  | .rejoin => true
  | .partStchCtlWrite p _ => decide (p < 32)
  | .partRxCtlWrite p _ => decide (p < 32)
  | .partGtackCtlWrite p _ => decide (p < 32)
  | .flagRelease p _ => decide (p < 32)
  | .read _ _ => true
  | .atomic _ _ => true
  | .write _ _ => true
  | .tackSet _ => true
  | .xchgWrite _ _ => true
  | .collWrite _ _ => true
  | .collCount _ _ => true
  | .rspData _ _ => true
  | .rspAck _ => true
  | .rspFault _ => true
  | .ackCoalesceTimer _ => true
  | .packetForward _ => true
  | .flitReceive port bytes => decide (port < 64) && decide (bytes.length = 128)
  | .flitSlot port => decide (port < 64)
  | .nak port => decide (port < 64)
  | .nakRepeat port => decide (port < 68)
  | .ackTimer port => decide (port < 64)
  | .replayTimeout port => decide (port < 64)
  | .fabTableCtlWrite _ => true
  | .fabRouteWrite n _ => decide (n < 1024)
  | .fabXlateWrite n _ => decide (n < 1024)
  | .fabReachWrite p i _ => decide (p < 32) && decide (i < 18)
  | .gfTableReload tab i w _ => tab.wf i w
  | .credReq port _ => decide (port < 64)
  | .credHold port _ => decide (port < 64)
  | .credFence port _ => decide (port < 64)
  | .credSet port _ => decide (port < 64)
  | .credDone port _ => decide (port < 64)
  | .resyncTimeout port j _ => decide (port < 64) && decide (j < 194)
  | .pktAbort port _ => decide (port < 64)
  | .pktAbortAck port _ => decide (port < 64)
  | .ctrlResend port _ => decide (port < 64)
  | .partRegionWrite p i w _ => decide (p < 32) && decide (i < 256) && decide (w < 4)
  | .laneTag port line tag => decide (port < 64) && decide (line < 9) && decide (tag.length = 8)
  | .seekWaitEnd port => decide (port < 64)
  | .trainHello port _ => decide (port < 64)
  | .trainDone port => decide (port < 64)
  | .trainTimeout port => decide (port < 64)
  | .echoReq port _ => decide (port < 64)
  | .echoRsp port _ _ => decide (port < 64)
  | .burnishDue port line => decide (port < 64) && decide (line < 9)
  | .burnishReq port line => decide (port < 64) && decide (line < 9)
  | .burnishReady port line => decide (port < 64) && decide (line < 9)
  | .swap port lane line _ => decide (port < 64) && decide (lane < 8) && decide (line < 9)
  | .burnishDone port line => decide (port < 64) && decide (line < 9)
  | .optRingAlarm port line _ => decide (port < 64) && decide (line < 9)
  | .mislock port line _ => decide (port < 64) && decide (line < 9)
  | .mislockReport port line => decide (port < 64) && decide (line < 9)
  | .mislockDone port line _ => decide (port < 64) && decide (line < 9)
  | .laneMove port lane line _ => decide (port < 64) && decide (lane < 8) && decide (line < 9)
  | .retire port line => decide (port < 64) && decide (line < 9)
  | .optFeedLow j _ => decide (j < 20)
  | .feedRestored j _ => decide (j < 20)
  | .slewMicrosecond => true
  | .portDisable port _ => decide (port < 68)
  | .opticalLoopback port _ => decide (port < 68)
  | .ethFrameReceive e _ _ => decide (e < 4)
  | .ethLinkUp e => decide (e < 4)
  | .ethLinkFail e => decide (e < 4)
  | .ethPeerReplayTimeout n => decide (n < 1024)
  | .ethTxComplete p i e => decide (p < 32) && decide (i < 256) && decide (e < 4)
  | .partEthqCtlWrite p i _ => decide (p < 32) && decide (i < 256)
  | .ethqTxTailWrite p i _ => decide (p < 32) && decide (i < 256)
  | .ethqRxTailWrite p i _ => decide (p < 32) && decide (i < 256)
  | .ethqIrqGap p i => decide (p < 32) && decide (i < 256)
  | .hostCompletion _ _ _ => true
  | .hostCompletionTimeout _ => true
  | .vfFlr n => decide (1 ≤ n ∧ n ≤ 32)
  | .pfFlr => true
  | .vfEnableClear => true
  | .pcieHotReset => true
  | .getVersion tr => tr.wf
  | .getCapabilities tr => tr.wf
  | .negotiateAlgorithms tr => tr.wf
  | .getDigests tr => tr.wf
  | .getCertificate tr => tr.wf
  | .challenge tr _ => tr.wf
  | .getMeasurements tr _ => tr.wf
  | .setEndpointId _ => true
  | .pldmDiscovery => true
  | .pldmSensorRead _ => true
  | .pldmFirmwareUpdate _ _ => true
  | .eventRecordWrite _ _ => true
  | .errCapCtlWrite b _ => decide (b < 20)
  | .awlScheduledStart _ => true
  | .awlDeclaration p _ => decide (p < 32)
  | .awlKernelDone c _ _ => decide (c < 512)
  | .stepBegin p => decide (p < 32)
  | .stepClose p => decide (p < 32)
  | .stepFoldDone p => decide (p < 32)
  | .stepCommit p => decide (p < 32)
  | .replayStart p => decide (p < 32)
  | .compare p _ => decide (p < 32)
  | .powerSample _ _ _ => true
  | .sagWarn _ => true
  | .sagWarnEnd => true
  | .sagReset _ => true
  | .sagResetRelease => true
  | .pwrGrantWrite p _ => decide (p < 32)
  | .sensorRead rd => rd.all (fun x => decide (x.1 < 172))
  | .tripHoldEnd => true
  | .standbyPowerGood => true
  | .standbyPowerLoss => true
  | .railRamp => true
  | .perstN _ => true
  | .sysRstN _ => true
  | .warmReset => true
  | .raiseFwSeq => true
  | .trstN => true
  | .bootStart _ => true
  | .selftestReport d _ => decide (d < 4)
  | .primaryTimeout => true
  | .bootDone => true
  | .refclkLost => true
  | .d2dRetry l => decide (l < 8)
  | .d2dLinkLost l => decide (l < 8)
  | .devLoopStart _ => true
  | .devLoopDone _ => true
  | .idcode => true
  | .samplePreload _ => true
  | .extest => true
  | .extestPulse => true
  | .extestTrain => true
  | .clamp => true
  | .highz => true
  | .bypass code => decide (¬(1 ≤ code.toNat ∧ code.toNat ≤ 7))
  | .trainingStepEnd port _ _ => decide (port < 64)
  | .burnishStepEnd port line _ => decide (port < 64) && decide (line < 9)
  | .mislockSweepDone port line _ _ => decide (port < 64) && decide (line < 9)
  | .mislockCheckEnd port line _ => decide (port < 64) && decide (line < 9)
  | .refclkRestored => true
  | .replayResponseTimeout p => decide (p < 32)
  | .firmwareCopyWritten => true
  | .platformEventMessage g => decide (g < 64)
  | .msixUnmask via _ => via.wf
  | .pcieLinkUp => true

end Sys2Proof
end

