-- ==== Sys2Proof/Machine/Scalar.lean ====
section
/-! DEFINITION. The scalar engine (R72 to R83, R105, R106, R261, R359): the fields of an instruction word, fetch and
issue of the running thread, and one meaning per local, control and system instruction. -/
namespace Sys2Proof.Machine

/-! ## Instruction words -/

/-- A field of an instruction word (R78). -/
def ifld (w lo n : Nat) : Nat := bitsOf w lo n

/-- The sign-extended imm13 of a word (R78, R80). -/
def sext13 (imm : BitVec 13) : BitVec 64 := imm.signExtend 64

/-- Class 0x0 (R78, R80). -/
def isAlu (w f rd rs1 rs2 : Nat) : Bool := w = rd * 2 ^ 4 + rs1 * 2 ^ 9 + rs2 * 2 ^ 14 + f * 2 ^ 19
/-- Class 0x1 (R78, R80). -/
def isAluImm (w f rd rs1 imm : Nat) : Bool := w = 1 + rd * 2 ^ 4 + rs1 * 2 ^ 9 + f * 2 ^ 14 + imm * 2 ^ 19
/-- Classes 0x2 and 0x3 (R78, R79). -/
def isLocal (w cls width r rs1 imm : Nat) : Bool := w = cls + r * 2 ^ 4 + rs1 * 2 ^ 9 + width * 2 ^ 14 + imm * 2 ^ 19
/-- Class 0x4 (R78, R359): rs3 and, for FST, rd take any value where the function does not use them. -/
def isFar (w f : Nat) (rd : Option Nat) (rs1 : Nat) (rs2 rs3 : Option Nat) : Bool :=
  ifld w 0 4 = 4 && ifld w 19 5 = f && ifld w 29 3 = 0 && ifld w 9 5 = rs1
    && (rd.map (fun r => decide (ifld w 4 5 = r))).getD true && (rs2.map (fun r => decide (ifld w 14 5 = r))).getD true
    && (rs3.map (fun r => decide (ifld w 24 5 = r))).getD true
/-- Class 0x5 (R78, R81). -/
def isBranch (w cond rs1 rs2 imm : Nat) : Bool := w = 5 + rs2 * 2 ^ 4 + rs1 * 2 ^ 9 + cond * 2 ^ 14 + imm * 2 ^ 19
/-- Classes 0x6 and 0x7 (R78, R81). -/
def isUpper (w cls rd imm : Nat) : Bool := w = cls + rd * 2 ^ 4 + imm * 2 ^ 9
/-- Class 0x8 (R78, R81). -/
def isIssue (w eng form rs1 : Nat) : Bool := w = 8 + eng * 2 ^ 4 + form * 2 ^ 7 + rs1 * 2 ^ 9
/-- Class 0x9 with function and [8:4] (R261). -/
def isSync (w fn sub : Nat) : Bool :=
  ifld w 0 4 = 9 && ifld w 14 3 = fn && ifld w 4 5 = sub && ifld w 17 2 = 0 && ifld w 29 3 = 0
/-- Class 0xA (R82). -/
def isSys (w f rd rs1 csr : Nat) : Bool := w = 10 + rd * 2 ^ 4 + rs1 * 2 ^ 9 + f * 2 ^ 14 + csr * 2 ^ 19

/-- CSR numbers of R83. -/
def csrKnown (n : Nat) : Bool := n ≤ 5 ∨ (0x100 ≤ n ∧ n ≤ 0x105) ∨ (0x200 ≤ n ∧ n < 0x240 ∧ n % 8 ≤ 5)
/-- CSRs that CSRW may name (R83). -/
def csrWritable (n : Nat) : Bool := (0x100 ≤ n ∧ n ≤ 0x105) ∨ (0x200 ≤ n ∧ n < 0x240 ∧ n % 8 ≤ 5)

/-- Whether a word decodes to an instruction: its class and function are defined and its fixed bits are zero (R78 to
R82, R261, R359). -/
def wordValid (w : Nat) : Bool :=
  match ifld w 0 4 with
  | 0 => ifld w 19 6 ≤ 15 && ifld w 25 7 = 0
  | 1 => (ifld w 14 4 = 0 || (2 ≤ ifld w 14 4 && ifld w 14 4 ≤ 9)) && ifld w 18 1 = 0
  | 2 | 3 => ifld w 14 3 ≤ 3 && ifld w 17 2 = 0
  | 4 => ifld w 19 5 ≤ 12 && ifld w 29 3 = 0
  | 5 => ifld w 14 3 ≤ 5 && ifld w 17 2 = 0
  | 6 | 7 => true
  | 8 => ifld w 4 3 ≤ 3 && ifld w 7 2 ≤ 1 && ifld w 14 18 = 0
  | 9 => ifld w 17 2 = 0 && ifld w 29 3 = 0 && (match ifld w 14 3 with
      | 5 => ifld w 4 5 ≤ 5
      | 6 => ifld w 4 5 = 0 && ifld w 25 4 = 0
      | 7 => ifld w 4 5 ≤ 1
      | _ => true)
  | 10 => match ifld w 14 5 with
      | 0 => ifld w 9 5 = 0
      | 1 => ifld w 4 5 = 0
      | 2 => ifld w 19 13 = 0
      | 3 | 4 | 5 => ifld w 4 10 = 0 && ifld w 19 13 = 0
      | 6 => true
      | _ => false
  | _ => false

/-! ## Fetch and issue -/

/-- Number `i` of an envelope: spm_base, spm_limit, lls_base, lls_limit, hbm_base, hbm_limit (R104). -/
def envAt (env : List Nat) (i : Nat) : Nat := env.getD i 0

/-- The instruction word at a thread's program counter (R105). -/
def Core.fetch (k : Core) (t : Nat) : Nat := memNat k.spm (envAt (k.thread t).env 0 + (k.thread t).pc) 4

/-- The core issues an instruction of its running thread whose word `m` recognises (R73, R105): a fetch at or beyond
spm_limit faults with BOUND; otherwise `eff` is the effect for that thread. A core that is absent, retired, halted, idle
or taken by an awl run (R496), and a word that is another instruction, leave the state as it is (assumption 3). -/
def State.issue (s : State) (c : Nat) (m : Nat → Bool) (eff : Nat → State) : State :=
  match mfind s.cores c with
  | none => s
  | some k =>
    match k.run with
    | none => s
    | some t =>
      if k.halted ∨ s.isRetired c ∨ k.awl ≠ none ∨ (k.thread t).stat ≠ .ready then s
      else if (k.thread t).pc ≥ envAt (k.thread t).env 1 then s.scalarFault c t cBound
      else if m (k.fetch t) then eff t else s

/-- Cycles during which the scalar engine issued (CORE_BUSY_SNAP[2]). -/
def State.scalarBusy (s : State) (c n : Nat) : State := s.liveAdd (.coreBusySnap c 2) CoreBusySnap.cycles n

/-- The thread goes on at a program counter after `n` cycles (R79). -/
def State.goto (s : State) (c t pc n : Nat) : State :=
  (s.modThread c t (fun th => { th with pc := pc % 2 ^ 32 })).scalarBusy c n
/-- The thread goes on with the next instruction. -/
def State.advance (s : State) (c t n : Nat) : State := s.goto c t ((s.thread c t).pc + 4) n
/-- Register `rd` takes a value and the thread goes on. -/
def State.writeBack (s : State) (c t rd : Nat) (v : BitVec 64) (n : Nat) : State :=
  (s.modThread c t (fun th => th.setG rd v)).advance c t n
/-- A register of a thread. -/
def State.gpr (s : State) (c t r : Nat) : BitVec 64 := (s.thread c t).g r
/-- The thread parks and goes on after the instruction when it is ready again. -/
def State.parkNext (s : State) (c t : Nat) (why : Park) : State := (s.advance c t 1).park c t why

/-! ## ALU (R80) -/

/-- Signed less-than of 64-bit values. -/
def slt64 (a b : BitVec 64) : Bool := a.toInt < b.toInt

/-- The ALU results by function code (R80). -/
def alu (f : Nat) (a b : BitVec 64) : BitVec 64 :=
  let sh := b.toNat % 64
  match f with
  | 0 => a + b
  | 1 => a - b
  | 2 => a &&& b
  | 3 => a ||| b
  | 4 => a ^^^ b
  | 5 => a <<< sh
  | 6 => a >>> sh
  | 7 => a.sshiftRight sh
  | 8 => if slt64 a b then 1 else 0
  | 9 => if a.toNat < b.toNat then 1 else 0
  | 10 => if slt64 b a then b else a
  | 11 => if slt64 a b then b else a
  | 12 => a * b
  | 13 => BitVec.ofInt 64 (a.toInt * b.toInt / 2 ^ 64)
  | 14 => if b = 0 then BitVec.ofInt 64 (-1) else BitVec.ofInt 64 (a.toInt.tdiv b.toInt)
  | _ => if b = 0 then a else BitVec.ofInt 64 (a.toInt.tmod b.toInt)

/-- Cycles of an ALU function (R79). -/
def aluCycles (f : Nat) : Nat := if f = 12 ∨ f = 13 then 3 else if f = 14 ∨ f = 15 then 20 else 1

/-- A class 0x0 instruction (R80). -/
def aluReg (f c : Nat) (rd rs1 rs2 : Fin 32) (s : State) : State :=
  s.issue c (fun w => isAlu w f rd rs1 rs2) (fun t =>
    s.writeBack c t rd (alu f (s.gpr c t rs1) (s.gpr c t rs2)) (aluCycles f))

/-- A class 0x1 instruction (R80). -/
def aluImm (f c : Nat) (rd rs1 : Fin 32) (imm : BitVec 13) (s : State) : State :=
  s.issue c (fun w => isAluImm w f rd rs1 imm.toNat) (fun t =>
    s.writeBack c t rd (alu f (s.gpr c t rs1) (sext13 imm)) 1)

/-- ADD (R80). -/
def execAdd (c : Nat) (rd rs1 rs2 : Fin 32) (s : State) : Host.Outcome State Fault Refusal :=
  commit s (Instr.wf (.add c rd rs1 rs2)) (aluReg 0 c rd rs1 rs2 s)

/-- SUB (R80). -/
def execSub (c : Nat) (rd rs1 rs2 : Fin 32) (s : State) : Host.Outcome State Fault Refusal :=
  commit s (Instr.wf (.sub c rd rs1 rs2)) (aluReg 1 c rd rs1 rs2 s)

/-- AND (R80). -/
def execAnd (c : Nat) (rd rs1 rs2 : Fin 32) (s : State) : Host.Outcome State Fault Refusal :=
  commit s (Instr.wf (.and c rd rs1 rs2)) (aluReg 2 c rd rs1 rs2 s)

/-- OR (R80). -/
def execOr (c : Nat) (rd rs1 rs2 : Fin 32) (s : State) : Host.Outcome State Fault Refusal :=
  commit s (Instr.wf (.or c rd rs1 rs2)) (aluReg 3 c rd rs1 rs2 s)

/-- XOR (R80). -/
def execXor (c : Nat) (rd rs1 rs2 : Fin 32) (s : State) : Host.Outcome State Fault Refusal :=
  commit s (Instr.wf (.xor c rd rs1 rs2)) (aluReg 4 c rd rs1 rs2 s)

/-- SHL (R80). -/
def execShl (c : Nat) (rd rs1 rs2 : Fin 32) (s : State) : Host.Outcome State Fault Refusal :=
  commit s (Instr.wf (.shl c rd rs1 rs2)) (aluReg 5 c rd rs1 rs2 s)

/-- SHR (R80). -/
def execShr (c : Nat) (rd rs1 rs2 : Fin 32) (s : State) : Host.Outcome State Fault Refusal :=
  commit s (Instr.wf (.shr c rd rs1 rs2)) (aluReg 6 c rd rs1 rs2 s)

/-- SRA (R80). -/
def execSra (c : Nat) (rd rs1 rs2 : Fin 32) (s : State) : Host.Outcome State Fault Refusal :=
  commit s (Instr.wf (.sra c rd rs1 rs2)) (aluReg 7 c rd rs1 rs2 s)

/-- SLT (R80). -/
def execSlt (c : Nat) (rd rs1 rs2 : Fin 32) (s : State) : Host.Outcome State Fault Refusal :=
  commit s (Instr.wf (.slt c rd rs1 rs2)) (aluReg 8 c rd rs1 rs2 s)

/-- SLTU (R80). -/
def execSltu (c : Nat) (rd rs1 rs2 : Fin 32) (s : State) : Host.Outcome State Fault Refusal :=
  commit s (Instr.wf (.sltu c rd rs1 rs2)) (aluReg 9 c rd rs1 rs2 s)

/-- MIN (R80). -/
def execMin (c : Nat) (rd rs1 rs2 : Fin 32) (s : State) : Host.Outcome State Fault Refusal :=
  commit s (Instr.wf (.min c rd rs1 rs2)) (aluReg 10 c rd rs1 rs2 s)

/-- MAX (R80). -/
def execMax (c : Nat) (rd rs1 rs2 : Fin 32) (s : State) : Host.Outcome State Fault Refusal :=
  commit s (Instr.wf (.max c rd rs1 rs2)) (aluReg 11 c rd rs1 rs2 s)

/-- MUL (R80). -/
def execMul (c : Nat) (rd rs1 rs2 : Fin 32) (s : State) : Host.Outcome State Fault Refusal :=
  commit s (Instr.wf (.mul c rd rs1 rs2)) (aluReg 12 c rd rs1 rs2 s)

/-- MULH (R80). -/
def execMulh (c : Nat) (rd rs1 rs2 : Fin 32) (s : State) : Host.Outcome State Fault Refusal :=
  commit s (Instr.wf (.mulh c rd rs1 rs2)) (aluReg 13 c rd rs1 rs2 s)

/-- DIV (R80). -/
def execDiv (c : Nat) (rd rs1 rs2 : Fin 32) (s : State) : Host.Outcome State Fault Refusal :=
  commit s (Instr.wf (.div c rd rs1 rs2)) (aluReg 14 c rd rs1 rs2 s)

/-- REM (R80). -/
def execRem (c : Nat) (rd rs1 rs2 : Fin 32) (s : State) : Host.Outcome State Fault Refusal :=
  commit s (Instr.wf (.rem c rd rs1 rs2)) (aluReg 15 c rd rs1 rs2 s)

/-- ADDI (R80). -/
def execAddi (c : Nat) (rd rs1 : Fin 32) (imm : BitVec 13) (s : State) : Host.Outcome State Fault Refusal :=
  commit s (Instr.wf (.addi c rd rs1 imm)) (aluImm 0 c rd rs1 imm s)

/-- ANDI (R80). -/
def execAndi (c : Nat) (rd rs1 : Fin 32) (imm : BitVec 13) (s : State) : Host.Outcome State Fault Refusal :=
  commit s (Instr.wf (.andi c rd rs1 imm)) (aluImm 2 c rd rs1 imm s)

/-- ORI (R80). -/
def execOri (c : Nat) (rd rs1 : Fin 32) (imm : BitVec 13) (s : State) : Host.Outcome State Fault Refusal :=
  commit s (Instr.wf (.ori c rd rs1 imm)) (aluImm 3 c rd rs1 imm s)

/-- XORI (R80). -/
def execXori (c : Nat) (rd rs1 : Fin 32) (imm : BitVec 13) (s : State) : Host.Outcome State Fault Refusal :=
  commit s (Instr.wf (.xori c rd rs1 imm)) (aluImm 4 c rd rs1 imm s)

/-- SHLI (R80). -/
def execShli (c : Nat) (rd rs1 : Fin 32) (imm : BitVec 13) (s : State) : Host.Outcome State Fault Refusal :=
  commit s (Instr.wf (.shli c rd rs1 imm)) (aluImm 5 c rd rs1 imm s)

/-- SHRI (R80). -/
def execShri (c : Nat) (rd rs1 : Fin 32) (imm : BitVec 13) (s : State) : Host.Outcome State Fault Refusal :=
  commit s (Instr.wf (.shri c rd rs1 imm)) (aluImm 6 c rd rs1 imm s)

/-- SRAI (R80). -/
def execSrai (c : Nat) (rd rs1 : Fin 32) (imm : BitVec 13) (s : State) : Host.Outcome State Fault Refusal :=
  commit s (Instr.wf (.srai c rd rs1 imm)) (aluImm 7 c rd rs1 imm s)

/-- SLTI (R80). -/
def execSlti (c : Nat) (rd rs1 : Fin 32) (imm : BitVec 13) (s : State) : Host.Outcome State Fault Refusal :=
  commit s (Instr.wf (.slti c rd rs1 imm)) (aluImm 8 c rd rs1 imm s)

/-- SLTUI (R80). -/
def execSltui (c : Nat) (rd rs1 : Fin 32) (imm : BitVec 13) (s : State) : Host.Outcome State Fault Refusal :=
  commit s (Instr.wf (.sltui c rd rs1 imm)) (aluImm 9 c rd rs1 imm s)

/-! ## Local loads and stores (R77, R79, R104, R105) -/

/-- The scratchpad offset of a local access: rs1 plus the signed offset, modulo 2^64. -/
def localOff (s : State) (c t : Nat) (rs1 : Fin 32) (imm : BitVec 13) : Nat := (s.gpr c t rs1 + sext13 imm).toNat

/-- A local load of 2^w bytes: MISALIGN, BOUND, then the value zero-extended; a row lost by the read halts the core with
ENGINE_HW (R202) and writes no register. -/
def loadLocal (c t : Nat) (w : Fin 4) (rd rs1 : Fin 32) (imm : BitVec 13) (us : List Upset) (s : State) : State :=
  let o := localOff s c t rs1 imm
  let env := (s.thread c t).env
  if o % 2 ^ w.val ≠ 0 then s.scalarFault c t cMisalign
  else if o + 2 ^ w.val > envAt env 1 then s.scalarFault c t cBound
  else
    let (s1, bs, h) := s.readSpans (.spm c) [(envAt env 0 + o, 2 ^ w.val)] us
    if h ≠ .none then s1.scalarFault c t cHw
    else if (s1.isRetired c) then s1
    else s1.writeBack c t rd (BitVec.ofNat 64 (leNat bs)) 4

/-- LD (R77, R79). -/
def execLd (c : Nat) (w : Fin 4) (rd rs1 : Fin 32) (imm : BitVec 13) (u : List Upset) (s : State) :
    Host.Outcome State Fault Refusal :=
  commit s (Instr.wf (.ld c w rd rs1 imm u))
    (s.issue c (fun x => isLocal x 2 w rd rs1 imm.toNat) (fun t => loadLocal c t w rd rs1 imm u s))

/-- A local store of 2^w bytes: MISALIGN, BOUND, else the low bytes of rs2; the block becomes OPEN (R218). -/
def storeLocal (c t : Nat) (w : Fin 4) (rs2 rs1 : Fin 32) (imm : BitVec 13) (s : State) : State :=
  let o := localOff s c t rs1 imm
  let env := (s.thread c t).env
  if o % 2 ^ w.val ≠ 0 then s.scalarFault c t cMisalign
  else if o + 2 ^ w.val > envAt env 1 ∨ s.stepGuards (.spm c) (envAt env 0 + o) (2 ^ w.val) then s.scalarFault c t cBound
  else ((s.writeSpan (.spm c) (envAt env 0 + o) (leBytes (2 ^ w.val) (s.gpr c t rs2).toNat)).1).advance c t 4

/-- ST (R77, R79). -/
def execSt (c : Nat) (w : Fin 4) (rs2 rs1 : Fin 32) (imm : BitVec 13) (s : State) :
    Host.Outcome State Fault Refusal :=
  commit s (Instr.wf (.st c w rs2 rs1 imm))
    (s.issue c (fun x => isLocal x 3 w rs2 rs1 imm.toNat) (fun t => storeLocal c t w rs2 rs1 imm s))

/-- The fetch of a thread meets storage errors: corrections are counted, and a row lost by it halts the core with ENGINE_HW
(R201, R202); otherwise `eff` goes on. -/
def State.fetchWith (s : State) (c t : Nat) (us : List Upset) (eff : State → State) : State :=
  let th := s.thread c t
  let (s1, h) := s.upsets (.spm c) [(envAt th.env 0 + th.pc, 4)] us
  if h ≠ .none then s1.scalarFault c t cHw else if s1.isRetired c then s1 else eff s1

/-- RESERVED_INSTRUCTION: a word of no instruction faults with ILLEGAL_INSN (R78). The fetch may meet storage errors, whatever
its word is; a word of an instruction is then issued by that instruction's own command (assumption 3). -/
def execReservedInstruction (f : Fetch) (s : State) : Host.Outcome State Fault Refusal :=
  commit s (Instr.wf (.reservedInstruction f)) (s.issue f.core (fun _ => true) (fun t => s.fetchWith f.core t f.errs (fun s1 =>
    s1.issue f.core (fun x => !wordValid x) (fun t => s1.scalarFault f.core t cIllegal))))

/-! ## Branches and jumps (R81, R82) -/

/-- Whether a branch condition holds (R81). -/
def branchTaken (cond : Nat) (a b : BitVec 64) : Bool :=
  match cond with
  | 0 => a = b
  | 1 => a ≠ b
  | 2 => slt64 a b
  | 3 => !slt64 a b
  | 4 => a.toNat < b.toNat
  | _ => !(a.toNat < b.toNat)

/-- The target of a branch or jump: the instruction's own address plus 4 times a signed immediate (R81). -/
def jumpTarget (pc : Nat) (imm : Int) : Nat := unsigned 32 ((pc : Int) + 4 * imm)

/-- A branch (R81). -/
def branch (cond c : Nat) (rs1 rs2 : Fin 32) (imm : BitVec 13) (s : State) : State :=
  s.issue c (fun x => isBranch x cond rs1 rs2 imm.toNat) (fun t =>
    if branchTaken cond (s.gpr c t rs1) (s.gpr c t rs2) then s.goto c t (jumpTarget (s.thread c t).pc imm.toInt) 2
    else s.advance c t 1)

/-- BEQ (R81). -/
def execBeq (c : Nat) (rs1 rs2 : Fin 32) (imm : BitVec 13) (s : State) : Host.Outcome State Fault Refusal :=
  commit s (Instr.wf (.beq c rs1 rs2 imm)) (branch 0 c rs1 rs2 imm s)

/-- BNE (R81). -/
def execBne (c : Nat) (rs1 rs2 : Fin 32) (imm : BitVec 13) (s : State) : Host.Outcome State Fault Refusal :=
  commit s (Instr.wf (.bne c rs1 rs2 imm)) (branch 1 c rs1 rs2 imm s)

/-- BLT (R81). -/
def execBlt (c : Nat) (rs1 rs2 : Fin 32) (imm : BitVec 13) (s : State) : Host.Outcome State Fault Refusal :=
  commit s (Instr.wf (.blt c rs1 rs2 imm)) (branch 2 c rs1 rs2 imm s)

/-- BGE (R81). -/
def execBge (c : Nat) (rs1 rs2 : Fin 32) (imm : BitVec 13) (s : State) : Host.Outcome State Fault Refusal :=
  commit s (Instr.wf (.bge c rs1 rs2 imm)) (branch 3 c rs1 rs2 imm s)

/-- BLTU (R81). -/
def execBltu (c : Nat) (rs1 rs2 : Fin 32) (imm : BitVec 13) (s : State) : Host.Outcome State Fault Refusal :=
  commit s (Instr.wf (.bltu c rs1 rs2 imm)) (branch 4 c rs1 rs2 imm s)

/-- BGEU (R81). -/
def execBgeu (c : Nat) (rs1 rs2 : Fin 32) (imm : BitVec 13) (s : State) : Host.Outcome State Fault Refusal :=
  commit s (Instr.wf (.bgeu c rs1 rs2 imm)) (branch 5 c rs1 rs2 imm s)

/-- JAL: rd takes the address of the following instruction (R81). -/
def execJal (c : Nat) (rd : Fin 32) (imm : BitVec 23) (s : State) : Host.Outcome State Fault Refusal :=
  commit s (Instr.wf (.jal c rd imm)) (s.issue c (fun x => isUpper x 6 rd imm.toNat) (fun t =>
    (s.modThread c t (fun th => th.setG rd (BitVec.ofNat 64 (th.pc + 4)))).goto c t
      (jumpTarget (s.thread c t).pc imm.toInt) 2))

/-- LUI: rd takes imm23 * 2^23 (R81). -/
def execLui (c : Nat) (rd : Fin 32) (imm : BitVec 23) (s : State) : Host.Outcome State Fault Refusal :=
  commit s (Instr.wf (.lui c rd imm)) (s.issue c (fun x => isUpper x 7 rd imm.toNat) (fun t =>
    s.writeBack c t rd (BitVec.ofNat 64 (imm.toNat * 2 ^ 23)) 1))

/-- JALR: rd takes the address of the following instruction; a target that is not 4-byte aligned faults with MISALIGN
(R82). A target is a 64-bit value, of which the thread keeps all, so that the fetch at one of 2^32 or more faults with BOUND;
a branch or JAL wraps modulo 2^32 (assumption 65). -/
def execJalr (c : Nat) (rd rs1 : Fin 32) (imm : BitVec 13) (s : State) : Host.Outcome State Fault Refusal :=
  commit s (Instr.wf (.jalr c rd rs1 imm)) (s.issue c (fun x => isSys x 6 rd rs1 imm.toNat) (fun t =>
    let tgt := unsigned 64 ((s.gpr c t rs1).toInt + 4 * imm.toInt)
    if tgt % 4 ≠ 0 then s.scalarFault c t cMisalign
    else (s.modThread c t (fun th => { th.setG rd (BitVec.ofNat 64 (th.pc + 4)) with pc := tgt })).scalarBusy c 2))

/-! ## CSRs (R83, R106) -/

/-- An envelope of six numbers. -/
def padEnv (e : List Nat) : List Nat := (List.range 6).map (envAt e)

/-- The value of a CSR (R83). -/
def csrValue (s : State) (c t n : Nat) : BitVec 64 :=
  if n = 0 then BitVec.ofNat 64 t
  else if n = 1 then BitVec.ofNat 64 c
  else if n = 2 then BitVec.ofNat 64 ((s.ownerOf c).getD 0)
  else if n = 3 then BitVec.ofNat 64 s.count
  else if n = 4 then s.pkg.uptime
  else if n = 5 then BitVec.ofNat 64 (s.pkg.cycles - (match mfind s.cores c with
    | none => 0
    | some k => k.cycBase))
  else if n < 0x200 then BitVec.ofNat 64 (envAt (s.thread c t).env (n - 0x100))
  else BitVec.ofNat 64 (envAt (s.thread c ((n - 0x200) / 8)).env (n % 8))

/-- CSRR: an unknown CSR faults with ILLEGAL_INSN (R83). -/
def execCsrr (c : Nat) (rd : Fin 32) (csr : BitVec 13) (s : State) : Host.Outcome State Fault Refusal :=
  commit s (Instr.wf (.csrr c rd csr)) (s.issue c (fun x => isSys x 0 rd 0 csr.toNat) (fun t =>
    if csrKnown csr.toNat then s.writeBack c t rd (csrValue s c t csr.toNat) 1 else s.scalarFault c t cIllegal))

/-- Whether an envelope lies wholly within another, space by space (R106). -/
def envWithin (e outer : List Nat) : Bool :=
  [0, 2, 4].all (fun i => envAt outer i ≤ envAt e i ∧ envAt e i + envAt e (i + 1) ≤ envAt outer i + envAt outer (i + 1))

/-- CSRW: a number that is not writable faults with ILLEGAL_INSN, an envelope wider than the PROGRAM section's with
BOUND, leaving it unchanged (R83, R106). -/
def execCsrw (c : Nat) (rs1 : Fin 32) (csr : BitVec 13) (s : State) : Host.Outcome State Fault Refusal :=
  commit s (Instr.wf (.csrw c rs1 csr)) (s.issue c (fun x => isSys x 1 0 rs1 csr.toNat) (fun t =>
    if csrWritable csr.toNat then
      let n := csr.toNat
      let u := if n < 0x200 then t else (n - 0x200) / 8
      let i := if n < 0x200 then n - 0x100 else n % 8
      let prog := match mfind s.cores c with
        | none => []
        | some k => k.progEnv
      let env := (padEnv (s.thread c u).env).set i (s.gpr c t rs1).toNat
      if envWithin env prog then (s.modThread c u (fun th => { th with env := env })).advance c t 1
      else s.scalarFault c t cBound
    else s.scalarFault c t cIllegal))

/-! ## Threads (R70, R71, R73 to R75, R82) -/

/-- TSTART: thread rs1[2:0] starts at rs1[63:32] with cleared registers and the PROGRAM envelope; rd tells whether it was
already started (R82). -/
def execTstart (c : Nat) (rd rs1 : Fin 32) (s : State) : Host.Outcome State Fault Refusal :=
  commit s (Instr.wf (.tstart c rd rs1)) (s.issue c (fun x => isSys x 2 rd rs1 0) (fun t =>
    let v := (s.gpr c t rs1).toNat
    let u := v % 8
    let entry := v / 2 ^ 32
    if entry % 4 ≠ 0 then s.scalarFault c t cMisalign
    else if (s.thread c u).started then s.writeBack c t rd 1 1
    else
      (s.modCore c (fun k => k.setThread u ⟨.ready, entry, [], k.progEnv, 0⟩)).writeBack c t rd 0 1))

/-- YIELD: the next ready thread runs (R73, R74). -/
def execYield (c : Nat) (s : State) : Host.Outcome State Fault Refusal :=
  commit s (Instr.wf (.yield c)) (s.issue c (fun x => isSys x 3 0 0 0) (fun t => (s.advance c t 1).switchFrom c t))

/-- QUANTUM_EXPIRY: after 512 cycles the running thread yields if another one is ready (R75). -/
def execQuantumExpiry (c : Nat) (s : State) : Host.Outcome State Fault Refusal :=
  commit s (Instr.wf (.quantumExpiry c)) (match mfind s.cores c with
    | none => s
    | some k => match k.run with
      | none => s
      | some t => if k.halted ∨ s.isRetired c then s else s.switchFrom c t)

/-- END: the thread stops once every descriptor it issued has completed (R71). -/
def execEndThread (c : Nat) (s : State) : Host.Outcome State Fault Refusal :=
  commit s (Instr.wf (.endThread c)) (s.issue c (fun x => isSys x 4 0 0 0) (fun t =>
    (((s.advance c t 1).modThread c t (fun th => { th with stat := .ending })).switchFrom c t).settleEnds c))

/-- FENCE.L: parks while a far store of the thread is unacknowledged (R73). -/
def execFenceL (c : Nat) (s : State) : Host.Outcome State Fault Refusal :=
  commit s (Instr.wf (.fenceL c)) (s.issue c (fun x => isSys x 5 0 0 0) (fun t =>
    if (s.thread c t).unacked = 0 then s.advance c t 1 else s.parkNext c t .fence))

/-! ## Tacks, counters and cinches (R261 to R274) -/

/-- Whether a core tack is listed for the core in SYNC_USE (R261). -/
def State.usesTack (s : State) (c t : Nat) : Bool :=
  match mfind s.cores c with
  | none => false
  | some k => k.tacksUsed.getLsbD t
/-- Whether a grid tack is listed in the SYNC_USE of the core's partition (R261). -/
def State.usesGtack (s : State) (c g : Nat) : Bool :=
  match s.ownerOf c with
  | none => false
  | some p => match mfind s.parts p with
    | none => false
    | some q => q.gtUsed.getLsbD g

/-- A core-tack function on a tack that SYNC_USE lists; DESC_SYNC otherwise (R261). -/
def tackOp (fn c : Nat) (tk : Fin 32) (s : State) (eff : Nat → State) : State :=
  s.issue c (fun x => isSync x fn tk) (fun t => if s.usesTack c tk then eff t else s.scalarFault c t cSync)

/-- TSET (R261). -/
def execTset (c : Nat) (t : Fin 32) (s : State) : Host.Outcome State Fault Refusal :=
  commit s (Instr.wf (.tset c t)) (tackOp 0 c t s (fun th => (s.advance c th 1).setTack c t))
/-- TCLR (R261). -/
def execTclr (c : Nat) (t : Fin 32) (s : State) : Host.Outcome State Fault Refusal :=
  commit s (Instr.wf (.tclr c t)) (tackOp 1 c t s (fun th => (s.advance c th 1).clearTack c t))
/-- TWAIT: parks until the tack is set (R73, R261). -/
def execTwait (c : Nat) (t : Fin 32) (s : State) : Host.Outcome State Fault Refusal :=
  commit s (Instr.wf (.twait c t)) (tackOp 2 c t s (fun th =>
    if s.tackSet? c t then s.advance c th 1 else s.parkNext c th (.tack t false)))
/-- TWAITC: as TWAIT, and the tack is cleared in the cycle the wait is satisfied (R261, R262). -/
def execTwaitc (c : Nat) (t : Fin 32) (s : State) : Host.Outcome State Fault Refusal :=
  commit s (Instr.wf (.twaitc c t)) (tackOp 3 c t s (fun th =>
    if s.tackSet? c t then ((s.advance c th 1).clearTack c t).modCore c (fun k => k.meetHeads 1 t)
    else s.parkNext c th (.tack t true)))
/-- TTEST: 1 or 0 into the register (R261). -/
def execTtest (c : Nat) (rd t : Fin 32) (s : State) : Host.Outcome State Fault Refusal :=
  commit s (Instr.wf (.ttest c rd t)) (s.issue c (fun x => isSync x 4 t && ifld x 9 5 = rd.val) (fun th =>
    if s.usesTack c t then s.writeBack c th rd (if s.tackSet? c t then 1 else 0) 1 else s.scalarFault c th cSync))

/-- A grid-tack function on a tack that SYNC_USE lists; DESC_SYNC otherwise (R261). -/
def gtackOp (sub c : Nat) (g : Fin 1024) (s : State) (eff : Nat → State) : State :=
  s.issue c (fun x => isSync x 5 sub && ifld x 19 10 = g.val) (fun t =>
    if s.usesGtack c g then eff t else s.scalarFault c t cSync)

/-- GTSET (R261). -/
def execGtset (c : Nat) (g : Fin 1024) (s : State) : Host.Outcome State Fault Refusal :=
  commit s (Instr.wf (.gtset c g)) (gtackOp 0 c g s (fun t => (s.advance c t 1).setGtack g))
/-- GTCLR (R261). -/
def execGtclr (c : Nat) (g : Fin 1024) (s : State) : Host.Outcome State Fault Refusal :=
  commit s (Instr.wf (.gtclr c g)) (gtackOp 1 c g s (fun t => (s.advance c t 1).clearGtack g))
/-- GTWAIT (R261). -/
def execGtwait (c : Nat) (g : Fin 1024) (s : State) : Host.Outcome State Fault Refusal :=
  commit s (Instr.wf (.gtwait c g)) (gtackOp 2 c g s (fun t =>
    if s.gtackSet? g then s.advance c t 1 else s.parkNext c t (.gtack g false)))
/-- GTWAITC (R261, R262). -/
def execGtwaitc (c : Nat) (g : Fin 1024) (s : State) : Host.Outcome State Fault Refusal :=
  commit s (Instr.wf (.gtwaitc c g)) (gtackOp 3 c g s (fun t =>
    if s.gtackSet? g then
      let s1 := (s.advance c t 1).clearGtack g
      { s1 with cores := s1.cores.map (fun (x, k) => (x, k.meetHeads 2 g)) }
    else s.parkNext c t (.gtack g true)))
/-- GTTEST (R261). -/
def execGttest (c : Nat) (rd : Fin 32) (g : Fin 1024) (s : State) : Host.Outcome State Fault Refusal :=
  commit s (Instr.wf (.gttest c rd g)) (s.issue c (fun x => isSync x 5 4 && ifld x 19 10 = g.val && ifld x 9 5 = rd.val) (fun t =>
    if s.usesGtack c g then s.writeBack c t rd (if s.gtackSet? g then 1 else 0) 1 else s.scalarFault c t cSync))

/-- CINCH: DESC_SYNC for a line, thread or core outside SYNC_USE; otherwise the fence, then the arrival (R261, R274,
R278). -/
def execCinch (c : Nat) (line : Fin 64) (s : State) : Host.Outcome State Fault Refusal :=
  commit s (Instr.wf (.cinch c line)) (s.issue c (fun x => isSync x 6 0 && ifld x 19 6 = line.val && ifld x 25 4 = 0) (fun t =>
    let ok := match s.ownerOf c with
      | none => false
      | some p => match s.lineUse p line with
        | none => false
        | some u => u.mask.getLsbD t && u.cores.contains c
    if ok then
      if (s.thread c t).unacked = 0 then ((s.advance c t 1).arrive c t line).switchFrom c t
      else s.parkNext c t (.cinchFence line)
    else s.scalarFault c t cSync))

/-- RXARM: counter rs1[5:0] is armed with threshold rs1[63:32] for a grid tack; a counter already there sets it at once
(R270). -/
def execRxarm (c : Nat) (rs1 : Fin 32) (g : Fin 1024) (s : State) : Host.Outcome State Fault Refusal :=
  commit s (Instr.wf (.rxarm c rs1 g)) (s.issue c (fun x => isSync x 7 0 && ifld x 19 10 = g.val && ifld x 9 5 = rs1.val) (fun t =>
    let v := s.gpr c t rs1
    if wbits v 6 26 ≠ 0 then s.scalarFault c t cIllegal
    else if !s.usesGtack c g then s.scalarFault c t cSync
    else match s.ownerOf c with
      | none => s
      | some p =>
        let ctr := wbits v 0 6
        let r : Reg := .partRxArm p ctr
        (((((s.advance c t 1).setFld r PartRxArm.armed 1).setFld r PartRxArm.tack g).setFld r PartRxArm.threshold
          (wbits v 32 32))).fireArm p ctr))

/-- RXWAIT: parks until the counter reaches the threshold (R270). -/
def execRxwait (c : Nat) (rs1 : Fin 32) (s : State) : Host.Outcome State Fault Refusal :=
  commit s (Instr.wf (.rxwait c rs1)) (s.issue c (fun x => isSync x 7 1 && ifld x 9 5 = rs1.val) (fun t =>
    let v := s.gpr c t rs1
    if wbits v 6 26 ≠ 0 then s.scalarFault c t cIllegal
    else match s.ownerOf c with
      | none => s
      | some p =>
        if reached (s.rxLow p (wbits v 0 6)) (wbits v 32 32) then s.advance c t 1
        else s.parkNext c t (.rx (wbits v 0 6) (wbits v 32 32))))

/-! ## ISSUE (R84 to R87) -/

/-- Entries an engine queue holds (R87). -/
def queueDepth : Nat := 16

/-- The queue of an engine. -/
def Core.queue (k : Core) (e : Nat) : List Desc := mget k.queues e []

/-- The header check of R85: engine and kind fields, version, reserved bits. -/
def headerBad (h : BitVec 64) (eng : Nat) : Bool :=
  wbits h 0 4 ≠ eng || wbits h 12 2 = 3 || wbits h 25 2 = 3 || wbits h 38 2 ≠ 0 || wbits h 48 8 ≠ 0 || wbits h 56 8 ≠ 1

/-- Whether a tack named by a header is in SYNC_USE (R85). A core-tack index above 31 names no tack. -/
def State.tackListed (s : State) (c : Nat) (k : Nat × Nat) : Bool :=
  match k with
  | (1, i) => i < 32 && s.usesTack c i
  | (2, g) => s.usesGtack c g
  | _ => true

/-- The descriptor's words, or the cause that reading them raises (R86); a row lost by the read halts the core with ENGINE_HW
(R201, R202). -/
def fetchDesc (s : State) (c t : Nat) (src : DescSource) (rs1 : Nat) : State × (List (BitVec 64) ⊕ Nat) :=
  match src with
  | .regs =>
    if rs1 = 8 ∨ rs1 = 16 ∨ rs1 = 24 then (s, .inl ((List.range 8).map (fun i => s.gpr c t (rs1 + i)))) else (s, .inr cIllegal)
  | .spm us =>
    let o := (s.gpr c t rs1).toNat
    let env := (s.thread c t).env
    if o % 64 ≠ 0 then (s, .inr cMisalign)
    else if o + 64 > envAt env 1 then (s, .inr cBound)
    else
      let (s1, bs, h) := s.readSpans (.spm c) [(envAt env 0 + o, 64)] us
      (s1, if h ≠ .none then .inr cHw else .inl (toWords 8 bs))

/-- A fault that ISSUE finds in word 0: the scalar engine raises it, and the tag is the descriptor's (R85, R108, R112,
assumption 67). -/
def State.issueFault (s : State) (c : Nat) (d : Desc) (cause : Nat) : State :=
  s.coreFault c cause { thread := d.thread, tag := wbits (d.words.getD 0 0) 40 8, pc := d.pc }

/-- ISSUE: checks word 0, then places the captured descriptor in its queue; a full queue parks the thread, which issues
again when an entry frees (R85 to R87). -/
def execIssue (c : Nat) (eng : Fin 4) (src : DescSource) (rs1 : Fin 32) (s : State) : Host.Outcome State Fault Refusal :=
  commit s (Instr.wf (.issue c eng src rs1)) (s.issue c (fun x => isIssue x eng (b2n (src = .regs)) rs1) (fun t =>
    match fetchDesc s c t src rs1 with
    | (s, .inr cause) => s.scalarFault c t cause
    | (s, .inl ws) =>
      let d : Desc := ⟨ws, t, (s.thread c t).pc, (s.thread c t).env, false⟩
      if s.isRetired c then s
      else if headerBad (ws.getD 0 0) eng then s.issueFault c d cDesc
      else if !(s.tackListed c d.wait && s.tackListed c d.set) then s.issueFault c d cSync
      else match mfind s.cores c with
        | none => s
        | some k =>
          if (k.queue eng).length ≥ queueDepth then s.park c t (.queueFull eng)
          else (s.modCore c (fun k => { k with queues := mset k.queues eng (k.queue eng ++ [d]) })).advance c t 1))

end Sys2Proof.Machine
end

