-- ==== Sys2Proof/Machine/Engines.lean ====
section
/-! DEFINITION. How the engines start and complete descriptors (R88 to R91, R105, R108, R124, R409, R523, R524), the
meanings of RESUME, STOP_ALL and CLEAR_FAULT, and free values for what a failed descriptor leaves. -/
namespace Sys2Proof.Machine

/-- The operation field of a header (R84). -/
def Desc.op (d : Desc) : Nat := wbits (d.words.getD 0 0) 4 8
/-- The software tag of a header. -/
def Desc.tag (d : Desc) : Nat := wbits (d.words.getD 0 0) 40 8
/-- Bits of word `i` of a descriptor. -/
def Desc.f (d : Desc) (i lo w : Nat) : Nat := wbits (d.words.getD i 0) lo w

/-- The operations each engine defines (R98, R120, R168, and the vector table). -/
def knownOps (eng : Nat) : List Nat :=
  match eng with
  | 0 => [1, 2, 3, 4, 5]
  | 1 => [1, 2, 3, 4, 5, 8, 0x10, 0x11, 0x12, 0x20, 0x21, 0x22, 0x23, 0x24, 0x25, 0x26, 0x27, 0x28, 0x29, 0x2A]
  | 2 => [1, 2, 3, 4, 5, 6, 0x10, 0x11, 0x12]
  | _ => [1, 2, 3, 4, 5, 6, 7, 8, 9]

/-- The descriptor at the head of an engine's queue that may start now: the core runs, the wait is satisfied and the
bucket of its partition is above 0 (R88, R108, R524). -/
def State.head (s : State) (c eng : Nat) : Option (Nat × Desc) :=
  match mfind s.cores c, s.ownerOf c with
  | some k, some p =>
    match k.queue eng, mfind s.parts p with
    | d :: _, some q => if !k.halted ∧ !k.stopping ∧ !s.isRetired c ∧ s.waitOk c d ∧ q.bucket > 0 then some (p, d) else none
    | _, _ => none
  | _, _ => none

/-- Threads that wait for a place in a queue become ready when it is not full (R87). -/
def State.wakeFull (s : State) (c : Nat) : State :=
  match mfind s.cores c with
  | none => s
  | some k => (k.threads.filter (fun (_, th) => match th.stat with
      | .parked (.queueFull e) => (k.queue e).length < queueDepth
      | _ => false)).foldl (fun x (i, _) => x.unpark c i) s

/-- The head leaves its queue: its wait is taken while the descriptor behind it is not yet a head, and a thread that waits for
a place goes on (R87, R88, R91). -/
def State.popHead (s : State) (c eng : Nat) (d : Desc) : State :=
  ((s.takeWait c d).modCore c (fun k => { k with queues := mset k.queues eng (k.queue eng).tail })).wakeFull c

/-- The identifier of the next descriptor of a core: above that of every one in progress. -/
def Core.freshId (k : Core) : Nat := k.active.foldl (fun m a => max m (a.id + 1)) k.nextId
/-- The identifier that the next descriptor of a core takes. -/
def State.freshId (s : State) (c : Nat) : Nat :=
  match mfind s.cores c with
  | none => 0
  | some k => k.freshId

/-- A descriptor joins those in progress under a fresh identifier. -/
def State.addAct (s : State) (c eng : Nat) (d : Desc) (left phase : Nat) : State :=
  s.modCore c (fun k => { k with active := k.active ++ [⟨k.freshId, eng, d, false, left, false, [], phase, [], (0, 0, 0), [], []⟩], nextId := k.freshId + 1 })

/-- The head of an engine starts as operation `op`, or as one that the engine does not define, which faults with
DESC_INVALID. `eff` gets the state with the head popped, the partition and the descriptor. -/
def State.startOp (s : State) (c eng op : Nat) (eff : State → Nat → Desc → State) : State :=
  match s.head c eng with
  | none => s
  | some (p, d) =>
    if d.op = op then eff (s.popHead c eng d) p d
    else if (knownOps eng).contains d.op then s
    else (s.popHead c eng d).descFault c d cDesc

/-! ## Scratchpad operands of an engine -/

/-- Whether the bytes of spans of scratchpad offsets lie within a descriptor's envelope (R104, R105). -/
def inEnv (d : Desc) (spans : List Span) : Bool := spans.all (fun (o, n) => n = 0 || o + n ≤ envAt d.env 1)
/-- Spans moved by the envelope's scratchpad base. -/
def relSpans (d : Desc) (spans : List Span) : List Span := spans.map (fun (o, n) => (envAt d.env 0 + o, n))

/-- Fresh free bytes. -/
def State.freeRun (s : State) (n : Nat) : List Byte := (List.range n).map (fun i => Config.freeByte (s.freeCtr + i))

/-- What a failed descriptor leaves in the spans it was to write: free bytes, in OPEN blocks (R221). -/
def State.writeFree (s : State) (l : Loc) (spans : List Span) : State :=
  spans.foldl (fun t (a, n) => { (t.writeSpan l a (t.freeRun n)).1 with freeCtr := t.freeCtr + n }) s

/-- The cause that a hurt raises in a descriptor of the core's own engine (R202, R214, R236). -/
def hurtCause (h : Hurt) : Nat := if h = .row then cHw else cCrc

/-- An engine reads scratchpad spans of its own core and verifies the blocks it read whole (R202, R220, R221): the bytes
per span, or the cause of a fault. -/
def State.engineRead (s : State) (c : Nat) (d : Desc) (spans : List Span) (us : List Upset) (verify : Bool) :
    State × (List (List Byte) ⊕ Nat) :=
  let l := Loc.spm c
  let abs := relSpans d spans
  let (s1, h) := s.upsets l abs us
  if h ≠ .none then (s1, .inr (hurtCause h))
  else if s1.isRetired c then (s1, .inr 0)
  else if verify ∧ s1.mismatch l abs then (s1, .inr cCrc)
  else (s1, .inl (abs.map (fun (a, n) => (s1.readSpan l a n).2.1)))

/-- A descriptor ends in a fault while the core had other reasons to halt: cause 0 stands for a core that retired. -/
def State.failDesc (s : State) (c : Nat) (d : Desc) (cause : Nat) : State := if cause = 0 then s else s.descFault c d cause

/-! ## Free accumulators -/

/-- The accumulator that eight open numbers make: value, anchor and flags. -/
def openAcc (x : Nat → Int) : Acc :=
  let f (i : Nat) : Bool := Int.emod (x i) 2 = 1
  ⟨x 0, if f 1 then some (Int.emod (x 2) 1024 - 512) else none, f 3, f 4, f 5, f 6, f 7⟩
/-- A free accumulator (R136, R164, R221). -/
def freeAccAt (n : Nat) : Acc := openAcc (fun i => Config.freeAcc (8 * n + i))

/-- Key of an accumulator (R118). -/
def accKey (strip bank row col : Nat) : Nat := ((strip * 2 + bank) * 16 + row) * 64 + col

/-- Every accumulator of some strips becomes free. -/
def State.freeStrips (s : State) (c : Nat) (strips : List Nat) : State :=
  let keys := strips.flatMap (fun st => (List.range 2048).map (fun i => st * 2048 + i))
  { s.modCore c (fun k => { k with matrix := { k.matrix with
      accs := keys.zipIdx.foldl (fun m (x, i) => mset m x (freeAccAt (s.freeCtr + i))) k.matrix.accs } }) with
    freeCtr := s.freeCtr + keys.length }

/-! ## Completion -/

/-- The completion interrupt of a descriptor (R84, R436, R453). -/
def State.completionIrq (s : State) (c p tag : Nat) : State :=
  ((((s.setFld (.partIrqTag p) PartIrqTag.core c).setFld (.partIrqTag p) PartIrqTag.tag tag).wrapFld (.partIrqTag p)
    PartIrqTag.count 1)).partIrq p PartIrqStat.completion

/-- Remove a descriptor in progress and draw the consequences: threads and task sets end, STOP_ALL finishes (R71, R109). -/
def State.dropAct (s : State) (c id : Nat) : State :=
  let s1 := s.modCore c (fun k => { k with active := k.active.filter (fun a => a.id ≠ id) })
  match mfind s1.cores c with
  | none => s1
  | some k =>
    let s2 := if k.stopping ∧ k.active.isEmpty then s1.stopDone c else s1
    s2.settleEnds c

/-- A descriptor completes (R90, R109): its tack is set and its interrupt raised unless STOP_ALL silenced it or it
failed. -/
def State.completeAct (s : State) (c : Nat) (a : Act) : State :=
  if a.silent ∨ a.failed then s.dropAct c a.id
  else
    let s1 := s.setDescTack c a.desc
    let s2 := if a.desc.f 0 37 1 = 1 then
        (match s1.ownerOf c with
        | none => s1
        | some p => s1.completionIrq c p a.desc.tag) else s1
    s2.dropAct c a.id

/-- The descriptors in progress in an engine of a core. -/
def State.actsOf (s : State) (c eng : Nat) : List Act :=
  match mfind s.cores c with
  | none => []
  | some k => k.active.filter (fun a => a.eng = eng)

/-- A fault of a descriptor in progress (R101, R108, R221): its tack will not be set. -/
def State.failAct (s : State) (c id cause : Nat) : State :=
  match mfind s.cores c with
  | none => s
  | some k => match k.active.find? (fun a => a.id = id) with
    | none => s
    | some a => (s.modCore c (fun k => { k with active := k.active.map (fun a => if a.id = id then { a with failed := true } else a) })).failDesc
        c a.desc cause

/-! ## Core control (R109) -/

/-- RESUME: a halted core's stopped threads go on at their saved program counters; no effect otherwise, nor on a retired
core (R109). -/
def execResume (c : Nat) (s : State) : Host.Outcome State Fault Refusal :=
  commit s (Instr.wf (.resume c)) (s.pfWrite (match mfind s.cores c with
    | none => s
    | some k => if k.halted ∧ !s.isRetired c then
        ((s.modCore c (fun k => { k with halted := false })).wakeFull c).wakeIdle c else s))

/-- STOP_ALL (R109). -/
def execStopAll (c : Nat) (s : State) : Host.Outcome State Fault Refusal :=
  commit s (Instr.wf (.stopAll c)) (s.pfWrite (s.stopCore c))

/-- CLEAR_FAULT zeroes CORE_FAULT, accepted only while the core is halted (R112), which a retired core is not (R109). -/
def execClearFault (c : Nat) (s : State) : Host.Outcome State Fault Refusal :=
  commit s (Instr.wf (.clearFault c)) (s.pfWrite (match mfind s.cores c with
    | none => s
    | some k => if k.halted ∧ !s.isRetired c then s.setReg (.coreFault c) 0 else s))

end Sys2Proof.Machine
end

