-- ==== Sys2Proof/Machine/Matrix.lean ====
section
/-! DEFINITION. The matrix engine (R113 to R139, R146 to R149, R151, R153, R158, R159, R162 to R166): body, checks,
conflicts, products in the exact and the wide classes, DRAIN, long partials, ZERO and a failed strip. -/
namespace Sys2Proof.Machine

/-! ## Body and shapes -/

/-- Strips of a shape and unit: the first one and how many (R117, R118); none for an invalid pair. -/
def unitStrips (shape unit : Nat) : Option (Nat × Nat) :=
  match shape with
  | 0 => some (unit, 1)
  | 1 => if unit ≤ 1 then some (2 * unit, 2) else none
  | 2 | 3 => if unit = 0 then some (0, 4) else none
  | _ => none

/-- The strips that a descriptor occupies. -/
def Desc.strips (d : Desc) : List Nat :=
  match unitStrips (d.f 3 0 3) (d.f 3 3 2) with
  | none => []
  | some (f, n) => (List.range n).map (f + ·)

/-- The accumulator bank of a descriptor. -/
def Desc.bank (d : Desc) : Nat := d.f 3 5 1
/-- Valid output rows. -/
def Desc.m (d : Desc) : Nat := d.f 3 16 7
/-- Valid output columns. -/
def Desc.n (d : Desc) : Nat := d.f 3 23 7
/-- First accumulator column. -/
def Desc.accCol (d : Desc) : Nat := d.f 3 30 6

/-- Sparsity factor of B: 1 dense, 2 for 2:4, 4 for 1:4 (R114). -/
def sparsity (sp : Nat) : Nat := if sp = 1 then 2 else if sp = 2 then 4 else 1

/-- K per chunk (strip shapes) or per step (cube) of a format pair, sparsity included (R114, R115). -/
def kChunk (cube : Bool) (fa fb sp : Nat) : Nat :=
  let base := if isWideFmt fa ∨ isWideFmt fb then (if cube then 8 else 32)
    else if is4Fmt fa ∧ is4Fmt fb then (if cube then 32 else 128)
    else (if cube then 16 else 64)
  base * sparsity sp

/-- Whether a code is an operand format of the 4-bit and 8-bit classes (R114, R140). -/
def isExactFmt (f : Nat) : Bool := 3 ≤ f ∧ f ≤ 13

/-- The pairing rule of formats and sparsity (R115). -/
def pairOk (fa fb sp : Nat) : Bool :=
  ((isIntFmt fa && isIntFmt fb) || (isWideFmt fa && isWideFmt fb)
    || (isExactFmt fa && isExactFmt fb && !isIntFmt fa && !isIntFmt fb))
  && (sp ≠ 3) && (sp ≠ 2 || ((fb = 3 || fb = 4 || fb = 12) && isExactFmt fa && !is4Fmt fa))

/-- Whether the core may run a shape on a unit (R122, R138, R139). -/
def State.shapeOk (s : State) (c shape unit : Nat) : Bool :=
  let r : Reg := .coreMxState c
  match shape with
  | 0 => bitAt (s.fld r CoreMxState.stripOk) unit
  | 1 => bitAt (s.fld r CoreMxState.pairOk) unit
  | 2 => s.fld r CoreMxState.quadOk = 1
  | _ => s.fld r CoreMxState.cubeOk = 1

/-- Whether an address is 128-byte aligned. -/
def al128 (a : Nat) : Bool := a % 128 = 0

/-- The checks of R122 that every matrix operation shares. -/
def State.mxCommonOk (s : State) (c : Nat) (d : Desc) : Bool :=
  let shape := d.f 3 0 3
  let maxM := if shape = 0 then 16 else if shape = 1 then 32 else 64
  (unitStrips shape (d.f 3 3 2)).isSome && s.shapeOk c shape (d.f 3 3 2)
    && 1 ≤ d.m && d.m ≤ maxM && 1 ≤ d.n && d.n ≤ 64 && d.accCol + d.n ≤ 64 && (shape ≠ 3 || d.accCol = 0)

/-- Unused and reserved bits of an MMA body: those that the table of R121 does not give to MMA (assumption 31). -/
def mmaBodyOk (d : Desc) : Bool :=
  d.f 1 42 22 = 0 && d.f 2 42 22 = 0 && d.f 3 60 4 = 0 && d.f 4 45 19 = 0 && d.f 5 63 1 = 0 && d.f 6 42 22 = 0
    && d.f 7 0 64 = 0

/-- Unused and reserved bits of a DRAIN, LP_LOAD, LP_ADD or ZERO body (R121); `out` tells whether c_addr is used. -/
def otherBodyOk (d : Desc) (out drain : Bool) : Bool :=
  d.f 1 0 42 = 0 && d.f 1 63 1 = 0 && d.f 2 0 42 = 0 && d.f 2 63 1 = 0 && d.f 3 6 2 = 0 && d.f 3 36 28 = 0
    && d.f 4 0 64 = 0 && d.f 5 0 64 = 0 && d.f 6 0 64 = 0
    && (out || (d.f 1 42 21 = 0 && d.f 2 42 21 = 0)) && (drain || (d.f 3 8 8 = 0 && d.f 7 0 64 = 0))

/-- Whether a running descriptor conflicts with one that would start (R124). -/
def mxConflict (a b : Desc) : Bool :=
  let share := a.strips.any (fun x => b.strips.contains x)
  if a.op = 1 ∧ b.op = 1 then share
  else (share && a.bank = b.bank) || (a.op ≠ 1 && b.op ≠ 1)

/-- Whether an MMA finds another shape than its own as the last one of a strip it would occupy (R125). -/
def State.reshapes (s : State) (c : Nat) (d : Desc) : Bool :=
  match mfind s.cores c with
  | none => false
  | some k => d.op = 1 && d.strips.any (fun x => match mfind k.matrix.lastShape x with
    | none => false
    | some sh => sh != d.f 3 0 3)

/-- Whether the head of the matrix queue must wait for a running descriptor: one that conflicts with it (R124), or, for an MMA
of a new shape, one that occupies a strip of its unit at all (R125). -/
def State.mxHeld (s : State) (c : Nat) (d : Desc) : Bool :=
  (s.actsOf c 0).any (fun a => mxConflict a.desc d || (s.reshapes c d && a.desc.strips.any (fun x => d.strips.contains x)))

/-- The strips of a descriptor's unit have shared it (R136). -/
def State.noteUnit (s : State) (c : Nat) (d : Desc) : State :=
  s.modCore c (fun k => { k with matrix := { k.matrix with
    units := d.strips.foldl (fun m x => mset m x (d.strips.foldl (fun w y => w ||| 2 ^ y) (mget m x 0))) k.matrix.units } })

/-- A matrix operation starts when no running descriptor holds it back (R124, R125). -/
def State.startMatrix (s : State) (c op : Nat) (eff : State → Nat → Desc → State) : State :=
  match s.head c 0 with
  | none => s
  | some (_, d) => if s.mxHeld c d then s else s.startOp c 0 op (fun t p d => eff (t.noteUnit c d) p d)

/-! ## Operands -/

/-- Element `k` of a bit stream of `w`-bit elements (R142). -/
def elemOf (bs : List Byte) (w k : Nat) : Nat :=
  leNat ((bs.drop (w * k / 8)).take (w / 8 + 2)) / 2 ^ (w * k % 8) % 2 ^ w

/-- Valid K positions of an MMA (R121, R135). -/
def kValid (steps last kx : Nat) : Nat := (steps - 1) * kx + (if last = 0 then kx else last)

/-- The dense position of each kept element of a group under 2:4, or none when a group breaks R164. -/
def twoFour (md : List Byte) (g : Nat) : Option (Nat × Nat) :=
  let x := elemOf md 4 g
  if x % 4 < x / 4 then some (x % 4, x / 4) else none

/-- A column of B spread to its dense positions: code and whether a value is kept there (R162, R163). -/
def denseB (bs md : List Byte) (w sp p : Nat) : Option Nat :=
  if sp = 0 then some (elemOf bs w p)
  else if sp = 1 then
    match twoFour md (p / 4) with
    | none => none
    | some (x, y) => if p % 4 = x then some (elemOf bs w (p / 4 * 2)) else if p % 4 = y then some (elemOf bs w (p / 4 * 2 + 1)) else none
  else if p % 4 = elemOf md 2 (p / 4) then some (elemOf bs w (p / 4)) else none

/-- Bytes of a stored row or column of `kv` valid positions (R116, R142, R162, R163). -/
def storedBytes (w sp kv : Nat) : Nat :=
  let n := if sp = 1 then (kv + 3) / 4 * 2 else if sp = 2 then (kv + 3) / 4 else kv
  (n * w + 7) / 8

/-- Bytes of the metadata of a column: K / 8 under either pattern (R164); the bits that R163 gives under 1:4 take the first
half of them (assumption 73). -/
def metaBytes (sp kv : Nat) : Nat := if sp = 0 then 0 else ((kv + 3) / 4 * 4 + 7) / 8

/-- Bytes of the scale row of an operand (R143, R144). -/
def scaleRow (f kv : Nat) : Nat := if isMx f then (kv + 31) / 32 * scaleBytes f else 0

/-- The value of the element at dense position `p` and its block's scale exponent (R143, R144, R146). -/
def opVal (f : Nat) (code p : Nat) (sc : List Byte) : Val × Int :=
  if isMx f then
    let e := (sc.getD (p / 32 * scaleBytes f) 0).toNat
    let sub := if f = 10 then (sc.getD (p / 32 * 2 + 1) 0).toNat else 0
    (mxDecode f code (p % 32) e sub, (e : Int) - 127)
  else (elemDecode f code, 0)

/-- An operand row or column as dense values: none where a position holds no kept value. -/
def opRow (f sp kv : Nat) (bs md sc : List Byte) : List (Option (Val × Int)) :=
  (List.range kv).map (fun p => (denseB bs md (fmtBits f) sp p).map (fun code => opVal f code p sc))

/-- Products of a row and a column into an exact accumulator, in ascending K (R148). -/
def dotExact (fa fb : Nat) (acc : Acc) (a b : List (Option (Val × Int))) : Acc :=
  (a.zip b).foldl (fun x (u, v) => match u, v with
    | some (va, ea), some (vb, eb) => x.addProduct (va.mul vb) (ea + eb + fmtLsb fa + fmtLsb fb)
    | _, _ => x) acc

/-- The leaf of a position in the wide class: the product rounded to FP32, +0 where nothing takes part (R159). -/
def wideLeaf (u v : Option (Val × Int)) : Nat :=
  match u, v with
  | some (va, _), some (vb, _) => toF32 (va.mul vb)
  | _, _ => 0

/-- Chunks of `kx` leaves, the last one padded with +0. -/
def chunks (kx : Nat) : Nat → List Nat → List (List Nat)
  | 0, _ => []
  | n + 1, l => (l.take kx ++ List.replicate (kx - l.length) 0) :: chunks kx n (l.drop kx)

/-- Products of a row and a column into a wide accumulator: per chunk a pairwise tree, then an FP32 addition (R129,
R159). -/
def dotWide (kx steps : Nat) (acc : Acc) (a b : List (Option (Val × Int))) : Acc :=
  let leaves := (a.zip b).map (fun (u, v) => wideLeaf u v)
  (chunks kx steps leaves).foldl (fun x ch =>
    { x with v := (fadd x.v.natAbs (treeFold fadd 0 8 ch) : Nat), wide := true }) acc

/-- An accumulator as the target of a class: one that holds a value of the other class becomes an open one, the same for the
same inputs (R160, assumption 21). -/
def Acc.recast (a : Acc) (wide : Bool) : Acc :=
  if a = Acc.zero then { a with wide := wide }
  else if a.wide = wide then a
  else if wide then { Acc.zero with v := Int.ofNat (canon32 ((Config.recastAcc a.toLp 0).natAbs % 2 ^ 32)), wide := true }
  else { openAcc (Config.recastAcc a.toLp) with wide := false }

/-- The accumulator of output (i, j) of a descriptor (R118). -/
def Desc.accKeyOf (d : Desc) (i j : Nat) : Nat := accKey (d.strips.headD 0 + i / 16) d.bank (i % 16) (d.accCol + j)

/-- The outputs of a descriptor, row by row. -/
def Desc.outputs (d : Desc) : List (Nat × Nat) := (List.range d.m).flatMap (fun i => (List.range d.n).map (fun j => (i, j)))

/-- Change the accumulators of a core. -/
def State.modAccs (s : State) (c : Nat) (f : SMap Acc → SMap Acc) : State :=
  s.modCore c (fun k => { k with matrix := { k.matrix with accs := f k.matrix.accs } })

/-- The accumulators of a core. -/
def State.accs (s : State) (c : Nat) : SMap Acc :=
  match mfind s.cores c with
  | none => []
  | some k => k.matrix.accs

/-- Busy cycles and charge of strips (R521), as one sum at the start (assumption 5). -/
def State.strips (s : State) (c p cycles n : Nat) : State :=
  (s.liveAdd (.coreBusySnap c 0) CoreBusySnap.cycles cycles).charge p (36875 * cycles * n)

/-! ## MMA -/

/-- Feed cycles (R127). -/
def feedCycles (d : Desc) : Nat :=
  let sp := sparsity (d.f 4 0 2)
  let up (x k : Nat) : Nat := (x + k - 1) / k
  if d.f 3 0 3 = 3 then
    d.f 3 36 16 * max (up d.m 16 * up d.n 16) (up (16 * up d.m 16 * sp + 16 * up d.n 16) 32)
  else d.f 3 36 16 * max d.n (8 * sp + up d.n 2)

/-- The checks of an MMA body (R121, R122). -/
def State.mmaOk (s : State) (c : Nat) (d : Desc) : Bool :=
  let fa := d.f 3 8 4
  let fb := d.f 3 12 4
  let sp := d.f 4 0 2
  s.mxCommonOk c d && mmaBodyOk d && d.f 3 6 2 ≤ 1 && pairOk fa fb sp && d.f 3 36 16 ≠ 0
    && d.f 3 52 8 ≤ kChunk (d.f 3 0 3 = 3) fa fb sp
    && [d.f 1 0 21, d.f 1 21 21, d.f 2 0 21, d.f 2 21 21, d.f 4 2 21, d.f 4 23 21, d.f 5 0 21, d.f 5 21 21, d.f 5 42 21,
        d.f 6 0 21, d.f 6 21 21].all al128

/-- Whether the metadata of a column breaks R164 in a group that takes part. -/
def metaBad (sp kv : Nat) (md : List Byte) : Bool :=
  sp = 1 && (List.range ((kv + 3) / 4)).any (fun g => (twoFour md g).isNone)

/-- The spans an MMA reads: rows of A, columns of B, metadata, scales of A and of B, row mask. -/
def mmaSpans (d : Desc) (kv : Nat) (rows : List Nat) : List Span :=
  let fa := d.f 3 8 4
  let fb := d.f 3 12 4
  let sp := d.f 4 0 2
  rows.map (fun i => (d.f 1 0 21 + i * d.f 2 0 21, storedBytes (fmtBits fa) 0 kv))
    ++ (List.range d.n).map (fun j => (d.f 1 21 21 + j * d.f 2 21 21, storedBytes (fmtBits fb) sp kv))
    ++ (List.range d.n).map (fun j => (d.f 4 2 21 + j * d.f 4 23 21, metaBytes sp kv))
    ++ rows.map (fun i => (d.f 5 21 21 + i * d.f 6 0 21, scaleRow fa kv))
    ++ (List.range d.n).map (fun j => (d.f 5 42 21 + j * d.f 6 21 21, scaleRow fb kv))

/-- The accumulators after an MMA (R113, R118, R129, R135): `rows` are the rows that take part, `parts` the bytes of the
spans in the order of mmaSpans. acc_init 1 zeroes every accumulator that the descriptor names, those of masked rows too: R130
and R135 do not say which of them holds there (assumption 71). -/
def mmaAccs (d : Desc) (accs : SMap Acc) (rows : List Nat) (parts : List (List Byte)) : SMap Acc :=
  let fa := d.f 3 8 4
  let fb := d.f 3 12 4
  let sp := d.f 4 0 2
  let kx := kChunk (d.f 3 0 3 = 3) fa fb sp
  let kv := kValid (d.f 3 36 16) (d.f 3 52 8) kx
  let r := rows.length
  let part (i : Nat) : List Byte := parts.getD i []
  let cols := (List.range d.n).map (fun j => opRow fb sp kv (part (r + j)) (part (r + d.n + j)) (part (2 * r + 2 * d.n + j)))
  let zeroed := if d.f 3 6 2 = 1 then d.outputs.foldl (fun m (i, j) => mset m (d.accKeyOf i j) Acc.zero) accs else accs
  rows.zipIdx.foldl (fun m (i, x) =>
    let row := opRow fa 0 kv (part x) [] (part (r + 2 * d.n + x))
    cols.zipIdx.foldl (fun m (col, j) =>
      let key := d.accKeyOf i j
      let a := (mget m key Acc.zero).recast (isWideFmt fa)
      mset m key (if isWideFmt fa then dotWide kx (d.f 3 36 16) a row col else dotExact fa fb a row col)) m) zeroed

/-- The strips of a partition that an MMA keeps busy now, as 4 * core + strip. -/
def State.busyStrips (s : State) (p : Nat) : List Nat :=
  (s.coresOf p).flatMap (fun c => ((s.actsOf c 0).filter (fun a => a.desc.op = 1)).flatMap (fun a => a.desc.strips.map (fun x => 4 * c + x)))
/-- The strips of a partition busy with an MMA at some time in this microsecond, with `more` of them. -/
def State.touched (s : State) (p : Nat) (q : Part) (more : List Nat) : List Nat := uniq (q.busyNow ++ s.busyStrips p ++ more)
/-- The strips of a core that a descriptor names, as 4 * core + strip. -/
def Desc.stripIds (d : Desc) (c : Nat) : List Nat := d.strips.map (fun x => 4 * c + x)
/-- Ballast that still runs when an MMA takes `more` strips: it gives way (R410). -/
def State.ballastLeft (s : State) (p : Nat) (q : Part) (more : List Nat) : Nat :=
  q.ballast - ((s.touched p q more).length - (s.touched p q []).length)
/-- Whether the slew limiter lets an MMA start on strips of a partition (R409). -/
def State.slewOk (s : State) (p : Nat) (ids : List Nat) : Bool :=
  match mfind s.parts p with
  | none => false
  | some q =>
    let low := if q.slewHist.length < 100 then 0 else q.slewHist.foldl min (q.slewHist.headD 0)
    (s.touched p q ids).length + s.ballastLeft p q ids ≤ low + s.fld (.optSlewPart p) OptSlewPart.allowance

/-- The effect of an MMA whose head has been popped. -/
def State.doMma (s : State) (c p : Nat) (d : Desc) (us : List Upset) : State :=
  if !s.mmaOk c d then s.descFault c d cDesc
  else
    let kx := kChunk (d.f 3 0 3 = 3) (d.f 3 8 4) (d.f 3 12 4) (d.f 4 0 2)
    let kv := kValid (d.f 3 36 16) (d.f 3 52 8) kx
    let maskSpan : List Span := if d.f 4 44 1 = 1 then [(d.f 5 0 21, 8)] else []
    let all := mmaSpans d kv (List.range d.m) ++ maskSpan
    if !inEnv d all then s.descFault c d cBound
    else
      let maskBits := if d.f 4 44 1 = 1 then
          (match mfind s.cores c with
          | none => 0
          | some k => memNat k.spm (envAt d.env 0 + d.f 5 0 21) 8) else 2 ^ 64 - 1
      let rows := (List.range d.m).filter (bitAt maskBits)
      let (s1, res) := s.engineRead c d (mmaSpans d kv rows ++ maskSpan) us true
      match res with
      | .inr cause => (s1.freeStrips c d.strips).failDesc c d cause
      | .inl parts =>
        if (List.range d.n).any (fun j => metaBad (d.f 4 0 2) kv (parts.getD (rows.length + d.n + j) [])) then
          (s1.freeStrips c d.strips).descFault c d cDesc
        else
          let s2 := s1.modAccs c (fun m => mmaAccs d m rows parts)
          let s3 := s2.modCore c (fun k => { k with matrix := { k.matrix with
            lastShape := d.strips.foldl (fun m x => mset m x (d.f 3 0 3)) k.matrix.lastShape } })
          ((s3.modPart p (fun q => { q with
            ballast := s3.ballastLeft p q (d.stripIds c), busyNow := s3.touched p q (d.stripIds c) })).strips c p (feedCycles d)
            d.strips.length).addAct c 0 d 0 0

/-- MMA (R113 to R129): held at the head, and counted, while the slew limiter lets no further strip start (R409). -/
def execMma (c : Nat) (u : List Upset) (s : State) : Host.Outcome State Fault Refusal :=
  commit s (Instr.wf (.mma c u)) (match s.head c 0 with
    | none => s
    | some (p, d) =>
      if d.op = 1 ∧ !s.mxHeld c d ∧ !s.slewOk p (d.stripIds c) then
        s.satFld (.optSlewPart p) OptSlewPart.held 1
      else s.startMatrix c 1 (fun s1 p d => s1.doMma c p d u))

/-! ## DRAIN -/

/-- Bytes of one output of a DRAIN (R131). -/
def drainSize (lp : Bool) (fmt : Nat) : Nat := if lp then 16 else fmtBits fmt / 8

/-- The bytes of one output (R131, R132, R153, R155, R158). -/
def drainElem (d : Desc) (a : Acc) (i j : Nat) : List Byte :=
  let fmt := d.f 3 8 4
  if d.f 3 15 1 = 1 then leBytes 16 a.toLp
  else if fmt = 0 then leBytes 4 a.toF32
  else leBytes (fmtBits fmt / 8) (elemEncode fmt (rndOf (d.f 3 12 3) (d.f 7 0 64) (i * 64 + j)) (ofF32 a.toF32))

/-- The checks of a DRAIN body (R121, R122, R154). -/
def State.drainOk (s : State) (c : Nat) (d : Desc) : Bool :=
  let fmt := d.f 3 8 4
  let rc := d.f 3 12 3
  s.mxCommonOk c d && otherBodyOk d true true && al128 (d.f 1 42 21) && al128 (d.f 2 42 21) && rc ≤ 3
    && (if d.f 3 15 1 = 1 then fmt = 0 && rc = 0 else fmt ≤ 4 && (fmt ≠ 0 || rc = 0)) && (rc = 3 || d.f 7 0 64 = 0)

/-- Rows of `size`-byte outputs of a descriptor as scratchpad spans (R131). -/
def outSpans (d : Desc) (size : Nat) : List Span := (List.range d.m).map (fun i => (d.f 1 42 21 + i * d.f 2 42 21, d.n * size))

/-- The banks that a DRAIN reads with their flag set: bit 2s + b (R134, R151). -/
def inexactMask (d : Desc) (accs : SMap Acc) : Nat :=
  (d.strips.filter (fun st => st - d.strips.headD 0 ≤ (d.m - 1) / 16)).foldl (fun m st =>
    if accs.any (fun (k, a) => a.inexact ∧ k / 1024 = st * 2 + d.bank) then m + 2 ^ (2 * st + d.bank) else m) 0

/-- The effect of a DRAIN whose head has been popped (R131, R134, R151, R217). -/
def State.doDrain (s : State) (c p : Nat) (d : Desc) : State :=
  let size := drainSize (d.f 3 15 1 = 1) (d.f 3 8 4)
  if !s.drainOk c d then s.descFault c d cDesc
  else if !inEnv d (outSpans d size) ∨ s.stepGuarded (.spm c) (relSpans d (outSpans d size)) then s.descFault c d cBound
  else
    let accs := s.accs c
    let runs := (List.range d.m).map (fun i => (envAt d.env 0 + d.f 1 42 21 + i * d.f 2 42 21,
      (List.range d.n).flatMap (fun j => drainElem d (mget accs (d.accKeyOf i j) Acc.zero) i j)))
    let (s1, _) := s.writeGen (.spm c) runs
    let im := inexactMask d accs
    let s2 := if im = 0 then s1
      else (s1.setFld (.coreMxInexact c) CoreMxInexact.inexact (s1.fld (.coreMxInexact c) CoreMxInexact.inexact ||| im)).log {
        code := 0x4301, part := some p, core := some c, detail := det [(1, d.tag), (1, im)] }
    (s2.strips c p ((d.m * d.n * size + 127) / 128) 0).addAct c 0 d 0 0

/-- MATRIX_DRAIN (R131). -/
def execMatrixDrain (c : Nat) (s : State) : Host.Outcome State Fault Refusal :=
  commit s (Instr.wf (.matrixDrain c)) (s.startMatrix c 2 (fun s1 p d => s1.doDrain c p d))

/-! ## Long partials and ZERO -/

/-- The effect of LP_LOAD or LP_ADD whose head has been popped (R132, R133): a long partial of another class than the accumulator
it targets faults with DESC_INVALID; a zeroed accumulator has no class yet (assumption 21). -/
def State.doLp (s : State) (c p : Nat) (d : Desc) (add : Bool) (us : List Upset) : State :=
  if !(s.mxCommonOk c d && otherBodyOk d true false && al128 (d.f 1 42 21) && al128 (d.f 2 42 21)) then s.descFault c d cDesc
  else if !inEnv d (outSpans d 16) then s.descFault c d cBound
  else
    let (s1, res) := s.engineRead c d (outSpans d 16) us true
    match res with
    | .inr cause => (s1.freeStrips c d.strips).failDesc c d cause
    | .inl parts =>
      let accs := s1.accs c
      let lp (i j : Nat) : Acc := Acc.ofLp (leNat (((parts.getD i []).drop (16 * j)).take 16))
      let clash := d.outputs.any (fun (i, j) =>
        let a := mget accs (d.accKeyOf i j) Acc.zero
        a ≠ Acc.zero ∧ a.wide ≠ (lp i j).wide)
      if clash then s1.descFault c d cDesc
      else
        let s2 := s1.modAccs c (fun m => d.outputs.foldl (fun m (i, j) =>
          let k := d.accKeyOf i j
          mset m k (if add then (mget m k Acc.zero).addLp (lp i j) else lp i j)) m)
        (s2.strips c p ((d.m * d.n * 16 + 127) / 128) 0).addAct c 0 d 0 0

/-- LP_LOAD (R133). -/
def execLpLoad (c : Nat) (u : List Upset) (s : State) : Host.Outcome State Fault Refusal :=
  commit s (Instr.wf (.lpLoad c u)) (s.startMatrix c 3 (fun s1 p d => s1.doLp c p d false u))

/-- LP_ADD (R133). -/
def execLpAdd (c : Nat) (u : List Upset) (s : State) : Host.Outcome State Fault Refusal :=
  commit s (Instr.wf (.lpAdd c u)) (s.startMatrix c 4 (fun s1 p d => s1.doLp c p d true u))

/-- ZERO: the accumulators of the m by n outputs become zero and lose their flags, in 4 cc (R120, R128, R149). -/
def execZero (c : Nat) (s : State) : Host.Outcome State Fault Refusal :=
  commit s (Instr.wf (.zero c)) (s.startMatrix c 5 (fun s1 p d =>
    if !(s1.mxCommonOk c d && otherBodyOk d false false) then s1.descFault c d cDesc
    else ((s1.modAccs c (fun m => d.outputs.foldl (fun m (i, j) => mset m (d.accKeyOf i j) Acc.zero) m)).strips c p 4 0).addAct
      c 0 d 0 0))

/-! ## A failed strip (R136, R137) -/

/-- Strips that neither failed nor are switched off. -/
def State.stripsWorking (s : State) (c : Nat) : Nat := popcount 4 (s.fld (.coreMxState c) CoreMxState.stripOk)

/-- The strips whose accumulators a failed strip leaves undefined: its own, and those of every unit that used it (R136). -/
def State.failedUnits (s : State) (c strip : Nat) : List Nat :=
  match mfind s.cores c with
  | none => []
  | some k => (List.range 4).filter (fun x => x = strip || bitAt (mget k.matrix.units strip 0) x)

/-- STRIP_FAILURE: ENGINE_HW halts the core, the strip is marked failed and the accumulators of the units that used it are free;
with two or fewer strips working the core is retired (R136, R137). -/
def execStripFailure (c strip : Nat) (s : State) : Host.Outcome State Fault Refusal :=
  commit s (Instr.wf (.stripFailure c strip)) (match mfind s.cores c with
    | none => s
    | some _ =>
      let r : Reg := .coreMxState c
      let ok := s.fld r CoreMxState.stripOk
      let pr := s.fld r CoreMxState.pairOk
      let s1 := ((((s.setFld r CoreMxState.stripOk (ok - b2n (bitAt ok strip) * 2 ^ strip)).setFld r CoreMxState.pairOk
        (pr - b2n (bitAt pr (strip / 2)) * 2 ^ (strip / 2))).setFld r CoreMxState.quadOk 0).setFld r CoreMxState.cubeOk 0)
      let s2 := s1.modCore c (fun k => { k with matrix := { k.matrix with failed := strip :: k.matrix.failed.filter (· != strip) } })
      let s3 := (s2.setFld (.coreCap c) CoreCap.strips (s2.stripsWorking c)).setFld (.coreCap c) CoreCap.cube 0
      let s4 := (s3.freeStrips c (s.failedUnits c strip)).coreFault c cHw { thread := 0, engine := 0, strip := strip }
      if s4.stripsWorking c ≤ 2 then s4.retireCore c else s4)

end Sys2Proof.Machine
end

