-- ==== Sys2Proof/Machine/Special.lean ====
section
/-! DEFINITION. The special functions of the vector engine (R94, R95): the exact value of each in fixed point with far more bits
than FP32 holds, and the FP32 result, an open value that stays within the maximum error of R94. -/
namespace Sys2Proof.Machine

/-! ## Fixed point: integers in units of 2^-512 -/

/-- One in fixed point. -/
def fxOne : Int := 2 ^ 512
/-- Product of fixed-point numbers, rounded down. -/
def fxMul (a b : Int) : Int := a * b / fxOne
/-- Quotient of fixed-point numbers, rounded down. -/
def fxDiv (a b : Int) : Int := a * fxOne / b
/-- A fixed-point number as a value. -/
def fxVal (x : Int) : Val := .fin (decide (x < 0)) x.natAbs (-512)
/-- The fixed-point reading of a finite value. -/
def fxOf (neg : Bool) (m : Nat) (e : Int) : Int :=
  let a : Int := if -512 ≤ e then (m : Int) * 2 ^ (e + 512).natAbs else (m / 2 ^ (-512 - e).natAbs : Nat)
  if neg then -a else a

/-- The sum of `n` terms of a power series from term number `k` on: `next i t` follows term `t` of number `i`, `part i t` is what
the term adds. -/
def series (next part : Nat → Int → Int) : Nat → Nat → Int → Int
  | 0, _, _ => 0
  | n + 1, k, t => part k t + series next part n (k + 1) (next k t)

/-- e^x for |x| at most 1. -/
def fxExp (x : Int) : Int := series (fun k t => fxMul t x / ((k : Int) + 1)) (fun _ t => t) 110 0 fxOne
/-- Inverse hyperbolic tangent for |x| at most 1/3. -/
def fxAtanh (x : Int) : Int := series (fun _ t => fxMul (fxMul t x) x) (fun k t => t / (2 * (k : Int) + 1)) 180 0 x
/-- Inverse tangent for |x| at most 1/3. -/
def fxAtan (x : Int) : Int := series (fun _ t => -fxMul (fxMul t x) x) (fun k t => t / (2 * (k : Int) + 1)) 180 0 x
/-- Sine for |x| at most 1. -/
def fxSin (x : Int) : Int :=
  series (fun k t => -fxMul (fxMul t x) x / ((2 * (k : Int) + 2) * (2 * k + 3))) (fun _ t => t) 60 0 x
/-- Cosine for |x| at most 1. -/
def fxCos (x : Int) : Int :=
  series (fun k t => -fxMul (fxMul t x) x / ((2 * (k : Int) + 1) * (2 * k + 2))) (fun _ t => t) 60 0 fxOne
/-- x minus x^3 / (1! 3) plus x^5 / (2! 5) and so on: erf without its factor, for |x| at most 12. -/
def fxErfSum (x : Int) : Int :=
  series (fun k t => -fxMul (fxMul t x) x / ((k : Int) + 1)) (fun k t => t / (2 * (k : Int) + 1)) 900 0 x

/-- ln 2. -/
def fxLn2 : Int := 2 * fxAtanh (fxOne / 3)
/-- Pi, by Machin's formula. -/
def fxPi : Int := 16 * fxAtan (fxOne / 5) - 4 * fxAtan (fxOne / 239)
/-- The square root of a fixed-point number below 2^512. -/
def fxSqrt (x : Int) : Int := (isqrtFrom (x * fxOne).natAbs 768 0 : Nat)
/-- erf for |x| at most 12. -/
def fxErf (x : Int) : Int := fxDiv (2 * fxErfSum x) (fxSqrt fxPi)
/-- 2^x as a value; beyond the range of FP32 a power that rounds as it does. -/
def exp2Val (x : Int) : Val :=
  if 200 * fxOne ≤ x then .fin false 1 200
  else if x ≤ -(400 * fxOne) then .fin false 1 (-400)
  else (fxVal (fxExp (fxMul (x % fxOne) fxLn2))).scale (x / fxOne)
/-- e^-x in fixed point, for x not negative. -/
def fxExpNeg (x : Int) : Int :=
  let q := -fxDiv x fxLn2
  if q ≤ -(600 * fxOne) then 0 else fxExp (fxMul (q % fxOne) fxLn2) / 2 ^ (-(q / fxOne)).natAbs

/-! ## The exact values (R94) -/

/-- log2 of m * 2^e for m not 0. -/
def log2Val (m : Nat) (e : Int) : Val :=
  let l := Nat.log2 m
  let big : Bool := 3 * 2 ^ l < 2 * m
  let den : Int := if big then 2 ^ (l + 1) else 2 ^ l
  let x : Int := e + l + (if big then 1 else 0)
  fxVal (x * fxOne + fxDiv (2 * fxAtanh (fxDiv ((m : Int) - den) ((m : Int) + den))) fxLn2)
/-- Sine and cosine of a fixed-point number. -/
def sinCosVal (x : Int) : Val × Val :=
  let h := fxPi / 2
  let k := (x + h / 2) / h
  let r := x - k * h
  let sc := (fxSin r, fxCos r)
  if k % 4 = 0 then (fxVal sc.1, fxVal sc.2) else if k % 4 = 1 then (fxVal sc.2, fxVal (-sc.1))
  else if k % 4 = 2 then (fxVal (-sc.1), fxVal (-sc.2)) else (fxVal (-sc.2), fxVal sc.1)
/-- tanh of a fixed-point number. -/
def tanhVal (x : Int) : Val :=
  let t := fxExpNeg (2 * (x.natAbs : Int))
  let y := fxDiv (fxOne - t) (fxOne + t)
  fxVal (if x < 0 then -y else y)
/-- The sigmoid of a fixed-point number. -/
def sigmoidVal (x : Int) : Val :=
  let t := fxExpNeg (x.natAbs : Int)
  fxVal (if x < 0 then fxDiv t (fxOne + t) else fxDiv fxOne (fxOne + t))
/-- erf of a fixed-point number: 1 to far below an ulp from 8 on. -/
def erfVal (x : Int) : Val :=
  if 8 * fxOne ≤ x then fxVal fxOne else if x ≤ -(8 * fxOne) then fxVal (-fxOne) else fxVal (fxErf x)
/-- GELU, x (1 + erf (x / sqrt 2)) / 2, of a fixed-point number: x to far below an ulp from 16 on, and 0 up to -16. -/
def geluVal (x : Int) : Val :=
  if 16 * fxOne ≤ x then fxVal x else if x ≤ -(16 * fxOne) then .fin true 0 0
  else fxVal (fxMul x (fxOne + fxErf (fxDiv x (fxSqrt (2 * fxOne)))) / 2)

/-! ## The results -/

/-- Whether FP32 bits lie within `k` ulp of a finite value, the ulp being that of FP32 at the value (R94). -/
def near (k cand : Nat) (exact : Val) : Bool :=
  match ofF32 cand, exact with
  | .fin nc mc ec, .fin nx mx ex =>
    let u : Int := max ((Nat.log2 mx : Int) + ex) (-126) - 23
    let lo := min (min ec ex) (if mx = 0 then -149 else u)
    decide ((alignTo nc mc ec lo - alignTo nx mx ex lo).natAbs ≤ k * 2 ^ ((if mx = 0 then -149 else u) - lo).natAbs)
  | _, _ => false

/-- An open result kept within `k` ulp of its exact value: another one gives way to the value rounded to nearest (R94,
assumption 72). -/
def keepNear (k : Nat) (cand : BitVec 32) (exact : Val) : Nat := if near k cand.toNat exact then cand.toNat else toF32 exact

/-- A special function of error at most `k` ulp: NaN gives the canonical NaN (R95); `atInf` is the limit at an infinity of a
sign, `exact` the value at a finite input. -/
def special (k : Nat) (bits : U32 → U32) (atInf : Bool → Val) (exact : Bool → Nat → Int → Val) (a : Nat) : Nat :=
  match ofF32 a with
  | .nan => nan32
  | .inf neg => keepNear k (bits (BitVec.ofNat 32 a)) (atInf neg)
  | .fin neg m e => keepNear k (bits (BitVec.ofNat 32 a)) (exact neg m e)

/-- Reciprocal: an infinity at 0 (R94, R95). -/
def frecip (a : Nat) : Nat :=
  special 1 Config.recipBits (fun neg => .fin neg 0 0) (fun neg m e =>
    if m = 0 then .inf neg else quotVal neg (2 ^ 200) m (-e - 200)) a

/-- Reciprocal square root: an infinity at 0, NaN below it (R94, R95). -/
def frsqrt (a : Nat) : Nat :=
  special 1 Config.rsqrtBits (fun neg => if neg then .nan else .fin false 0 0) (fun neg m e =>
    if m = 0 then .inf neg else if neg then .nan
    else quotVal false (2 ^ 600) (isqrtFrom (m * 2 ^ (e % 2).natAbs * 2 ^ 800) 420 0) (-(e / 2) - 200)) a

/-- exp2 (R94, R95). -/
def fexp2 (a : Nat) : Nat :=
  special 1 Config.exp2Bits (fun neg => if neg then .fin false 0 0 else .inf false) (fun neg m e => exp2Val (fxOf neg m e)) a
/-- log2: NaN below 0 (R94, R95); the value at 0 is not stated and stays open. -/
def flog2 (a : Nat) : Nat :=
  if ofF32 a = .fin false 0 (-149) ∨ ofF32 a = .fin true 0 (-149) then (Config.log2Bits (BitVec.ofNat 32 a)).toNat
  else special 1 Config.log2Bits (fun neg => if neg then .nan else .inf false) (fun neg m e => if neg then .nan else log2Val m e) a
/-- Op 0x26 on [-2^15, 2^15]: within 2 ulp of the sine or of the cosine, since the spec does not say which of the two the op
gives (assumption 72); NaN outside (R94, R95). -/
def fsincos (a : Nat) : Nat :=
  match ofF32 a with
  | .nan => nan32
  | .inf _ => nan32
  | .fin neg m e =>
    if a % 0x80000000 > 0x47000000 then nan32
    else
      let x := sinCosVal (fxOf neg m e)
      let b := Config.sinCosBits (BitVec.ofNat 32 a)
      if near 2 b.toNat x.1 then b.toNat else keepNear 2 b x.2
/-- tanh (R94, R95). -/
def ftanh (a : Nat) : Nat := special 2 Config.tanhBits (fun neg => .fin neg 1 0) (fun neg m e => tanhVal (fxOf neg m e)) a
/-- Sigmoid (R94, R95). -/
def fsigmoid (a : Nat) : Nat :=
  special 2 Config.sigmoidBits (fun neg => .fin false (if neg then 0 else 1) 0) (fun neg m e => sigmoidVal (fxOf neg m e)) a
/-- erf (R94, R95). -/
def ferf (a : Nat) : Nat := special 2 Config.erfBits (fun neg => .fin neg 1 0) (fun neg m e => erfVal (fxOf neg m e)) a
/-- GELU (R94, R95). -/
def fgelu (a : Nat) : Nat :=
  special 3 Config.geluBits (fun neg => if neg then .fin true 0 0 else .inf false) (fun neg m e => geluVal (fxOf neg m e)) a

end Sys2Proof.Machine
end

