-- ==== Sys2Proof/Machine/Vector.lean ====
section
/-! DEFINITION. The vector engine (R92 to R95, R140, R142 to R145, R154 to R158): body, operands, elementwise
operations, conversions, reductions, softmax and the special functions. -/
namespace Sys2Proof.Machine

/-! ## Body -/

/-- Rows of a vector descriptor. -/
def Desc.vRows (d : Desc) : Nat := d.f 4 0 16
/-- Elements per row. -/
def Desc.vCols (d : Desc) : Nat := d.f 4 16 16
/-- fmt_in. -/
def Desc.vIn (d : Desc) : Nat := d.f 4 32 4
/-- fmt_out. -/
def Desc.vOut (d : Desc) : Nat := d.f 4 36 4

/-- Operations of two operands. -/
def vTwo (op : Nat) : Bool := (1 ≤ op && op ≤ 5) || op = 0x20
/-- Reductions to one element per row. -/
def vReduces (op : Nat) : Bool := op = 0x10 || op = 0x11

/-- The checks of a vector body (R93, R140, R154, R156; assumption 31). -/
def vectorOk (d : Desc) : Bool :=
  d.f 1 21 43 = 0 && d.f 2 21 43 = 0 && d.f 3 21 43 = 0 && d.f 4 43 21 = 0
    && d.vRows ≠ 0 && d.vCols ≠ 0 && al128 (d.f 1 0 21) && al128 (d.f 3 0 21) && al128 (d.f 5 0 32) && al128 (d.f 5 32 32)
    && al128 (d.f 6 0 32) && d.f 4 40 3 ≤ 3
    && (if d.op = 8 then
          d.vIn ≤ 13 && d.vOut ≤ 13 && !(isMx d.vIn && isMx d.vOut) && (!(isMx d.vIn || isMx d.vOut) || d.vCols % 32 = 0)
        else d.vIn ≤ 2 && d.vOut ≤ 2)
    && (vTwo d.op || isMx d.vIn || isMx d.vOut || d.f 2 0 21 = 0)

/-- Bytes of a row of elements (R142). -/
def rowBytes (f cols : Nat) : Nat := (cols * fmtBits f + 7) / 8

/-- The spans read: rows of a, then rows of b or of the scale array of a block-scaled input. -/
def vReads (d : Desc) : List Span :=
  let rs := List.range d.vRows
  rs.map (fun r => (d.f 1 0 21 + r * d.f 5 0 32, rowBytes d.vIn d.vCols))
    ++ (if vTwo d.op then rs.map (fun r => (d.f 2 0 21 + r * d.f 5 32 32, rowBytes d.vIn d.vCols))
        else if isMx d.vIn then rs.map (fun r => (d.f 2 0 21 + r * d.f 5 32 32, scaleRow d.vIn d.vCols)) else [])

/-- The spans written: rows of dst, or its elements one per row, and the scale array of a block-scaled output. -/
def vWrites (d : Desc) : List Span :=
  let rs := List.range d.vRows
  (if isMx d.vOut then rs.map (fun r => (d.f 2 0 21 + r * d.f 5 32 32, scaleRow d.vOut d.vCols)) else [])
    ++ (if vReduces d.op then [(d.f 3 0 21, rowBytes d.vOut d.vRows)]
        else rs.map (fun r => (d.f 3 0 21 + r * d.f 6 0 32, rowBytes d.vOut d.vCols)))

/-! ## Elements -/

/-- The elements of a row of bytes as values, widened exactly (R140, R143, R144). -/
def rowVals (f cols : Nat) (bs sc : List Byte) : List Val :=
  (List.range cols).map (fun k =>
    let code := elemOf bs (fmtBits f) k
    if isMx f then
      mxDecode f code (k % 32) (sc.getD (k / 32 * scaleBytes f) 0).toNat (if f = 10 then (sc.getD (k / 32 * 2 + 1) 0).toNat else 0)
    else elemDecode f code)

/-- Pack codes of `w` bits as a little-endian bit stream; the last byte's unused bits are 0 (R142). -/
def packCodes (w : Nat) (codes : List Nat) : List Byte :=
  leBytes ((codes.length * w + 7) / 8) (codes.foldr (fun c acc => c % 2 ^ w + acc * 2 ^ w) 0)

/-- Groups of 32 of a row. -/
def blocks32 (xs : List Val) : List (List Val) :=
  (List.range ((xs.length + 31) / 32)).map (fun b => (xs.drop (32 * b)).take 32)

/-- A row narrowed to fmt_out: its bytes and those of its scale row (R145, R154 to R158). `e0` is the index of the
row's first element. -/
def narrowRow (d : Desc) (e0 : Nat) (xs : List Val) : List Byte × List Byte :=
  let md (i : Nat) : Rnd := rndOf (d.f 4 40 3) (d.f 7 0 64) (e0 + i)
  if isMx d.vOut then
    let qs := (blocks32 xs).zipIdx.map (fun (b, n) => mxQuant d.vOut (fun i => md (32 * n + i)) b)
    (packCodes (fmtBits d.vOut) (qs.flatMap (fun q => q.2.2)),
      qs.flatMap (fun q => leBytes 1 q.1 ++ (if d.vOut = 10 then leBytes 1 q.2.1 else [])))
  else (packCodes (fmtBits d.vOut) (xs.zipIdx.map (fun (x, i) => elemEncode d.vOut (md i) x)), [])

/-! ## Operations on FP32 values -/

/-- The groups of 256 lanes of a row (R93). -/
def laneGroups (xs : List Nat) : List (List Nat) :=
  (List.range ((xs.length + 255) / 256)).map (fun g => (xs.drop (256 * g)).take 256)

/-- The sum of a row in the fixed order of R93. -/
def rowSum (xs : List Nat) : Nat :=
  let gs := (laneGroups xs).map (fun g => treeFold fadd 0 8 (g ++ List.replicate (256 - g.length) 0))
  match gs with
  | [] => 0
  | x :: r => r.foldl fadd x

/-- The maximum of a row (R93): lanes beyond cols take no part. -/
def rowMax (xs : List Nat) : Nat :=
  match (laneGroups xs).map (fun g => treeFold fmax 0 8 g) with
  | [] => 0
  | x :: r => r.foldl fmax x

/-- Row softmax: max, exp2 of the scaled difference, sum, scale; each step rounded to FP32. The last step divides each term by the
sum, correctly rounded: the spec does not say how it scales (assumption 32). -/
def rowSoftmax (scalar : Nat) (xs : List Nat) : List Nat :=
  let m := rowMax xs
  let es := xs.map (fun x => fexp2 (fmul (fadd x (fneg m)) scalar))
  let t := rowSum es
  es.map (fun e => fdiv e t)

/-- The elementwise result of an operation on FP32 operands (R92, R94, R95). -/
def vElem (op scalar a b : Nat) : Nat :=
  match op with
  | 1 => fadd a b
  | 2 => fmul a b
  | 3 => ffma a scalar b
  | 4 => fmax a b
  | 5 => fmin a b
  | 0x20 => fdiv a b
  | 0x21 => fsqrt a
  | 0x22 => frsqrt a
  | 0x23 => frecip a
  | 0x24 => fexp2 a
  | 0x25 => flog2 a
  | 0x26 => fsincos a
  | 0x27 => ftanh a
  | 0x28 => fsigmoid a
  | 0x29 => ferf a
  | _ => fgelu a

/-- The result row of an operation other than convert. -/
def vRow (op scalar : Nat) (a b : List Nat) : List Nat :=
  if op = 0x10 then [rowSum a]
  else if op = 0x11 then [rowMax a]
  else if op = 0x12 then rowSoftmax scalar a
  else if vTwo op then (a.zip b).map (fun (x, y) => vElem op scalar x y)
  else a.map (fun x => vElem op scalar x 0)

/-! ## Effect -/

/-- Cycles at the rates of the operation table (R92, R93). -/
def vCycles (d : Desc) : Nat :=
  let rate := if d.op ≤ 3 ∧ (d.vIn = 1 ∨ d.vIn = 2) then 512
    else if d.op = 0x12 ∨ d.op ≥ 0x20 then 64 else 256
  d.vRows * ((d.vCols + rate - 1) / rate)

/-- Result rows of a descriptor from the bytes of the spans of vReads. -/
def vResults (d : Desc) (parts : List (List Byte)) : List (List Byte × List Byte) :=
  (List.range d.vRows).map (fun r =>
    let a := rowVals d.vIn d.vCols (parts.getD r []) (if vTwo d.op then [] else parts.getD (d.vRows + r) [])
    if d.op = 8 then narrowRow d (r * 65536) a
    else
      let b := if vTwo d.op then rowVals d.vIn d.vCols (parts.getD (d.vRows + r) []) [] else []
      narrowRow d (r * 65536) ((vRow d.op (d.f 6 32 32) (a.map toF32) (b.map toF32)).map ofF32))

/-- The runs written, in the order of vWrites. -/
def vRuns (d : Desc) (rows : List (List Byte × List Byte)) : List (Nat × List Byte) :=
  let base := envAt d.env 0
  (if isMx d.vOut then rows.zipIdx.map (fun (x, r) => (base + d.f 2 0 21 + r * d.f 5 32 32, x.2)) else [])
    ++ (if vReduces d.op then [(base + d.f 3 0 21, rows.flatMap (fun x => x.1))]
        else rows.zipIdx.map (fun (x, r) => (base + d.f 3 0 21 + r * d.f 6 0 32, x.1)))

/-- The effect of a vector descriptor whose head has been popped: every operand is read before a result is written
(assumption 33). -/
def State.doVector (s : State) (c p : Nat) (d : Desc) (us : List Upset) : State :=
  if !vectorOk d then s.descFault c d cDesc
  else if !inEnv d (vReads d ++ vWrites d) ∨ s.stepGuarded (.spm c) (relSpans d (vWrites d)) then s.descFault c d cBound
  else
    let (s1, res) := s.engineRead c d (vReads d) us true
    match res with
    | .inr cause => (s1.writeFree (.spm c) (relSpans d (vWrites d))).failDesc c d cause
    | .inl parts =>
      let (s2, _) := s1.writeGen (.spm c) (vRuns d (vResults d parts))
      ((s2.liveAdd (.coreBusySnap c 1) CoreBusySnap.cycles (vCycles d)).charge p (15000 * vCycles d)).addAct c 1 d 0 0

/-- The head of the vector queue starts as operation `op`. -/
def State.vectorOp (s : State) (c op : Nat) (us : List Upset) : State :=
  s.startOp c 1 op (fun t p d => t.doVector c p d us)

/-- VectorAdd: dst = a + b (R92 to R95). -/
def execVectorAdd (c : Nat) (u : List Upset) (s : State) : Host.Outcome State Fault Refusal :=
  commit s (Instr.wf (.vectorAdd c u)) (s.vectorOp c 1 u)

/-- VectorMultiply: dst = a * b (R92 to R95). -/
def execVectorMultiply (c : Nat) (u : List Upset) (s : State) : Host.Outcome State Fault Refusal :=
  commit s (Instr.wf (.vectorMultiply c u)) (s.vectorOp c 2 u)

/-- VectorFma: dst = a * scalar + b, rounded once (R92 to R95). -/
def execVectorFma (c : Nat) (u : List Upset) (s : State) : Host.Outcome State Fault Refusal :=
  commit s (Instr.wf (.vectorFma c u)) (s.vectorOp c 3 u)

/-- VectorMax: dst = max(a, b) (R92 to R95). -/
def execVectorMax (c : Nat) (u : List Upset) (s : State) : Host.Outcome State Fault Refusal :=
  commit s (Instr.wf (.vectorMax c u)) (s.vectorOp c 4 u)

/-- VectorMin: dst = min(a, b) (R92 to R95). -/
def execVectorMin (c : Nat) (u : List Upset) (s : State) : Host.Outcome State Fault Refusal :=
  commit s (Instr.wf (.vectorMin c u)) (s.vectorOp c 5 u)

/-- Convert: conversion between formats (R155 to R158) (R92 to R95). -/
def execConvert (c : Nat) (u : List Upset) (s : State) : Host.Outcome State Fault Refusal :=
  commit s (Instr.wf (.convert c u)) (s.vectorOp c 8 u)

/-- RowSum: row sum in the order of R93 (R92 to R95). -/
def execRowSum (c : Nat) (u : List Upset) (s : State) : Host.Outcome State Fault Refusal :=
  commit s (Instr.wf (.rowSum c u)) (s.vectorOp c 0x10 u)

/-- RowMax: row maximum (R92 to R95). -/
def execRowMax (c : Nat) (u : List Upset) (s : State) : Host.Outcome State Fault Refusal :=
  commit s (Instr.wf (.rowMax c u)) (s.vectorOp c 0x11 u)

/-- RowSoftmax: row softmax (R92 to R95). -/
def execRowSoftmax (c : Nat) (u : List Upset) (s : State) : Host.Outcome State Fault Refusal :=
  commit s (Instr.wf (.rowSoftmax c u)) (s.vectorOp c 0x12 u)

/-- Division: dst = a / b, correctly rounded (R92 to R95). -/
def execDivision (c : Nat) (u : List Upset) (s : State) : Host.Outcome State Fault Refusal :=
  commit s (Instr.wf (.division c u)) (s.vectorOp c 0x20 u)

/-- Sqrt: square root, correctly rounded (R92 to R95). -/
def execSqrt (c : Nat) (u : List Upset) (s : State) : Host.Outcome State Fault Refusal :=
  commit s (Instr.wf (.sqrt c u)) (s.vectorOp c 0x21 u)

/-- Rsqrt: reciprocal square root (R92 to R95). -/
def execRsqrt (c : Nat) (u : List Upset) (s : State) : Host.Outcome State Fault Refusal :=
  commit s (Instr.wf (.rsqrt c u)) (s.vectorOp c 0x22 u)

/-- Reciprocal: reciprocal (R92 to R95). -/
def execReciprocal (c : Nat) (u : List Upset) (s : State) : Host.Outcome State Fault Refusal :=
  commit s (Instr.wf (.reciprocal c u)) (s.vectorOp c 0x23 u)

/-- Exp2: exp2 (R92 to R95). -/
def execExp2 (c : Nat) (u : List Upset) (s : State) : Host.Outcome State Fault Refusal :=
  commit s (Instr.wf (.exp2 c u)) (s.vectorOp c 0x24 u)

/-- Log2: log2 (R92 to R95). -/
def execLog2 (c : Nat) (u : List Upset) (s : State) : Host.Outcome State Fault Refusal :=
  commit s (Instr.wf (.log2 c u)) (s.vectorOp c 0x25 u)

/-- SinCos: sine and cosine (R92 to R95). -/
def execSinCos (c : Nat) (u : List Upset) (s : State) : Host.Outcome State Fault Refusal :=
  commit s (Instr.wf (.sinCos c u)) (s.vectorOp c 0x26 u)

/-- Tanh: tanh (R92 to R95). -/
def execTanh (c : Nat) (u : List Upset) (s : State) : Host.Outcome State Fault Refusal :=
  commit s (Instr.wf (.tanh c u)) (s.vectorOp c 0x27 u)

/-- Sigmoid: sigmoid (R92 to R95). -/
def execSigmoid (c : Nat) (u : List Upset) (s : State) : Host.Outcome State Fault Refusal :=
  commit s (Instr.wf (.sigmoid c u)) (s.vectorOp c 0x28 u)

/-- Erf: erf (R92 to R95). -/
def execErf (c : Nat) (u : List Upset) (s : State) : Host.Outcome State Fault Refusal :=
  commit s (Instr.wf (.erf c u)) (s.vectorOp c 0x29 u)

/-- Gelu: GELU (R92 to R95). -/
def execGelu (c : Nat) (u : List Upset) (s : State) : Host.Outcome State Fault Refusal :=
  commit s (Instr.wf (.gelu c u)) (s.vectorOp c 0x2a u)

end Sys2Proof.Machine
end

