-- ==== Sys2Proof/Machine/EthTx.lean ====
section
/-! DEFINITION. The sending side of the Ethernet ports: the packet header's layout (R334), upstream requests (R432 to R434),
the frame check sequence (R412), the transmit sides of the partitions' queues (R437 to R443), encapsulation frames and their
window (R416, R417), and the turns of a port among the partitions (R415). -/
namespace Sys2Proof.Machine

/-! ## Layout -/

/-- The four words of a packet header (R334). -/
def Pkt.words (p : Pkt) : List Nat :=
  [p.offset % 2 ^ 46 + p.space % 8 * 2 ^ 46 + p.dstPart % 32 * 2 ^ 49 + p.dstNode % 1024 * 2 ^ 54,
   p.srcNode % 1024 + p.srcLnode % 1024 * 2 ^ 10 + p.srcPart % 32 * 2 ^ 20 + p.op % 64 * 2 ^ 25 + b2n p.flagged * 2 ^ 31
     + p.rx % 64 * 2 ^ 32 + b2n p.chk * 2 ^ 38 + b2n p.valid * 2 ^ 39 + p.length % 8192 * 2 ^ 40 + p.route % 4 * 2 ^ 53
     + p.hops % 8 * 2 ^ 55,
   p.flagCount % 2 ^ 32 + p.check % 2 ^ 32 * 2 ^ 32,
   p.aux % 2 ^ 32 + p.tag % 65536 * 2 ^ 32 + p.core % 512 * 2 ^ 48 + p.thread % 8 * 2 ^ 57]

/-- The 32 header bytes. -/
def Pkt.header (p : Pkt) : List Byte := p.words.flatMap (leBytes 8)

/-! ## Upstream requests -/

/-- An upstream read request on behalf of a function (R432, R433). -/
def State.hostAsk (s : State) (fn addr len : Nat) (use : HostUse) : State :=
  let t := s.host.nextTag
  { s with host := { s.host with reqs := mset s.host.reqs t ⟨fn, addr, len, use⟩, nextTag := t + 1 } }.emit (.hostRead fn t addr len)

/-- HOST_ERR (R434, R585): function, cause (0 Bus Master, 1 Unsupported, 2 Aborted, 3 timeout, 4 poisoned), address. -/
def State.hostErr (s : State) (fn cause addr : Nat) : State :=
  s.log { code := 0x4A03, part := if fn = 0 then none else some (fn - 1), detail := det [(1, fn), (1, cause), (2, 0), (8, addr)] }

/-- Writes to the host on behalf of a partition, at most 512 bytes each (R433). -/
def State.hostPut (s : State) (fn addr : Nat) (bs : List Byte) : State :=
  (List.range ((bs.length + 511) / 512)).foldl (fun t i => t.emit (.hostWrite fn (addr + 512 * i) ((bs.drop (512 * i)).take 512))) s

/-! ## Frames -/

/-- CRC-32 of IEEE 802.3, the frame check sequence (assumption 12). -/
def crc32 (bs : List Byte) : Nat := bs.foldl (crcByte 0xEDB88320) 0xFFFFFFFF ^^^ 0xFFFFFFFF

/-- A frame as it leaves the port: with its frame check sequence (R412). -/
def withFcs (f : List Byte) : List Byte := f ++ leBytes 4 (crc32 f)

/-- The Internet checksum of a byte string of 16-bit big-endian words. -/
def inetSum : List Byte → Nat
  | a :: b :: r => 256 * a.toNat + b.toNat + inetSum r
  | [a] => 256 * a.toNat
  | [] => 0
/-- Fold a sum to 16 bits and complement it; 0 is sent as 0xFFFF. -/
def inetFold (n : Nat) : Nat :=
  let a := n % 65536 + n / 65536
  let b := a % 65536 + a / 65536
  let c := 65535 - (b % 65536 + b / 65536)
  if c = 0 then 65535 else c

/-- A UDP datagram over IPv6 in an Ethernet frame, without FCS (R416). -/
def udpFrame (dstMac srcMac src dst : List Byte) (port : Nat) (payload : List Byte) : List Byte :=
  let len := payload.length + 8
  let udp0 := beBytes 2 port ++ beBytes 2 port ++ beBytes 2 len
  let sum := inetSum (src ++ dst) + len + 17 + inetSum (udp0 ++ [0, 0] ++ payload)
  dstMac ++ srcMac ++ [0x86, 0xDD] ++ [0x60, 0, 0, 0] ++ beBytes 2 len ++ [17, 64] ++ src ++ dst ++ udp0
    ++ beBytes 2 (inetFold sum) ++ payload

/-- The shim of R416: seq, ack, VC and nak. -/
def ethShim (seq ack vc : Nat) (nak : Bool) : List Byte :=
  leBytes 2 seq ++ leBytes 2 ack ++ leBytes 1 (vc + 8 * b2n nak) ++ [0, 0, 0]

/-- The frame that carries a packet's bytes to a peer. -/
def Eth.frame (e : Eth) (r : Peer) (seq vc : Nat) (nak : Bool) (bs : List Byte) : List Byte :=
  udpFrame r.mac e.devMac e.ip r.ip e.udpPort (ethShim seq r.lastRx vc nak ++ bs)

/-- Change the peer of index `i`. -/
def State.modPeer (s : State) (i : Nat) (f : Peer → Peer) : State :=
  { s with eth := { s.eth with peers := s.eth.peers.zipIdx.map (fun (r, j) => if j = i then f r else r) } }

/-- The peer of a logical node, with its index (R416, R420). -/
def State.peerOf (s : State) (lnode : Nat) : Option (Peer × Nat) := s.eth.peers.zipIdx.find? (fun (r, _) => r.lnode = lnode)

/-- State of a port (R395): 0 Dark, 1 Seek, 2 Train, 3 Up, 4 Burnish, 5 Degraded. -/
def State.portState (s : State) (k : Nat) : Nat := s.fld (.optPortState k) OptPortState.state

/-! ## Queues (R437 to R443) -/

/-- First device queue and number of queues of a grant (R584). -/
def State.ethFirst (s : State) (p : Nat) : Nat := bitsOf (s.grantWord p 25) 0 8
/-- Number of queues granted. -/
def State.ethCount (s : State) (p : Nat) : Nat := bitsOf (s.grantWord p 25) 8 8
/-- The Ethernet port of a queue of a partition. -/
def State.queuePort (s : State) (p i : Nat) : Nat := s.eth.queuePort.getD (s.ethFirst p + i) 0
/-- Whether a queue runs (R443). -/
def State.queueRuns (s : State) (p i : Nat) : Bool :=
  s.fld (.partEthqCtl p i) PartEthqCtl.enable = 1 && s.fld (.partEthqStat p i) PartEthqStat.error = 0
/-- Queues of a partition on a port. -/
def State.queuesOn (s : State) (p e : Nat) : List Nat := (List.range (s.ethCount p)).filter (fun i => s.queuePort p i = e)

/-- The transmit tail and head of a queue agree: it offers no entry. -/
def State.txEmpty (s : State) (p i : Nat) : Bool :=
  s.fld (.partEthqTxHead p i) PartEthqTxHead.index = s.fld (.partEthqTxTail p i) PartEthqTxTail.index

/-- Whether a host read serves queue `i` of partition `p`. -/
def HostUse.ofQueue (u : HostUse) (p i : Nat) : Bool :=
  match u with
  | .txEntry q j | .txFrame q j _ | .rxEntry q j => q = p && j = i
  | _ => false

/-- Whether a host read serves an Ethernet queue. -/
def HostUse.isQueue : HostUse → Bool
  | .txEntry _ _ | .txFrame _ _ _ | .rxEntry _ _ => true
  | _ => false

/-- What a queue has under way is given up, with the host reads for it. -/
def State.dropQueue (s : State) (p i : Nat) : State :=
  let d := s.ethFirst p + i
  { s with
    eth := { s.eth with tx := mdel s.eth.tx d, rx := mdel s.eth.rx d },
    host := { s.host with reqs := s.host.reqs.filter (fun x => !x.2.use.ofQueue p i) } }

/-- Every queue of a partition gives up what it has under way (R444, R446). -/
def State.dropQueues (s : State) (p : Nat) : State := (List.range (s.ethCount p)).foldl (fun t i => t.dropQueue p i) s

/-- A queue stops with error set (R434, R439, R443): cause 0 host access, 1 tail overrun, 2 vector or base. It gives up what it
has under way (assumption 74). -/
def State.queueError (s : State) (p i cause : Nat) : State :=
  (((s.dropQueue p i).setFld (.partEthqStat p i) PartEthqStat.error 1).setFld (.partEthqStat p i) PartEthqStat.cause cause).log {
    code := 0x4A04, part := some p, detail := det [(1, i), (1, cause)] }

/-- A host access for a queue fails (R434). -/
def State.queueHostFail (s : State) (p i cause addr : Nat) : State := (s.hostErr (p + 1) cause addr).queueError p i 0

/-- The message of a queue after an entry was written back (R442). -/
def State.queueIrq (s : State) (p i : Nat) : State :=
  let q := s.ethFirst p + i
  if s.fld (.partEthqCtl p i) PartEthqCtl.irq = 0 then s
  else if s.eth.gapRuns.contains q then { s with eth := { s.eth with deferred := q :: s.eth.deferred.filter (· ≠ q) } }
  else
    let s1 := s.sendMsix (p + 1) (s.fld (.partEthqCtl p i) PartEthqCtl.vector)
    if s.fld (.partEthqCtl p i) PartEthqCtl.gapUs = 0 then s1 else { s1 with eth := { s1.eth with gapRuns := q :: s1.eth.gapRuns } }

/-- Write back a ring entry: its address, the length, and the bits 78 (bad) and 79 (done) (R438). -/
def State.writeEntry (s : State) (p ring ent len : Nat) (bad : Bool) : State :=
  s.hostPut (p + 1) ring (leBytes 16 (bitsOf ent 0 64 + len % 2 ^ 14 * 2 ^ 64 + b2n bad * 2 ^ 78 + 2 ^ 79))

/-- Host address of entry `x` of a ring. -/
def ringAt (base log2 x : Nat) : Nat := base + 16 * (x % 2 ^ log2)

/-- The next entry of a transmit queue is read (R440), unless the queue has stopped, is empty, or has a frame under way. -/
def State.txNext (s : State) (p i : Nat) : State :=
  let d := s.ethFirst p + i
  let ring := ringAt (s.reg (.partEthqTxBase p i)).toNat (s.fld (.partEthqCtl p i) PartEthqCtl.txLog2)
    (s.fld (.partEthqTxHead p i) PartEthqTxHead.index)
  if !s.queueRuns p i ∨ s.txEmpty p i ∨ (mfind s.eth.tx d).isSome then s
  else if !s.host.busMaster.getLsbD (p + 1) then s.queueHostFail p i 0 ring
  else ({ s with eth := { s.eth with tx := mset s.eth.tx d ⟨p, i, ring, none, 0, [], false⟩ } }).hostAsk (p + 1) ring 16 (.txEntry p i)

/-- A frame that a transmit queue has taken is done with: its entry is written back, head advances, the queue's message is due,
and the next entry is read (R440, R442). A queue enabled anew since then keeps its new head. -/
def State.txDone (s : State) (t : TxQ) (bad : Bool) : State :=
  let (p, i) := (t.part, t.idx)
  let ent := t.ent.getD 0
  if !s.host.busMaster.getLsbD (p + 1) then s.queueHostFail p i 0 t.ring
  else
    let s1 := if bad then s.satFld (.partEthqStat p i) PartEthqStat.txBad 1 else s
    let s2 := s1.writeEntry p t.ring ent (bitsOf ent 64 14) bad
    let s3 := if t.stale then s2 else s2.setFld (.partEthqTxHead p i) PartEthqTxHead.index (s2.fld (.partEthqTxHead p i) PartEthqTxHead.index + 1)
    (({ s3 with eth := { s3.eth with tx := mdel s3.eth.tx (s3.ethFirst p + i) } }).queueIrq p i).txNext p i

/-! ## The turns of a port (R415) -/

/-- Whether the whole frame of a transmit queue has been read. -/
def TxQ.ready (t : TxQ) : Bool := t.ent.isSome && t.left = 0
/-- The bytes of a transmit queue's frame. -/
def TxQ.frame (t : TxQ) : List Byte := t.chunks.flatMap Prod.snd

/-- The packet that a peer's port is to send again next (R332, R417). -/
def Peer.again (r : Peer) : Option PeerPkt := if r.resend = 0 then none else r.unacked[r.unacked.length - r.resend]?
/-- The packet of source `q` that goes to a peer next, by its place among those not sent yet: none while packets are to be sent
again, or while the window of 2,047 packets is full (R417). -/
def Peer.fresh (r : Peer) (q : Nat) : Option Nat :=
  if r.resend = 0 ∧ r.unacked.length < 2047 then r.wait.findIdx? (fun k => k.src = q) else none
/-- Whether a frame to a peer counts as the next frame of source `q` (a partition, or 32 for the device itself): a packet to be
sent again, a new one, or a bare acknowledgement (R415, assumption 74). -/
def Peer.offers (r : Peer) (q : Nat) : Bool :=
  (r.again.any (fun k => k.src = q)) || (r.fresh q).isSome || (q = 32 && r.ackDue)

/-- What port `e` may send for source `q`: an encapsulation frame to the peer of an index, else the frame of the lowest of the
partition's queues that has one (assumption 74). -/
def State.turnOf (s : State) (e q : Nat) : Option (Nat ⊕ Nat) :=
  match s.eth.peers.findIdx? (fun r => r.port = e && r.offers q) with
  | some i => some (.inl i)
  | none => ((s.queuesOn q e).find? (fun i => match mfind s.eth.tx (s.ethFirst q + i) with
      | some t => t.part = q && t.ready
      | none => false)).map (fun i => .inr (s.ethFirst q + i))

/-- The next turn of a port after the source that had the last: the source and what it sends. -/
def State.nextTurn (s : State) (e : Nat) : Option (Nat × (Nat ⊕ Nat)) :=
  (List.range 33).findSome? (fun k =>
    let q := (mget s.eth.lastTurn e 32 + 1 + k) % 33
    (s.turnOf e q).map (fun x => (q, x)))

/-- A frame leaves for a peer; the acknowledgement and the nak that are due go with it (R331, R416, R417). -/
def State.sendEncap (s : State) (i : Nat) (r : Peer) (seq vc : Nat) (bs : List Byte) : State :=
  (s.modPeer i (fun r => { r with nakDue := false, ackDue := false })).emit
    (.ethFrame r.port (withFcs (s.eth.frame r seq vc r.nakDue bs)))

/-- The encapsulation frame of source `q` to the peer of index `i` leaves: the next packet to be sent again; else a new packet,
which takes the next sequence number; else a bare acknowledgement (R331, R332, R417). -/
def State.sendTurn (s : State) (i q : Nat) : State :=
  match s.eth.peers[i]? with
  | none => s
  | some r =>
    match r.again.filter (fun k => k.src = q), (r.fresh q).bind (fun j => (r.wait[j]?).map (fun k => (j, k))) with
    | some k, _ => (s.modPeer i (fun r => { r with resend := r.resend - 1 })).sendEncap i r k.seq k.vc k.bytes
    | none, some (j, k) =>
      (s.modPeer i (fun r => { r with nextSeq := (r.nextSeq + 1) % 65536, unacked := r.unacked ++ [{ k with seq := r.nextSeq }],
                                      wait := r.wait.eraseIdx j })).sendEncap i r r.nextSeq k.vc k.bytes
    | none, none => s.sendEncap i r 0 0 []

/-- One turn of port `e`. -/
def State.oneTurn (s : State) (e : Nat) : State :=
  if s.portState (64 + e) ≠ 3 ∨ (mfind s.eth.sending e).isSome then s
  else match s.nextTurn e with
    | none => s
    | some (q, x) =>
      let s1 := { s with eth := { s.eth with lastTurn := mset s.eth.lastTurn e q } }
      match x with
      | .inl i => s1.sendTurn i q
      | .inr d => (match mfind s1.eth.tx d with
        | none => s1
        | some t => ({ s1 with eth := { s1.eth with sending := mset s1.eth.sending e d } }).emit (.ethFrame e (withFcs t.frame)))

/-- Encapsulation frames that a port may still have to send. -/
def Eth.dueFrames (x : Eth) (e : Nat) : Nat :=
  ((x.peers.filter (fun r => r.port = e)).map (fun r => r.resend + r.wait.length + b2n r.ackDue)).sum

/-- A port that is Up sends frame by frame in round robin among the sources that have one (R415), until the frame of a queue is
leaving: its end is the command ETH_TX_COMPLETE. -/
def State.serve (s : State) (e : Nat) : State := (List.range (s.eth.dueFrames e + 1)).foldl (fun t _ => t.oneTurn e) s

/-! ## Peers (R417) -/

/-- Give the port of a peer its turns. -/
def State.servePeer (s : State) (i : Nat) : State :=
  match s.eth.peers[i]? with
  | none => s
  | some r => s.serve r.port

/-- Send a packet to a peer (R416, R417). -/
def State.sendPeer (s : State) (i vc : Nat) (pkt : Pkt) : State :=
  let k : PeerPkt := ⟨0, vc, if vc = 0 ∨ vc = 7 then 32 else pkt.srcPart, pkt.header ++ pkt.data⟩
  (s.modPeer i (fun r => { r with wait := r.wait ++ [k] })).servePeer i

/-- An acknowledgement is due to a peer: it goes with the next frame to the peer, or alone (R331, R417, assumption 74). -/
def State.ackPeer (s : State) (i : Nat) : State := (s.modPeer i (fun r => { r with ackDue := true })).servePeer i

end Sys2Proof.Machine
end

