-- ==== Sys2Proof/Machine/Net.lean ====
section
/-! DEFINITION. Packets and their way through the X-die: the header's layout (R334, R335), pairs and weights (R339,
R340), translation, routes and reach (R318 to R326), injection (R320, R324, R326, R347), discards and answers (R322,
R356), the table of unanswered packets, and the checks and the write at a destination (R355, R356, R365, R266). -/
namespace Sys2Proof.Machine

/-! ## Layout -/

/-- The packet whose header and first data bytes a HEAD or SINGLE flit carries. -/
def Pkt.ofBytes (bs : List Byte) : Pkt :=
  let w (i : Nat) : Nat := leNat ((bs.drop (8 * i)).take 8)
  let f (i lo n : Nat) : Nat := bitsOf (w i) lo n
  let len := f 1 40 13
  { op := f 1 25 6, dstNode := f 0 54 10, dstPart := f 0 49 5, space := f 0 46 3, offset := f 0 0 46,
    srcNode := f 1 0 10, srcLnode := f 1 10 10, srcPart := f 1 20 5, core := f 3 48 9, thread := f 3 57 3,
    tag := f 3 32 16, flagged := f 1 31 1 = 1, rx := f 1 32 6, flagCount := f 2 0 32, chk := f 1 38 1 = 1,
    valid := f 1 39 1 = 1, check := f 2 32 32, route := f 1 53 2, hops := f 1 55 3, aux := f 3 0 32, length := len,
    data := ((bs.drop 32).take 80).take len }

/-- Flits of a packet of `len` data bytes (R335). -/
def flitsOf (len : Nat) : Nat := if len ≤ 80 then 1 else 1 + (len - 80 + 111) / 112

/-- The 112 payload bytes of flit `i` of a packet (R335). -/
def Pkt.flit (p : Pkt) (i : Nat) : List Byte :=
  if i = 0 then padTo 112 (p.header ++ p.data.take 80) else padTo 112 ((p.data.drop (80 + 112 * (i - 1))).take 112)

/-- The node a packet is on its way to (R324). -/
def Pkt.target (p : Pkt) : Nat := if p.route = 1 then p.aux % 1024 else p.dstNode

/-- Requests, stores and tack sets (R353). -/
def isRequest (op : Nat) : Bool := [0, 1, 8, 9, 0x10, 0x18, 0x19].contains op
/-- Responses. -/
def isResponse (op : Nat) : Bool := [0x20, 0x21, 0x22].contains op
/-- Codes below 0x30 that the table of R353 does not list. -/
def isReservedOp (op : Nat) : Bool := op < 0x30 && !isRequest op && !isResponse op

/-- How many packets of its transaction a response answers (R353). -/
def Pkt.answered (p : Pkt) : Nat :=
  if p.op = 0x21 then bitsOf (leNat p.data) 0 6 else if p.op = 0x22 then bitsOf (leNat p.data) 8 6 else 1

/-! ## Weights, grants and pairs -/

/-- w(p, v) (R339). -/
def State.weight (s : State) (p v : Nat) : Nat :=
  match mfind s.parts p with
  | some _ => bitsOf (s.grantWord p (20 + v / 4)) (8 * (v % 4)) 8
  | none => if v = 0 ∨ v = 7 then 0 else wbits (s.reg (.fabTransit p)) (8 * v - 8) 8

/-- The weight of a VC (R338, R344). -/
def State.vcWeight (s : State) (v : Nat) : Nat := if v = 0 then 0 else wbits (s.reg .fabVcCfg) (8 * v - 8) 8
/-- The link grant of a VC. -/
def State.vcGrant (s : State) (v : Nat) : Nat := wbits (s.reg (.fabCreditCfg (v / 4))) (16 * (v % 4)) 16

/-- The number of a pair (R460). -/
def pairOf (v p : Nat) : Nat := if v = 0 then 0 else if v = 7 then 1 else 2 + 32 * (v - 1) + p
/-- The VC of a pair. -/
def pairVc (j : Nat) : Nat := if j = 0 then 0 else if j = 1 then 7 else (j - 2) / 32 + 1
/-- The partition of a pair, 0 for VC0 and VC7. -/
def pairPart (j : Nat) : Nat := if j < 2 then 0 else (j - 2) % 32
/-- Number of pairs. -/
def pairCount : Nat := 194

/-- Credits of a pair at this end as receiver (R340). -/
def State.pairGrant (s : State) (j : Nat) : Nat :=
  if j < 2 then s.vcGrant (pairVc j) else s.vcGrant (pairVc j) * s.weight (pairPart j) (pairVc j) / 32

/-! ## Tables -/

/-- Own physical node. -/
def State.ownNode (s : State) : Nat := s.fld .fabNode FabNode.physical
/-- Own logical node. -/
def State.ownLnode (s : State) : Nat := s.fld .fabNode FabNode.logical
/-- Whether the device has no logical node (R348). -/
def State.noLogical (s : State) : Bool := s.fld .fabNode FabNode.noLogical = 1

/-- Offset of a table register in the FAB block: route entry, XLATE entry, reach word. -/
def routeOff (n : Nat) : Nat := 0x1000 + 8 * n
/-- Offset of FAB_XLATE[n]. -/
def xlateOff (n : Nat) : Nat := 0x3000 + 8 * n
/-- Offset of FAB_REACH[p][i]. -/
def reachOff (p i : Nat) : Nat := 0x5000 + 0x100 * p + 8 * i

/-- A table entry: 0 while it is disabled (R457). -/
def State.tableWord (s : State) (r : Reg) (off : Nat) : Nat := if s.fab.disabled.contains off then 0 else grain (s.reg r)
/-- The route entry of a physical node (R321). -/
def State.routeEntry (s : State) (n : Nat) : Nat := s.tableWord (.fabRoute n) (routeOff n)
/-- The XLATE word of a logical node (R319). -/
def State.xlateWord (s : State) (n : Nat) : Nat := s.tableWord (.fabXlate n) (xlateOff n)
/-- The physical node that plays a logical node (R320). -/
def State.xlate (s : State) (n : Nat) : Option Nat :=
  if bitAt (s.xlateWord n) 10 then some (bitsOf (s.xlateWord n) 0 10) else none
/-- The logical node that a physical node plays. -/
def State.logicalOf (s : State) (phys : Nat) : Option Nat := (List.range 1024).find? (fun n => s.xlate n = some phys)
/-- A word of a reach record (R325). -/
def State.reachWord (s : State) (p i : Nat) : Nat := s.tableWord (.fabReach p i) (reachOff p i)

/-- Whether a logical node lies in a rectangle that wraps (R325, R311): word with row0, col0, rows, cols. -/
def inRect (w n : Nat) : Bool :=
  (n / 32 + 32 - bitsOf w 0 5) % 32 < bitsOf w 10 6 ∧ (n % 32 + 32 - bitsOf w 5 5) % 32 < bitsOf w 16 6

/-- Whether (logical node n, partition q) is within the reach of partition p (R326). -/
def State.inReach (s : State) (p n q : Nat) : Bool :=
  bitAt (s.reachWord p 1) 0 && ((inRect (s.reachWord p 0) n && q = p)
    || (List.range (bitsOf (s.reachWord p 1) 8 5)).any (fun i =>
      let w := s.reachWord p (2 + i)
      bitsOf w 0 10 ≤ n && n ≤ bitsOf w 10 10 && q = bitsOf w 20 5))

/-- Whether a fabric port carries traffic (R322). -/
def State.carrying (s : State) (k : Nat) : Bool := k < 64 ∧ 3 ≤ s.portState k ∧ s.portState k ≤ 5

/-- The port of a packet under a route entry (R322), or none. -/
def State.choosePort (s : State) (e offset srcPart : Nat) : Option Nat :=
  let a := bitsOf e 2 7
  let b := bitsOf e 9 7
  let useB := bitsOf e 16 2 = 1 ∨ (bitsOf e 16 2 = 2 ∧ (bitsOf offset 12 1 + srcPart) % 2 = 1)
  let (x, y) := if useB then (b, a) else (a, b)
  if s.carrying x then some x else if y ≠ 0x7F ∧ s.carrying y then some y else none

/-! ## Links as tables -/

/-- A link that has not carried anything. -/
def Link.idle : Link :=
  { nextSeq := 0, unacked := [], resend := 0, replays := 0, slot := 0, mgmtTurn := 0, lastAcc := 4095, gap := false,
    nakDue := false, sinceAck := 0, fs := [], cr := [], h := [], fr := [], ci := [], o := [], occ := [], ctrl := [],
    reqs := [], marker := none, out := [], resyncs := [], waitSync := [], epochs := [], resyncCount := [], faultAt := [],
    aborts := [], replayNow := 0, sinceMarker := 0, rxSince := 0, peak := [], top := [] }

/-- The link layer of a port. -/
def State.link (s : State) (k : Nat) : Link := mget s.fab.links k Link.idle
/-- Change the link layer of a port. -/
def State.modLink (s : State) (k : Nat) (f : Link → Link) : State :=
  { s with fab := { s.fab with links := mset s.fab.links k (f (s.link k)) } }

/-- A run of buffers that held flits of a pair is free (R340). -/
def State.freeBufs (s : State) (port : Option Nat) (pair n : Nat) : State :=
  match port with
  | none => s
  | some k => s.modLink k (fun l => { l with occ := mset l.occ pair (mget l.occ pair 0 - n) })

/-- The waiting count of a VC at a port: flits ready and not sent. -/
def Link.waiting (l : Link) (v : Nat) : Nat := ((l.out.filter (fun o => o.vc = v)).map (fun o => o.got - o.sent)).sum

/-- A packet joins the output queue of a port. -/
def State.queueOut (s : State) (k : Nat) (o : OutPkt) : State :=
  s.modLink k (fun l =>
    let l1 := { l with out := l.out ++ [o] }
    { l1 with peak := mset l1.peak o.vc (max (mget l1.peak o.vc 0) (l1.waiting o.vc)) })

/-! ## Answers and unanswered packets -/

/-- One copy of a multicast packet has left the store, or will not leave it; the entry is free after the last (R346). -/
def State.copyGone (s : State) (mid : Option Nat) : State :=
  match mid with
  | none => s
  | some m =>
    let n := mget s.fab.mstore m 0
    { s with fab := { s.fab with mstore := if n ≤ 1 then mdel s.fab.mstore m else mset s.fab.mstore m (n - 1) } }

/-- A packet at the device's own door (R320). -/
def State.arriveOwn (s : State) (vc : Nat) (pkt : Pkt) : State :=
  let n := flitsOf pkt.length
  { s with fab := { s.fab with waiting := s.fab.waiting ++ [⟨none, vc, n, n, pkt⟩] } }

/-- The event of a packet that found no port or too many hops (R322, R323, R585). -/
def dropDetail (vc : Nat) (p : Pkt) : List Byte := det [(2, p.dstNode), (1, p.dstPart), (1, vc), (1, p.op)]

/-- The response that answers a packet (R353). -/
def State.responseTo (s : State) (p : Pkt) (op : Nat) (data : List Byte) : Pkt :=
  { op := op, dstNode := p.srcNode, dstPart := p.srcPart, space := p.space, offset := p.offset, srcNode := s.ownNode,
    srcLnode := s.ownLnode, srcPart := p.dstPart, core := p.core, thread := p.thread, tag := p.tag, flagged := false, rx := 0,
    flagCount := 0, chk := false, valid := false, check := 0, route := 0, hops := 0, aux := 0, length := data.length, data := data }

/-- The NODE_UNREACHABLE answer that a device gives in a destination's place (R322): it names the destination's logical node as
its source where the device knows it (assumption 55). -/
def State.unreachable (s : State) (p : Pkt) : Pkt :=
  { s.responseTo p 0x22 (leBytes 8 (cNode + 256)) with srcLnode := (s.logicalOf p.dstNode).getD s.ownLnode }

/-- VC0 message lost (R474): the detail of 0x1B02. -/
def State.vc0Lost (s : State) (p : Pkt) (member : Nat) : State :=
  let d := leNat p.data
  let tick := if p.op = 0x30 then bitsOf d 16 48 else bitsOf d 40 48
  let job := bitsOf d 0 16
  let part := s.partNums.find? (fun q => wbits (s.reg (.stchPart q)) 0 16 = job)
  (s.satFld .fabConsDev FabConsDev.vc0Lost 1).log {
    code := 0x1B02, part := part, detail := det [(2, job), (1, p.op), (1, 0), (2, member), (6, tick)] }

/-- Place a packet on its way (R320, R322, R416): to the device itself, to a port, to a peer; otherwise it is discarded,
and a request, store or tack set is answered NODE_UNREACHABLE. `fuel` bounds the answer's own way. -/
def State.place : Nat → State → Nat → Option Nat → Option Nat → Nat → Pkt → State
  | fuel, s, vc, src, mid, got, pkt =>
    if pkt.target = s.ownNode then s.arriveOwn vc pkt
    else
      let e := s.routeEntry pkt.target
      let peer := if bitsOf e 0 2 = 0 then (match s.logicalOf pkt.target with
        | none => none
        | some n => s.peerOf n) else none
      match peer with
      | some (r, i) =>
        let s0 := s.copyGone mid
        if !r.down then s0.sendPeer i vc pkt
        else if pkt.op = 0x30 ∨ pkt.op = 0x31 then s0.vc0Lost pkt pkt.dstNode
        else
          match fuel with
          | 0 => s0
          | n + 1 => if isRequest pkt.op then State.place n s0 2 none none 1 (s0.unreachable pkt) else s0
      | none =>
        match (if bitsOf e 0 2 < 2 then none else s.choosePort e pkt.offset pkt.srcPart) with
        | some k => s.queueOut k ⟨src, mid, vc, 0, got, flitsOf pkt.length, 0, pkt⟩
        | none =>
          let dev := src.isSome || vc = 0 || vc = 7
          let s1 := ((s.copyGone mid).satFld (.fabStat 0) FabStat.hi 1).log {
            code := 0x1802, part := if dev then none else some pkt.srcPart, detail := dropDetail vc pkt }
          if pkt.op = 0x30 ∨ pkt.op = 0x31 then s1.vc0Lost pkt pkt.dstNode
          else
            match fuel with
            | 0 => s1
            | n + 1 =>
              if isRequest pkt.op then State.place n s1 2 none none 1 (s1.unreachable pkt) else s1

/-- Put a whole packet of the device's own on its way. -/
def State.dispatch (s : State) (vc : Nat) (mid : Option Nat) (pkt : Pkt) : State :=
  State.place 1 s vc none mid (flitsOf pkt.length) pkt

/-- The eligible intermediate columns of a Valiant route (R324). -/
def State.valiantCols (s : State) (p lnode : Nat) : List Nat :=
  let own := s.ownLnode
  (List.range 32).filter (fun ci => ci ≠ own % 32 ∧ ci ≠ lnode % 32
    ∧ (ci + 32 - bitsOf (s.reachWord p 0) 5 5) % 32 < bitsOf (s.reachWord p 0) 16 6 ∧ (s.xlate (own / 32 * 32 + ci)).isSome)

/-- Send a packet of partition `p` to a logical node: Valiant where R324 says so. -/
def State.originate (s : State) (vc lnode : Nat) (mid : Option Nat) (pkt : Pkt) : State :=
  let p := pkt.srcPart
  let cols := s.valiantCols p lnode
  let phys := pkt.dstNode
  if mid.isNone ∧ 1 ≤ vc ∧ vc ≤ 6 ∧ bitAt (s.reachWord p 1) vc ∧ bitAt (s.routeEntry phys) 18 ∧ lnode / 32 ≠ s.ownLnode / 32
      ∧ !cols.isEmpty then
    let i := mget s.fab.valiant (p * 8 + vc) 0
    let ci := cols.getD (i % cols.length) 0
    let mphys := (s.xlate (s.ownLnode / 32 * 32 + ci)).getD 0
    ({ s with fab := { s.fab with valiant := mset s.fab.valiant (p * 8 + vc) (i + 1) } }).dispatch vc mid
      { pkt with route := 1, aux := mphys }
  else s.dispatch vc mid pkt

/-- Send a response to the node that waits for it. -/
def State.sendResponse (s : State) (vc : Nat) (r : Pkt) : State :=
  let s1 := s.liveAdd (.partFabTxSnap r.srcPart) PartFabTxSnap.bytes r.length
  match s.logicalOf r.dstNode with
  | none => s1.dispatch vc none r
  | some n => s1.originate vc n none r

/-- One more packet to be answered by RSP_ACK (cause 0) or RSP_FAULT (R356): joined to a pending answer for the same
source and tag while it covers fewer than 32. -/
def State.addAck (s : State) (p : Pkt) (cause : Nat) : State :=
  let same (a : PendAck) : Bool := a.node = p.srcNode && a.part = p.srcPart && a.tag = p.tag && a.cause = cause && a.count < 32
    && a.core = p.core && a.thread = p.thread && a.resp = p.dstPart
  let l := s.fab.acks
  let l' := match l.findIdx? same with
    | some i => l.zipIdx.map (fun (a, j) => if j = i then { a with count := a.count + 1 } else a)
    | none => l ++ [⟨p.srcNode, p.srcPart, p.tag, p.core, p.thread, p.space, p.offset, p.dstPart, cause, 1⟩]
  { s with fab := { s.fab with acks := l' } }

/-- Send a pending answer (R353, R356). -/
def State.sendAck (s : State) (a : PendAck) : State :=
  let like : Pkt := {
    op := 0, dstNode := s.ownNode, dstPart := a.resp, space := a.space, offset := a.offset, srcNode := a.node, srcLnode := 0,
    srcPart := a.part, core := a.core, thread := a.thread, tag := a.tag, flagged := false, rx := 0, flagCount := 0, chk := false,
    valid := false, check := 0, route := 0, hops := 0, aux := 0, length := 0, data := [] }
  if a.cause = 0 then s.sendResponse 2 (s.responseTo like 0x21 (leBytes 8 a.count))
  else s.sendResponse 2 (s.responseTo like 0x22 (leBytes 8 (a.cause + 256 * a.count)))

/-- A tag that no unanswered packet holds, from `t` on. -/
def freeTag (m : SMap Xfer) : Nat → Nat → Nat
  | 0, t => t % 65536
  | n + 1, t => if (mfind m (t % 65536)).isNone then t % 65536 else freeTag m n (t + 1)

/-- Open an entry for packets of a partition that will be answered; its tag (DESIGN CHOICE: the lowest free from the
last). -/
def State.openXfer (s : State) (use : XferUse) (p node left : Nat) : State × Nat :=
  let t := freeTag s.fab.xfers (s.fab.xfers.length + 1) s.fab.nextTag
  ({ s with fab := { s.fab with xfers := mset s.fab.xfers t ⟨use, p, node, left, false⟩, nextTag := t + 1 } }, t)

/-- The descriptor in progress of a core with an identifier. -/
def State.act (s : State) (c id : Nat) : Option Act :=
  match mfind s.cores c with
  | none => none
  | some k => k.active.find? (fun a => a.id = id)

/-- Change a descriptor in progress. -/
def State.modAct (s : State) (c id : Nat) (f : Act → Act) : State :=
  s.modCore c (fun k => { k with active := k.active.map (fun a => if a.id = id then f a else a) })

/-- Whether an entry is a replay READ of a partition. -/
def Xfer.isReplayOf (x : Xfer) (p : Nat) : Bool := match x.use with
  | .replay q _ => q = p
  | _ => false
/-- An entry that no longer serves a replay of a partition. -/
def Xfer.orphan (x : Xfer) (p : Nat) : Xfer := if x.isReplayOf p then { x with use := .gone } else x

/-- A replay has lost its source (R503): event, status, and no further answer counts. -/
def State.replayLost (s : State) (p node reason : Nat) : State :=
  if s.fld (.partReplayStatus p) PartReplayStatus.busy = 0 then s
  else
    let s1 := ((s.setFld (.partReplayStatus p) PartReplayStatus.busy 0).setFld (.partReplayStatus p) PartReplayStatus.lost 1)
    let s2 := { s1 with fab := { s1.fab with xfers := s1.fab.xfers.map (fun (t, x) => (t, Xfer.orphan x p)) } }
    s2.log { code := 0x2C20, part := some p,
             detail := det [(2, node), (1, reason), (1, 0), (8, s.fld (.partReplayStatus p) PartReplayStatus.copied)] }

/-- A fault of the transaction that an entry stands for (R108, R357): the core halts with the cause and the logical node;
`rsp` tells whether a response brought it. A far load's thread stands at its instruction again, a far store is no longer
unacknowledged (assumption 20), and a descriptor's tack is not set (R101, R357). -/
def State.xferFault (s : State) (x : Xfer) (cause rsp : Nat) : State :=
  let node := if cause = cNode ∨ cause = cOwner then x.node else 0
  match x.use with
  | .far c t _ _ =>
    let pc := (s.thread c t).pc - 4
    (s.modThread c t (fun th => { th with pc := pc, stat := .ready })).coreFault c cause { thread := t, pc := pc, node := node, rsp := rsp }
  | .farStore c t pc => (s.ackStore c t).coreFault c cause { thread := t, pc := pc, node := node, rsp := rsp }
  | .dmaRead c id _ | .dmaWrite c id =>
    match s.act c id with
    | none => s.coreFault c cause { thread := 0, node := node, rsp := rsp }
    | some a => (s.modAct c id (fun a => { a with failed := true })).coreFault c cause {
        thread := a.desc.thread, engine := a.eng, tag := wbits (a.desc.words.getD 0 0) 40 8, pc := a.desc.pc, node := node, rsp := rsp }
  | .replay p _ => s.replayLost p x.node 0
  | .gone => s

/-- Refusal of a transaction at its source (R320, R326, R349): counts, FAB_REACH with port 0xFF when it is the reach that
refuses. -/
def State.refuseSource (s : State) (p q : Nat) (reach : Bool) : State :=
  let s1 := s.satFld (.partFabStat p) PartFabStat.unreachable 1
  if reach then
    (((s1.satFld (.fabStat 1) FabStat.lo 1).satFld (.partFabStat p) PartFabStat.refused 1)).log {
      code := 0x4801, part := some p, detail := det [(2, s.ownLnode), (1, p), (1, q), (1, 0xFF)] }
  else s1

/-- Whether a transaction of `p` to logical node `n`, partition `q` may be injected: its physical node, or whether the
reach refused it. -/
def State.mayInject (s : State) (p n q : Nat) : Nat ⊕ Bool :=
  match s.xlate n with
  | none => .inr false
  | some phys => if s.inReach p n q then .inl phys else .inr true

/-- Whether a partition's injections wait (R347, R348). -/
def State.injectStopped (s : State) (p : Nat) : Bool :=
  s.noLogical || (s.fld .fabTableCtl FabTableCtl.quiesce = 1 && bitAt (s.fld .fabTableCtl FabTableCtl.partMask) p)

/-- Packets of an unanswered entry have come to nothing or been answered; a descriptor they belong to waits for them no
more. -/
def State.countXfer (s : State) (tag n : Nat) : State :=
  match mfind s.fab.xfers tag with
  | none => s
  | some x =>
    let k := min n x.left
    let s1 := { s with fab := { s.fab with
      xfers := if x.left ≤ n then mdel s.fab.xfers tag else mset s.fab.xfers tag { x with left := x.left - n } } }
    match x.use with
    | .dmaRead c id _ | .dmaWrite c id => s1.modAct c id (fun a => { a with left := a.left - k })
    | _ => s1

/-- A transaction is refused at its source (R320, R326): counted once, and its descriptor or thread faults; nothing of it is
outstanding any more. A packet whose transaction has ended so already adds nothing. -/
def State.refuseXfer (s : State) (pkt : Pkt) (reach : Bool) : State :=
  match mfind s.fab.xfers pkt.tag with
  | none => s
  | some x => ((s.refuseSource pkt.srcPart pkt.dstPart reach).countXfer pkt.tag x.left).xferFault x cNode 0

/-- Inject a request now; its node field is logical. A refusal ends the whole transaction (R320, R326). -/
def State.injectNow (s : State) (vc : Nat) (mid : Option Nat) (pkt : Pkt) : State :=
  match s.mayInject pkt.srcPart pkt.dstNode pkt.dstPart with
  | .inl phys =>
    (s.liveAdd (.partFabTxSnap pkt.srcPart) PartFabTxSnap.bytes pkt.length).originate vc pkt.dstNode mid
      { pkt with dstNode := phys, srcNode := s.ownNode, srcLnode := s.ownLnode }
  | .inr reach => (s.copyGone mid).refuseXfer pkt reach

/-- Whether a waiting injection goes on: its partition may inject, and its copy is in the store of 256 packets or finds
a place there (R346, R347). -/
def State.injectReady (s : State) (pkt : Pkt) (mid : Option Nat) : Bool :=
  !s.injectStopped pkt.srcPart && match mid with
    | none => true
    | some m => (mfind s.fab.mstore m).isSome || s.fab.mstore.length < 256

/-- Waiting copies of a multicast packet. -/
def copiesOf (m : Nat) (l : List (Pkt × Nat × Option Nat)) : Nat := (l.filter (fun (_, _, x) => x = some m)).length

/-- Why a transaction of `p` to logical node `n`, partition `q` may not be injected: whether its reach refuses it. -/
def State.injectBar (s : State) (p n q : Nat) : Option Bool :=
  match s.mayInject p n q with
  | .inl _ => none
  | .inr reach => some reach

/-- Why a multicast packet may not be injected: the first of its waiting copies that may not (R345). -/
def State.mcastBar (s : State) (m : Nat) (l : List (Pkt × Nat × Option Nat)) : Option Bool :=
  l.findSome? (fun (pkt, _, x) => if x = some m then s.injectBar pkt.srcPart pkt.dstNode pkt.dstPart else none)

/-- Packets that waited for injection go on when they may. A multicast packet enters the store with all its copies, once the
reach of every member has been checked; if one fails, no copy leaves (R345, R346). -/
def State.drainInject (s : State) : State :=
  s.fab.inject.foldl (fun t (pkt, vc, mid) =>
    if !t.injectReady pkt mid then { t with fab := { t.fab with inject := t.fab.inject ++ [(pkt, vc, mid)] } }
    else match mid with
      | none => t.injectNow vc mid pkt
      | some m =>
        if (mfind t.fab.mstore m).isSome then t.injectNow vc mid pkt
        else match t.mcastBar m s.fab.inject with
          | some reach => t.refuseXfer pkt reach
          | none => { t with fab := { t.fab with mstore := mset t.fab.mstore m (copiesOf m s.fab.inject) } }.injectNow vc mid pkt)
    { s with fab := { s.fab with inject := [] } }

/-- Inject a request of a partition, or let it wait (R347, R348). -/
def State.inject (s : State) (vc : Nat) (pkt : Pkt) : State :=
  if s.injectStopped pkt.srcPart then { s with fab := { s.fab with inject := s.fab.inject ++ [(pkt, vc, none)] } }
  else s.injectNow vc none pkt

/-- Multicast a packet to logical nodes: one copy each, in ascending coordinate (R345, R346). -/
def State.multicast (s : State) (vc : Nat) (members : List Nat) (pkt : Pkt) : State :=
  let m := s.fab.nextMid
  { s with fab := { s.fab with nextMid := m + 1, inject := s.fab.inject ++ members.map (fun n => ({ pkt with dstNode := n }, vc, some m)) } }.drainInject

/-- A request packet of a core's transaction, its node field logical (R334). -/
def requestPkt (p core thread tag op node part space offset : Nat) (data : List Byte) : Pkt :=
  { op := op, dstNode := node, dstPart := part, space := space, offset := offset, srcNode := 0, srcLnode := 0, srcPart := p,
    core := core, thread := thread, tag := tag, flagged := false, rx := 0, flagCount := 0, chk := false, valid := false, check := 0,
    route := 0, hops := 0, aux := 0, length := data.length, data := data }

/-! ## At the destination -/

/-- Where an offset of a partition's space lies (R96, R355), if `n` bytes there exist. -/
def State.spaceLoc (s : State) (q space offset n : Nat) : Option (Loc × Nat) :=
  let go (l : Loc) (a : Nat) : Option (Loc × Nat) := if a + n ≤ s.locSize l then some (l, a) else none
  if space = 0 then
    let c := offset / 2 ^ 21
    if s.granted q c then go (.spm c) (offset % 2 ^ 21) else none
  else if space = 1 then (if offset / 2 ^ 29 = 0 then go (.lls (offset / 2 ^ 27) q) (offset % 2 ^ 27) else none)
  else if space = 2 then go (.hbm q) offset
  else none

/-- A region-table word (R366). -/
def State.regionWord (s : State) (q i w : Nat) : Nat := grain (s.reg (.partRegion q i w))

/-- Whether the region table of `q` lets a packet through (R365); `bit` is 28 load, 29 store, 30 atomic. -/
def State.regionPermits (s : State) (q bit n p space offset : Nat) : Bool :=
  (List.range 256).any (fun i =>
    let w2 := s.regionWord q i 2
    bitAt w2 bit && bitsOf w2 0 10 ≤ n && n ≤ bitsOf w2 10 10 && bitsOf w2 20 5 = p && bitsOf w2 25 3 = space
      && bitsOf (s.regionWord q i 0) 0 30 ≤ offset / 65536
      && offset / 65536 < bitsOf (s.regionWord q i 0) 0 30 + bitsOf (s.regionWord q i 1) 0 30)

/-- Bytes that a packet concerns at its destination. -/
def Pkt.span (p : Pkt) : Nat :=
  if p.op = 0 then bitsOf (leNat p.data) 0 13
  else if p.op = 1 then
    (let f := ((p.data.drop 16).headD 0).toNat
     if f = 4 then 16 else if [2, 5, 7, 9, 0xB].contains f then 4 else 8)
  else p.length

/-- Whether a READ is one of a replay engine: whole blocks asked on VC6 (R502). -/
def WaitPkt.isReplay (w : WaitPkt) : Bool := w.pkt.op = 0 && w.vc = 6

/-- Whether bytes lie in an input range of the partition's Open or Closed step (R499, R502). -/
def State.inStepInput (s : State) (q : Nat) (l : Loc) (a n : Nat) : Bool :=
  s.stepOpen q && (List.range 16).any (fun i =>
    let (kind, l', b, sz) := s.stepRange q i
    kind = 1 && l' = l && 4096 * b ≤ a && a + n ≤ 4096 * (b + sz))

/-- Whether a partition takes packets (R326, R446): Armed, and no RELEASE runs. -/
def State.takesPackets (s : State) (q : Nat) : Bool := s.partState q = 2 && s.fld (.partState q) PartState.releasing = 0
/-- Whether the reach of a packet's destination partition lets it in (R326, R348). -/
def State.letsIn (s : State) (p : Pkt) : Bool := !s.noLogical && s.inReach p.dstPart p.srcLnode p.srcPart

/-- The checks of R355 in order: where the packet acts, or the cause of its refusal. A tack set has no place; one for a
partition that is not Armed is refused with OWNERSHIP (R273, assumption 75). -/
def State.checkPacket (s : State) (w : WaitPkt) : Option (Loc × Nat) ⊕ Nat :=
  let p := w.pkt
  let q := p.dstPart
  if !s.letsIn p then .inr cNode
  else if !s.takesPackets q then .inr (if p.op = 9 then cOwner else cNode)
  else if isReservedOp p.op then .inr cDesc
  else if p.op = 9 then
    let g := bitsOf (leNat p.data) 0 10
    (match mfind s.parts q with
    | none => .inr cOwner
    | some x => if s.gtFirst q ≤ g ∧ g < s.gtFirst q + s.gtCount q ∧ x.gtSettable.getLsbD g then .inl none else .inr cOwner)
  else match s.spaceLoc q p.space p.offset p.span with
    | none => .inr cBound
    | some (l, a) =>
      if p.op ≠ 0 ∧ s.stepGuards l a p.span then .inr cBound
      else if w.isReplay ∧ !s.inStepInput q l a p.span then .inr cOwner
      else if !(p.srcLnode = s.ownLnode ∧ p.srcPart = q)
          ∧ !s.regionPermits q (if p.op = 0 then 28 else if p.op = 1 then 30 else 29) p.srcLnode p.srcPart p.space p.offset then .inr cOwner
      else .inl (some (l, a))

/-- Counts and events of a refusal at the destination (R326, R349, R382). -/
def State.countRefusal (s : State) (w : WaitPkt) (cause : Nat) : State :=
  let p := w.pkt
  let q := p.dstPart
  if cause = cNode then
    ((s.satFld (.fabStat 1) FabStat.lo 1).satFld (.partFabStat q) PartFabStat.refused 1).log {
      code := 0x4801, part := some q,
      detail := det [(2, p.srcLnode), (1, p.srcPart), (1, q), (1, w.port.getD 0xFF)] }
  else if cause = cOwner ∧ p.op ≠ 9 then s.satFld (.partRmtStat q) PartRmtStat.refusedOwnership 1
  else if cause = cBound then s.satFld (.partRmtStat q) PartRmtStat.refusedBound 1
  else s

/-- A packet leaves the waiting ones. -/
def State.dropWaiting (s : State) (i : Nat) : State := { s with fab := { s.fab with waiting := s.fab.waiting.eraseIdx i } }

/-- The buffers of a packet that has been dealt with are free. -/
def State.doneWith (s : State) (w : WaitPkt) : State := s.freeBufs w.port (pairOf w.vc w.pkt.srcPart) w.got

/-- The `i`-th waiting packet when it is complete, the device's own, and `ok` accepts it. -/
def State.waitingPkt (s : State) (i : Nat) (ok : Pkt → Bool) : Option WaitPkt :=
  match s.fab.waiting[i]? with
  | none => none
  | some w => if w.got = w.total ∧ w.pkt.dstNode = s.ownNode ∧ ok w.pkt then some w else none

/-- Write a packet's bytes at a place: a block with its check value (R335), or an OPEN write (R218). Whether the write
was not performed (R236). -/
def State.writePacket (s : State) (p : Pkt) (l : Loc) (a : Nat) : State × Bool :=
  let (s1, bad) := s.writeSpan l a p.data
  if bad then (s1, true)
  else if p.chk ∧ a % 4096 = 0 ∧ p.length = 4096 then (s1.sealBlk l (a / 4096) ⟨BitVec.ofNat 32 p.check, p.valid⟩, false)
  else (s1, false)

/-- A store that passed its checks is written, counted and to be acknowledged (R266, R356); a tack set is performed. -/
def State.deliver (s : State) (p : Pkt) (at? : Option (Loc × Nat)) (us : List Upset) : State :=
  match at? with
  | none => (s.setGtack (bitsOf (leNat p.data) 0 10)).addAck p 0
  | some (l, a) =>
    let (s1, bad) := (s.preWrite l a p.length us).writePacket p l a
    if bad then s1.addAck p cCrc else (s1.rxCount p.dstPart p.rx p.length).addAck p 0

/-- A packet is refused: discarded, counted, and to be answered (R355, R356). -/
def State.refuse (s : State) (i : Nat) (w : WaitPkt) (cause : Nat) : State :=
  (((s.dropWaiting i).doneWith w).countRefusal w cause).addAck w.pkt cause

/-- Packets that a partition holds. -/
def State.heldPkts (s : State) (q : Nat) : List WaitPkt :=
  match mfind s.parts q with
  | none => []
  | some x => x.held

/-- Whether a flagged packet is to be held: its count is not reached, or an older packet whose count is reached still waits for
its release, so that the oldest goes first (R268). -/
def State.mustHold (s : State) (q rx count : Nat) : Bool :=
  !reached (s.rxLow q rx) count || (s.heldPkts q).any (fun h => reached (s.rxLow q h.pkt.rx) h.pkt.flagCount)

/-- A store or tack set arrives (R268, R269, R355, R356): refused, held while its flag count is not reached, or
delivered. A flagged packet that finds 16 held stays in its buffer. -/
def State.storeArrives (s : State) (i : Nat) (w : WaitPkt) (us : List Upset) : State :=
  let p := w.pkt
  let q := p.dstPart
  match s.checkPacket w with
  | .inr cause => s.refuse i w cause
  | .inl place =>
    let s1 := s.liveAdd (.partFabRxSnap q) PartFabRxSnap.bytes p.length
    if p.flagged ∧ (s.heldPkts q).length ≥ 16 then s
    else if p.flagged ∧ s.mustHold q p.rx p.flagCount then
      ((s1.dropWaiting i).doneWith w).modPart q (fun x => { x with held := x.held ++ [w] })
    else ((s1.dropWaiting i).doneWith w).deliver p place us

end Sys2Proof.Machine
end

