-- ==== Sys2Proof/Machine/Remote.lean ====
section
/-! DEFINITION. Remote memory (chapter 12): atomics at the home (R359, R362 to R364), far loads, stores and atomics of a
thread (R352, R359, R360), GTSETR (R272), and the packets that arrive at a destination (R353 to R356, R268, R269), with
the partition's writes to its region table, counters and grid tacks (R271, R285, R368). -/
namespace Sys2Proof.Machine

/-! ## Atomics at the home -/

/-- Bytes of a far access by its function code (R359). -/
def farSize (fn : Nat) : Nat := if fn = 4 then 16 else if [2, 5, 7, 9, 0xB].contains fn then 4 else 8

/-- What an integer atomic of `w` bits leaves (R359). -/
def atomInt (fn w cur op cmp : Nat) : Nat :=
  let o := op % 2 ^ w
  if fn = 2 ∨ fn = 3 then (cur + o) % 2 ^ w
  else if fn = 5 ∨ fn = 6 then (if cur = cmp % 2 ^ w then o else cur)
  else if fn = 7 ∨ fn = 8 then o
  else if fn = 9 ∨ fn = 0xA then (if signed w cur ≤ signed w o then cur else o)
  else (if signed w o ≤ signed w cur then cur else o)

/-- What FADDF leaves of a long partial of the exact class, as 128 bits (R364). -/
def atomFloat (cur op : Nat) : Nat := ((Acc.ofLp cur).addProduct (ofF32 (op % 2 ^ 32)) 1000).toLp

/-- A far atomic at its home (R362 to R364, R218): the value for rd (R359), or the cause of its refusal. -/
def State.atomicAt (s : State) (l : Loc) (a fn op cmp : Nat) (us : List Upset) : State × (Nat ⊕ Nat) :=
  let n := farSize fn
  let (s1, bs, h) := s.readSpans l [(a, n)] us
  if h ≠ .none then (s1, .inr cCrc)
  else
    let cur := leNat bs
    if fn = 4 ∧ (Acc.ofLp cur).wide then (s1, .inr cDesc)
    else
      let (s2, bad) := s1.writeSpan l a (leBytes n (if fn = 4 then atomFloat cur op else atomInt fn (8 * n) cur op cmp))
      if bad then (s2, .inr cCrc)
      else
        (match s2.locPart l with
          | none => s2
          | some q => s2.liveAdd (.partAtomSnap q) PartAtomSnap.atomics 1,
          .inl (if fn = 4 then (Acc.ofLp cur).toF32 else unsigned 64 (signed (8 * n) cur)))

/-! ## Far accesses of a thread -/

/-- Where a far access to the issuing partition's own memory on the device acts (R97, R105, R352): through the envelope
in the three envelope spaces, otherwise within the space's full size; else BOUND. -/
def State.farPlace (s : State) (c t p space off n : Nat) : (Loc × Nat) ⊕ Nat :=
  let env := (s.thread c t).env
  let die := dieOf (s.physOf (some c))
  let within (i : Nat) (l : Loc) (o : Nat) : (Loc × Nat) ⊕ Nat :=
    if o + n ≤ envAt env (2 * i + 1) then .inl (l, envAt env (2 * i) + o) else .inr cBound
  if space = 0 ∧ off / 2 ^ 21 = c then within 0 (.spm c) (off % 2 ^ 21)
  else if space = 1 ∧ off / 2 ^ 27 = die then within 1 (.lls die p) (off % 2 ^ 27)
  else if space = 2 then within 2 (.hbm p) off
  else match s.spaceLoc p space off n with
    | some x => .inl x
    | none => .inr cBound

/-- A far access that stays on the device's own partition (R352) takes place at once (R359); the count of a far store
goes to receive counter 0 unless it is to the own scratchpad (assumption 22). A row of the own scratchpad that the access finds
lost halts the core with ENGINE_HW (R202). -/
def State.farLocal (s : State) (c t p fn : Nat) (rd : Nat) (l : Loc) (a : Nat) (op cmp : Nat) (us : List Upset) : State :=
  if fn ≠ 0 ∧ s.stepGuards l a (farSize fn) then s.scalarFault c t cBound
  else if fn = 1 then
    let (s1, bad) := (s.preWrite l a 8 us).writeSpan l a (leBytes 8 op)
    if bad then s1.scalarFault c t cCrc
    else (if l = .spm c then s1 else s1.rxCount p 0 8).advance c t 1
  else if fn = 0 then
    let (s1, bs, h) := s.readSpans l [(a, 8)] us
    if h ≠ .none then s1.scalarFault c t (if l = .spm c then hurtCause h else cCrc)
    else if s1.isRetired c then s1
    else ((s1.parkNext c t (.far rd)).modThread c t (fun th => th.setG rd (BitVec.ofNat 64 (leNat bs)))).unpark c t
  else match s.atomicAt l a fn op cmp us with
    | (s1, .inr cause) => s1.scalarFault c t (if l = .spm c ∧ cause = cCrc then cHw else cause)
    | (s1, .inl v) => if s1.isRetired c then s1 else ((s1.parkNext c t (.far rd)).modThread c t (fun th => th.setG rd (BitVec.ofNat 64 v))).unpark c t

/-- A far access to another node or partition becomes a packet (R352, R353, R359): READ, WRITE or ATOMIC. -/
def State.farRemote (s : State) (c t p fn rd node part space off op cmp : Nat) : State :=
  if fn = 1 then
    let (s1, tag) := s.openXfer (.farStore c t (s.thread c t).pc) p node 1
    ((s1.modThread c t (fun th => { th with unacked := th.unacked + 1 })).advance c t 1).inject 3
      (requestPkt p c t tag 8 node part space off (leBytes 8 op))
  else
    let (s1, tag) := s.openXfer (.far c t fn rd) p node 1
    (s1.parkNext c t (.far rd)).inject 1 (requestPkt p c t tag (if fn = 0 then 0 else 1) node part space off
      (if fn = 0 then leBytes 16 8 else leBytes 8 op ++ leBytes 8 cmp ++ leBytes 8 fn))

/-- A far load, store or atomic of function `fn` (R359): MISALIGN, BOUND for spaces 3 to 7, the limit of 16 far stores
(R360), then the own partition's memory or a packet (R352). -/
def farOp (fn c : Nat) (rd : Option (Fin 32)) (rs1 : Fin 32) (rs2 rs3 : Option (Fin 32)) (us : List Upset) (s : State) : State :=
  s.issue c (fun x => isFar x fn (rd.map Fin.val) rs1 (rs2.map Fin.val) (rs3.map Fin.val)) (fun t =>
    let g (r : Option (Fin 32)) : Nat := match r with
      | none => 0
      | some r => (s.gpr c t r).toNat
    let d := match rd with
      | none => 0
      | some r => r.val
    let addr := (s.gpr c t rs1).toNat
    let (node, part, space, off) := (bitsOf addr 54 10, bitsOf addr 49 5, bitsOf addr 46 3, bitsOf addr 0 46)
    match s.ownerOf c with
    | none => s
    | some p =>
      if addr % farSize fn ≠ 0 then s.scalarFault c t cMisalign
      else if space ≥ 3 then s.scalarFault c t cBound
      else if fn = 1 ∧ (s.thread c t).unacked ≥ 16 then s.park c t .storeFull
      else if !s.noLogical ∧ node = s.ownLnode ∧ part = p then
        (match s.farPlace c t p space off (farSize fn) with
        | .inr cause => s.scalarFault c t cause
        | .inl (l, a) => s.farLocal c t p fn d l a (g rs2) (g rs3) us)
      else s.farRemote c t p fn d node part space off (g rs2) (g rs3))

/-- FLD (R359). -/
def execFld (c : Nat) (rd rs1 : Fin 32) (u : List Upset) (s : State) : Host.Outcome State Fault Refusal :=
  commit s (Instr.wf (.fld c rd rs1 u)) (farOp 0 c (some rd) rs1 none none u s)
/-- FST (R359, R360). -/
def execFst (c : Nat) (rs1 rs2 : Fin 32) (u : List Upset) (s : State) : Host.Outcome State Fault Refusal :=
  commit s (Instr.wf (.fst c rs1 rs2 u)) (farOp 1 c none rs1 (some rs2) none u s)
/-- FADD32 (R359). -/
def execFadd32 (c : Nat) (rd rs1 rs2 : Fin 32) (u : List Upset) (s : State) : Host.Outcome State Fault Refusal :=
  commit s (Instr.wf (.fadd32 c rd rs1 rs2 u)) (farOp 2 c (some rd) rs1 (some rs2) none u s)
/-- FADD64 (R359). -/
def execFadd64 (c : Nat) (rd rs1 rs2 : Fin 32) (u : List Upset) (s : State) : Host.Outcome State Fault Refusal :=
  commit s (Instr.wf (.fadd64 c rd rs1 rs2 u)) (farOp 3 c (some rd) rs1 (some rs2) none u s)
/-- FADDF (R359, R364). -/
def execFaddf (c : Nat) (rd rs1 rs2 : Fin 32) (u : List Upset) (s : State) : Host.Outcome State Fault Refusal :=
  commit s (Instr.wf (.faddf c rd rs1 rs2 u)) (farOp 4 c (some rd) rs1 (some rs2) none u s)
/-- FCAS32 (R359). -/
def execFcas32 (c : Nat) (rd rs1 rs2 rs3 : Fin 32) (u : List Upset) (s : State) : Host.Outcome State Fault Refusal :=
  commit s (Instr.wf (.fcas32 c rd rs1 rs2 rs3 u)) (farOp 5 c (some rd) rs1 (some rs2) (some rs3) u s)
/-- FCAS64 (R359). -/
def execFcas64 (c : Nat) (rd rs1 rs2 rs3 : Fin 32) (u : List Upset) (s : State) : Host.Outcome State Fault Refusal :=
  commit s (Instr.wf (.fcas64 c rd rs1 rs2 rs3 u)) (farOp 6 c (some rd) rs1 (some rs2) (some rs3) u s)
/-- FSWP32 (R359). -/
def execFswp32 (c : Nat) (rd rs1 rs2 : Fin 32) (u : List Upset) (s : State) : Host.Outcome State Fault Refusal :=
  commit s (Instr.wf (.fswp32 c rd rs1 rs2 u)) (farOp 7 c (some rd) rs1 (some rs2) none u s)
/-- FSWP64 (R359). -/
def execFswp64 (c : Nat) (rd rs1 rs2 : Fin 32) (u : List Upset) (s : State) : Host.Outcome State Fault Refusal :=
  commit s (Instr.wf (.fswp64 c rd rs1 rs2 u)) (farOp 8 c (some rd) rs1 (some rs2) none u s)
/-- FMIN32 (R359). -/
def execFmin32 (c : Nat) (rd rs1 rs2 : Fin 32) (u : List Upset) (s : State) : Host.Outcome State Fault Refusal :=
  commit s (Instr.wf (.fmin32 c rd rs1 rs2 u)) (farOp 9 c (some rd) rs1 (some rs2) none u s)
/-- FMIN64 (R359). -/
def execFmin64 (c : Nat) (rd rs1 rs2 : Fin 32) (u : List Upset) (s : State) : Host.Outcome State Fault Refusal :=
  commit s (Instr.wf (.fmin64 c rd rs1 rs2 u)) (farOp 0xA c (some rd) rs1 (some rs2) none u s)
/-- FMAX32 (R359). -/
def execFmax32 (c : Nat) (rd rs1 rs2 : Fin 32) (u : List Upset) (s : State) : Host.Outcome State Fault Refusal :=
  commit s (Instr.wf (.fmax32 c rd rs1 rs2 u)) (farOp 0xB c (some rd) rs1 (some rs2) none u s)
/-- FMAX64 (R359). -/
def execFmax64 (c : Nat) (rd rs1 rs2 : Fin 32) (u : List Upset) (s : State) : Host.Outcome State Fault Refusal :=
  commit s (Instr.wf (.fmax64 c rd rs1 rs2 u)) (farOp 0xC c (some rd) rs1 (some rs2) none u s)

/-- GTSETR: one TACK_SET packet on VC3, flagged when rs1[38] is set; it counts as a far store (R272, R360). -/
def execGtsetr (c : Nat) (rs1 : Fin 32) (g : Fin 1024) (s : State) : Host.Outcome State Fault Refusal :=
  commit s (Instr.wf (.gtsetr c rs1 g)) (s.issue c (fun x => isSync x 5 5 && ifld x 19 10 = g.val && ifld x 9 5 = rs1.val) (fun t =>
    let v := s.gpr c t rs1
    match s.ownerOf c with
    | none => s
    | some p =>
      if wbits v 39 10 ≠ 0 then s.scalarFault c t cIllegal
      else if (s.thread c t).unacked ≥ 16 then s.park c t .storeFull
      else
        let (s1, tag) := s.openXfer (.farStore c t (s.thread c t).pc) p (wbits v 54 10) 1
        ((s1.modThread c t (fun th => { th with unacked := th.unacked + 1 })).advance c t 1).inject 3
          { requestPkt p c t tag 9 (wbits v 54 10) (wbits v 49 5) 0 0 (leBytes 8 g) with
            flagged := wbits v 38 1 = 1, rx := wbits v 32 6, flagCount := wbits v 0 32 }))

/-! ## Arrivals -/

/-- A READ is answered with the bytes, and with the block's check value and state when it asks for a whole aligned block
(R353, R354); a replay READ on VC6 (R502). -/
def State.readArrives (s : State) (i : Nat) (w : WaitPkt) (us : List Upset) : State :=
  match s.checkPacket w with
  | .inr cause => s.refuse i w cause
  | .inl none => s
  | .inl (some (l, a)) =>
    let p := w.pkt
    let s0 := ((s.dropWaiting i).doneWith w).liveAdd (.partFabRxSnap p.dstPart) PartFabRxSnap.bytes p.length
    let (s1, bs, h) := s0.readSpans l [(a, p.span)] us
    if h ≠ .none then s1.addAck p cCrc
    else
      let b := s1.blkOf l (a / 4096)
      let r := s1.responseTo p 0x20 bs
      s1.sendResponse w.vc (if a % 4096 = 0 ∧ p.span = 4096 then { r with chk := true, valid := b.valid, check := b.check.toNat } else r)

/-- An ATOMIC is performed and answered with the previous value (R353, R363). A function code of no atomic is refused
with DESC_INVALID (assumption 23). -/
def State.atomicArrives (s : State) (i : Nat) (w : WaitPkt) (us : List Upset) : State :=
  match s.checkPacket w with
  | .inr cause => s.refuse i w cause
  | .inl none => s
  | .inl (some (l, a)) =>
    let p := w.pkt
    let d := leNat p.data
    let fn := bitsOf d 128 8
    let s0 := ((s.dropWaiting i).doneWith w).liveAdd (.partFabRxSnap p.dstPart) PartFabRxSnap.bytes p.length
    if fn < 2 ∨ 0xC < fn then s0.addAck p cDesc
    else match s0.atomicAt l a fn (bitsOf d 0 64) (bitsOf d 64 64) us with
      | (s1, .inr cause) => s1.addAck p cause
      | (s1, .inl v) => s1.sendResponse 2 (s1.responseTo p 0x20 (leBytes 8 v))

/-- The `i`-th waiting packet arrives as operation `op`, or as a reserved operation, which is refused (R353, R355). -/
def State.packetArrives (s : State) (i op : Nat) (eff : WaitPkt → State) : State :=
  match s.waitingPkt i (fun p => p.op = op || isReservedOp p.op) with
  | none => s
  | some w =>
    if w.pkt.op = op then eff w
    else match s.checkPacket w with
      | .inr cause => s.refuse i w cause
      | .inl _ => s

/-- READ (R353 to R355). -/
def execRead (i : Nat) (u : List Upset) (s : State) : Host.Outcome State Fault Refusal :=
  commit s (Instr.wf (.read i u)) (s.packetArrives i 0 (fun w => s.readArrives i w u))
/-- ATOMIC (R353, R362, R363). -/
def execAtomic (i : Nat) (u : List Upset) (s : State) : Host.Outcome State Fault Refusal :=
  commit s (Instr.wf (.atomic i u)) (s.packetArrives i 1 (fun w => s.atomicArrives i w u))
/-- WRITE (R353, R356, R266, R268). -/
def execWrite (i : Nat) (u : List Upset) (s : State) : Host.Outcome State Fault Refusal :=
  commit s (Instr.wf (.write i u)) (s.packetArrives i 8 (fun w => s.storeArrives i w u))
/-- TACK_SET (R272, R273). -/
def execTackSet (i : Nat) (s : State) : Host.Outcome State Fault Refusal :=
  commit s (Instr.wf (.tackSet i)) (s.packetArrives i 9 (fun w => s.storeArrives i w []))
/-- XCHG_WRITE (R188, R353). -/
def execXchgWrite (i : Nat) (u : List Upset) (s : State) : Host.Outcome State Fault Refusal :=
  commit s (Instr.wf (.xchgWrite i u)) (s.packetArrives i 0x10 (fun w => s.storeArrives i w u))
/-- COLL_WRITE (R353, R374). -/
def execCollWrite (i : Nat) (u : List Upset) (s : State) : Host.Outcome State Fault Refusal :=
  commit s (Instr.wf (.collWrite i u)) (s.packetArrives i 0x18 (fun w => s.storeArrives i w u))
/-- COLL_COUNT (R353, R377). -/
def execCollCount (i : Nat) (u : List Upset) (s : State) : Host.Outcome State Fault Refusal :=
  commit s (Instr.wf (.collCount i u)) (s.packetArrives i 0x19 (fun w => s.storeArrives i w u))

/-- The place of a held packet at its release, or none when its bytes lie in an input range by then (R499). -/
def State.releasePlace (s : State) (w : WaitPkt) : Option (Option (Loc × Nat)) :=
  if w.pkt.op = 9 then some none
  else match s.spaceLoc w.pkt.dstPart w.pkt.space w.pkt.offset w.pkt.span with
    | none => none
    | some (l, a) => if s.stepGuards l a w.pkt.span then none else some (some (l, a))

/-- FLAG_RELEASE: the oldest held packet whose count is reached is written, counted and answered (R268). -/
def execFlagRelease (p : Nat) (u : List Upset) (s : State) : Host.Outcome State Fault Refusal :=
  commit s (Instr.wf (.flagRelease p u)) (match mfind s.parts p with
    | none => s
    | some q =>
      match q.held.findIdx? (fun w => reached (s.rxLow p w.pkt.rx) w.pkt.flagCount) with
      | none => s
      | some i =>
        let s1 := s.modPart p (fun q => { q with held := q.held.eraseIdx i })
        match q.held[i]? with
        | none => s
        | some w => match s1.releasePlace w with
          | some place => s1.deliver w.pkt place u
          | none => (s1.countRefusal w cBound).addAck w.pkt cBound)

/-- ACK_COALESCE_TIMER: the k-th pending answer is sent (R356). -/
def execAckCoalesceTimer (k : Nat) (s : State) : Host.Outcome State Fault Refusal :=
  commit s (Instr.wf (.ackCoalesceTimer k)) (match s.fab.acks[k]? with
    | none => s
    | some a => ({ s with fab := { s.fab with acks := s.fab.acks.eraseIdx k } }).sendAck a)

/-! ## The partition's registers -/

/-- A GF write whose halves do not complement is rejected (R8, R585). -/
def State.gfReject (s : State) (p : Option Nat) (off : Nat) : State :=
  (s.satFld .fabConsDev FabConsDev.gf 1).log { code := 0x4B01, part := p, detail := det [(4, 0), (8, off)] }

/-- The bits of word `w` of a region entry that R366 does not reserve. -/
def regionMask (w : Nat) : Nat := if w < 2 then 2 ^ 30 - 1 else if w = 2 then 2 ^ 31 - 1 else 0

/-- PART_REGION_WRITE: word w of entry i is replaced (R368); reserved bits stay 0 (R6, R366). -/
def execPartRegionWrite (p i w : Nat) (v : BitVec 64) (s : State) : Host.Outcome State Fault Refusal :=
  commit s (Instr.wf (.partRegionWrite p i w v)) (s.vfWrite p (
    if gfOk v then s.setReg (.partRegion p i w) (gfMasked v (regionMask w)) else s.gfReject (some p) (0x4000 + 0x20 * i + 8 * w)))

/-- PART_RX_CTL_WRITE: zeroes and disarms a counter (R271). -/
def execPartRxCtlWrite (p : Nat) (v : BitVec 64) (s : State) : Host.Outcome State Fault Refusal :=
  commit s (Instr.wf (.partRxCtlWrite p v)) (s.vfWrite p (
    if PartRxCtl.zero.get v = 1 then s.rxZero p (PartRxCtl.counter.get v) else s))

/-- PART_GTACK_CTL_WRITE: the register takes the pair, and the write acts as GTSET or GTCLR; for a tack outside the grant, or a
partition that is not Armed, it has no effect (R7, R285). -/
def execPartGtackCtlWrite (p : Nat) (v : BitVec 64) (s : State) : Host.Outcome State Fault Refusal :=
  commit s (Instr.wf (.partGtackCtlWrite p v)) (s.vfWrite p (
    if !gfOk v then s.gfReject (some p) 0x3610
    else
      let g := PartGtackCtl.tack.get v
      if s.partState p ≠ 2 ∨ g < s.gtFirst p ∨ s.gtFirst p + s.gtCount p ≤ g then s
      else
        let s1 := s.setReg (.partGtackCtl p) (gfMasked v (2 ^ 11 - 1))
        if PartGtackCtl.value.get v = 1 then s1.setGtack g else s1.clearGtack g))

end Sys2Proof.Machine
end

