-- ==== Sys2Proof/Machine/Dma.lean ====
section
/-! DEFINITION. The DMA engine (R96 to R103, R219 to R222, R257, R352 to R358, R434): endpoints, the pieces of a shape,
gathering from local memory, other nodes and the host, writing, flagged packets, multicast copies (R345, R346, R369) and
the meanings of its descriptors but for the collectives. -/
namespace Sys2Proof.Machine

/-! ## Endpoints and pieces -/

/-- An endpoint of R96: space, node, partition, whether it is the partition's own memory on the device (R352), offset. -/
structure Ep where
  space : Nat
  node : Nat
  part : Nat
  here : Bool
  base : Nat
  deriving DecidableEq, Repr

/-- The endpoint a word names. -/
def State.epOf (s : State) (p : Nat) (word : BitVec 64) (loc : Bool) : Ep :=
  { space := wbits word 46 3, node := wbits word 54 10, part := if loc then p else wbits word 49 5,
    here := loc || (!s.noLogical && wbits word 54 10 = s.ownLnode && wbits word 49 5 = p), base := wbits word 0 46 }

/-- Bytes that the offset form of a space can name (R96). -/
def formSize (space : Nat) : Nat := if space = 0 then 2 ^ 30 else if space = 1 then 2 ^ 29 else 2 ^ 46

/-- A reserved space, an offset outside its form, or a host endpoint that is not local (R96, R97). -/
def Ep.bad (e : Ep) (loc : Bool) : Bool := 4 ≤ e.space || (e.space = 3 && !loc) || formSize e.space ≤ e.base

/-- Where a byte of an endpoint lies: in the device's memory, on another node or partition, in host memory. -/
inductive Spot where
  | mem (l : Loc) (a : Nat)
  | far (off : Nat)
  | host (addr : Nat)
  deriving DecidableEq, Repr

/-- The address at which a spot is cut into blocks. -/
def Spot.addr : Spot → Nat
  | .mem _ a => a
  | .far o => o
  | .host a => a

/-- The largest piece at a spot: a 4 KiB block, or 512 bytes of host memory (R354, R433). -/
def Spot.grain : Spot → Nat
  | .host _ => 512
  | _ => 4096

/-- Where offset `raw` of an endpoint lies and how many bytes follow before the limit (R97, R101, R104); none where the
command stops with BOUND: below 0, past the form or the limit of the space, past the scratchpad of the core that the endpoint
names (assumption 53), and for a write within an input range of the partition's step (R499). -/
def State.spotAt (s : State) (c p : Nat) (env : List Nat) (wr : Bool) (e : Ep) (raw : Int) : Option (Spot × Nat) :=
  let o := raw.toNat
  if raw < 0 ∨ formSize e.space ≤ o ∨ (e.space = 0 ∧ o / 2 ^ 21 ≠ e.base / 2 ^ 21) then none
  else if e.space = 3 then some (.host o, formSize 3 - o)
  else if !e.here then some (.far o, (if e.space = 0 then (o / 2 ^ 21 + 1) * 2 ^ 21 else formSize e.space) - o)
  else
    let die := dieOf (s.physOf (some c))
    let within (i : Nat) (l : Loc) (x : Nat) : Option (Loc × Nat × Nat) :=
      if x < envAt env (2 * i + 1) then some (l, envAt env (2 * i) + x, envAt env (2 * i + 1) - x) else none
    match (if e.space = 0 ∧ o / 2 ^ 21 = c then within 0 (.spm c) (o % 2 ^ 21)
      else if e.space = 1 ∧ o / 2 ^ 27 = die then within 1 (.lls die p) (o % 2 ^ 27)
      else if e.space = 2 then within 2 (.hbm p) o
      else (s.spaceLoc p e.space o 1).map (fun (l, a) => (l, a, s.locSize l - a))) with
    | none => none
    | some (l, a, room) => if wr ∧ s.stepGuards l a 1 then none else some (.mem l a, room)

/-- A piece of a transfer: where it lies, its bytes, and its position in the visiting order. -/
structure Piece where
  spot : Spot
  len : Nat
  pos : Nat
  deriving DecidableEq, Repr

/-- Cut one run of `n` bytes into pieces; whether it stops with BOUND. -/
def walkRun (spot : Int → Option (Spot × Nat)) : Nat → Int → Nat → Nat → List Piece × Bool
  | 0, _, _, _ => ([], false)
  | fuel + 1, raw, n, pos =>
    if n = 0 then ([], false)
    else match spot raw with
      | none => ([], true)
      | some (x, room) =>
        let k := min n (min room (x.grain - x.addr % x.grain))
        let (r, bad) := walkRun spot fuel (raw + k) (n - k) (pos + k)
        (⟨x, k, pos⟩ :: r, bad)

/-- The pieces of a shape (R98), the bytes reached and whether it stops with BOUND (R101). -/
def walkShape (spot : Int → Option (Spot × Nat)) (base : Nat) (inner c1 c2 : Nat) (t1 t2 : Int) : List Piece × Nat × Bool :=
  ((List.range c2).flatMap (fun j => (List.range c1).map (fun i => (i, j)))).foldl (fun (ps, pos, bad) (i, j) =>
    if bad then (ps, pos, bad)
    else
      let (q, b) := walkRun spot (inner + 1) ((base : Int) + i * t1 + j * t2) inner pos
      (ps ++ q, pos + (q.map Piece.len).sum, b)) ([], 0, false)

/-- The pieces of the first `n` bytes. -/
def clip (n : Nat) (ps : List Piece) : List Piece :=
  ps.filterMap (fun x => if n ≤ x.pos then none else some { x with len := min x.len (n - x.pos) })

/-! ## The body -/

/-- chk of a body. -/
def Desc.chk (d : Desc) : Nat := d.f 3 26 2
/-- The word at [63:0] of a body. -/
def Desc.w (d : Desc) (i : Nat) : BitVec 64 := d.words.getD i 0
/-- The source endpoint; a multicast copy's is in local form (R369). -/
def State.dmaSrc (s : State) (p : Nat) (d : Desc) : Ep := s.epOf p (d.w 1) (d.f 3 24 1 = 1)
/-- The destination endpoint; at every member of a multicast copy (R369). -/
def State.dmaDst (s : State) (p : Nat) (d : Desc) : Ep :=
  let e := s.epOf p (d.w 2) (d.f 3 25 1 = 1)
  if d.op = 5 ∨ d.op = 6 then { e with here := false } else e

/-- The pieces of a descriptor: source, destination, bytes that move, whether BOUND follows. -/
structure DmaPlan where
  src : List Piece
  dst : List Piece
  total : Nat
  bad : Bool
  deriving DecidableEq, Repr

/-- Bytes of a digest's output over `n` source bytes (R103). -/
def digestLen (d : Desc) (n : Nat) (bad : Bool) : Nat :=
  let v := d.f 6 0 32
  32 * (if bad then n / v else (n + v - 1) / v) + (if d.op = 4 ∧ !bad then 32 else 0)

/-- The runs of a descriptor at an endpoint, whose strides stand in word `w` (R98). -/
def State.dmaShape (s : State) (c p : Nat) (d : Desc) (wr : Bool) (e : Ep) (w : Nat) : List Piece × Nat × Bool :=
  walkShape (s.spotAt c p d.env wr e) e.base (d.f 3 0 24) (d.f 3 32 16) (d.f 3 48 16) (signed 32 (d.f w 0 32))
    (signed 32 (d.f w 32 32))

/-- The plan of a descriptor of ops 1 to 6. -/
def State.dmaPlan (s : State) (c p : Nat) (d : Desc) : DmaPlan :=
  if d.op = 2 then
    let (ps, n, bad) := s.dmaShape c p d true (s.dmaDst p d) 5
    ⟨[], ps, n, bad⟩
  else
    let (ps, n, bad) := s.dmaShape c p d false (s.dmaSrc p d) 4
    if d.op = 3 ∨ d.op = 4 then
      let (qs, _, qbad) := walkShape (s.spotAt c p d.env true (s.dmaDst p d)) (s.dmaDst p d).base (digestLen d n bad) 1 1 0 0
      ⟨ps, qs, n, bad || qbad⟩
    else
      let (qs, m, qbad) := s.dmaShape c p d true (s.dmaDst p d) 5
      ⟨clip (min n m) ps, clip (min n m) qs, min n m, bad || qbad⟩

/-- Base, size and array of a partition's host check window (R226). -/
def State.hchkWin (s : State) (p : Nat) : Nat × Nat × Nat :=
  (s.fld (.partHchkBase p) PartHchkBase.base, s.fld (.partHchkSize p) PartHchkSize.size, s.fld (.partHchkArray p) PartHchkArray.array)

/-- The entry of a host check window of the block at a host address (R222, R226). -/
def hchkEntry (win : Nat × Nat × Nat) (addr : Nat) : Option Nat :=
  let (b, n, a) := win
  if b % 4096 = 0 ∧ a % 8 = 0 ∧ b ≤ addr ∧ addr < b + n then some (a + 8 * ((addr - b) / 4096)) else none

/-- Spans of the pieces that lie in a memory. -/
def memSpans (l : Loc) (ps : List Piece) : List Span :=
  ps.filterMap (fun x => match x.spot with
    | .mem l' a => if l' = l then some (a, x.len) else none
    | _ => none)
/-- The memories that pieces touch. -/
def memLocs (ps : List Piece) : List Loc :=
  (ps.filterMap (fun x => match x.spot with
    | .mem l _ => some l
    | _ => none)).eraseDups
/-- Spans of host memory that pieces touch. -/
def hostSpans (ps : List Piece) : List Span :=
  ps.filterMap (fun x => match x.spot with
    | .host a => some (a, x.len)
    | _ => none)

/-- The host bytes that a copy's shape names at either endpoint, whether or not it stops with BOUND before them (R222). -/
def State.hostShape (s : State) (c p : Nat) (d : Desc) : List Span :=
  let at_ (e : Ep) (wr : Bool) (w : Nat) : List Span := if e.space = 3 then hostSpans (s.dmaShape c p d wr e w).1 else []
  at_ (s.dmaSrc p d) false 4 ++ at_ (s.dmaDst p d) true 5

/-- Whether an endpoint names a scratchpad of the device that is not one of the partition's enabled cores (R97). -/
def State.epForeign (s : State) (p : Nat) (e : Ep) : Bool :=
  e.here && e.space = 0 && !(s.granted p (e.base / 2 ^ 21) && (mfind s.cores (e.base / 2 ^ 21)).isSome)

/-- Whether every run of an endpoint is made of whole blocks (R99). -/
def State.chkAligned (s : State) (c p : Nat) (d : Desc) (e : Ep) (w : Nat) : Bool :=
  let a := match s.spotAt c p d.env false e e.base with
    | some (x, _) => x.addr
    | none => e.base
  a % 4096 = 0 && d.f 3 0 24 % 4096 = 0 && (d.f 3 32 16 = 1 || d.f w 0 32 % 4096 = 0) && (d.f 3 48 16 = 1 || d.f w 32 32 % 4096 = 0)

/-- Rules on the body of ops 1 to 6 whose breach is DESC_INVALID (R97, R98, R369). R99 and R103 name no cause for a chk-2
command whose destination is not scratchpad, and for a leaf size that is not allowed: DESC_INVALID is the model's choice
(assumption 66). -/
def State.dmaBad (s : State) (p : Nat) (d : Desc) : Bool :=
  let src := s.dmaSrc p d
  let dst := s.dmaDst p d
  let mc := d.op = 5 || d.op = 6
  let own := if d.f 6 32 1 = 0 then s.ownLnode % 32 else s.ownLnode / 32
  d.f 3 28 4 ≠ 0 || d.f 7 39 25 ≠ 0 || (if mc then d.f 6 33 31 ≠ 0 else d.f 6 32 32 ≠ 0) || d.chk = 3
    || d.f 3 0 24 = 0 || d.f 3 32 16 = 0 || d.f 3 48 16 = 0
    || (d.op ≠ 2 && src.bad (d.f 3 24 1 = 1)) || dst.bad (d.f 3 25 1 = 1) || (d.chk = 2 && dst.space ≠ 0)
    || ((d.op = 3 || d.op = 4) && (d.f 6 0 32 % 4096 ≠ 0 || d.f 6 0 32 < 4096 || 2 ^ 30 < d.f 6 0 32))
    || (mc && (d.f 3 24 1 = 0 || d.f 3 25 1 = 1 || bitAt (d.f 6 0 32) own))

/-- The members of a multicast copy, as logical nodes in ascending coordinate (R345). -/
def State.mcastMembers (s : State) (d : Desc) : List Nat :=
  (maskList 32 (d.f 6 0 32)).map (fun i => if d.f 6 32 1 = 0 then s.ownLnode / 32 * 32 + i else i * 32 + s.ownLnode % 32)

/-- The logical nodes and the partition that a descriptor's packets go to. -/
def State.dmaTargets (s : State) (p : Nat) (d : Desc) : List (Nat × Nat) :=
  let dst := s.dmaDst p d
  if d.op = 5 ∨ d.op = 6 then (s.mcastMembers d).map (fun n => (n, dst.part))
  else
    (if d.op ≠ 2 ∧ !(s.dmaSrc p d).here then [((s.dmaSrc p d).node, (s.dmaSrc p d).part)] else [])
      ++ (if dst.here then [] else [(dst.node, dst.part)])

/-! ## Order within the queue (R257) -/

/-- The blocks of the device's memory that pieces of an endpoint lie in: its own partition's, and another partition's of the
same device. -/
def State.planBlocks (s : State) (e : Option Ep) (ps : List Piece) : List (Loc × Nat) :=
  ps.filterMap (fun x => match x.spot, e with
    | .mem l a, _ => some (l, a / 4096)
    | .far o, some e => if !s.noLogical ∧ e.node = s.ownLnode then (s.spaceLoc e.part e.space o 1).map (fun (l, a) => (l, a / 4096)) else none
    | _, _ => none)

/-! ## Gathering -/

/-- Key of the check value that came for the block at a position, and for a host block. -/
def posKey (pos : Nat) : Nat := 2 * pos
/-- Key of a host block's entry. -/
def hostKey (blk : Nat) : Nat := 2 * blk + 1

/-- What a failed descriptor leaves where it was to write on the device (R221). -/
def State.spoil (s : State) (ps : List Piece) : State :=
  (memLocs ps).foldl (fun t l => t.writeFree l (memSpans l ps)) s

/-- Read the local pieces: storage errors, then verification under chk 0 and 1 (R202, R214, R220, R236): a cause. -/
def State.checkLocal (s : State) (c : Nat) (verify : Bool) (ps : List Piece) (us : List Upset) : State × Option Nat :=
  (memLocs ps).foldl (fun (t, cause) l =>
    match cause with
    | some _ => (t, cause)
    | none =>
      let (t1, h) := t.upsets l (memSpans l ps) us
      if h ≠ .none then (t1, some (if l = .spm c then hurtCause h else cCrc))
      else if verify ∧ t1.mismatch l (memSpans l ps) then (t1, some cCrc)
      else (t1, none)) (s, none)

/-- The bytes of the local pieces, by position, and whether a transfer was lost. -/
def State.readLocal (s : State) (ps : List Piece) : State × Mem × Bool :=
  ps.foldl (fun (t, m, bad) x => match x.spot with
    | .mem l a =>
      let (t1, bs, b) := t.readSpan l a x.len
      (t1, memWrite m x.pos bs, bad || b)
    | _ => (t, m, bad)) (s, [], false)

/-- Check values and states of whole local source blocks, by position (R219). -/
def State.localChks (s : State) (ps : List Piece) : SMap Blk :=
  ps.foldl (fun m x => match x.spot with
    | .mem l a => if a % 4096 = 0 ∧ x.len = 4096 then mset m (posKey x.pos) (s.blkOf l (a / 4096)) else m
    | _ => m) []

/-! ## Writing -/

/-- The bytes that a descriptor writes, by position: gathered, a pattern, or digests (R97, R103). -/
def dmaBytes (d : Desc) (pl : DmaPlan) (buf : Mem) : Nat → Nat → List Byte :=
  if d.op = 2 then fun pos n => (List.range n).map (fun i => BitVec.ofNat 8 (d.f 6 0 32 / 256 ^ ((pos + i) % 4)))
  else if d.op = 3 ∨ d.op = 4 then
    let v := d.f 6 0 32
    let k := digestLen d pl.total pl.bad / 32 - (if d.op = 4 ∧ !pl.bad then 1 else 0)
    let leaves := (List.range k).flatMap (fun i => sha256 (memRead buf (i * v) (min v (pl.total - i * v))))
    let out := if d.op = 4 ∧ !pl.bad then leaves ++ sha256 leaves else leaves
    fun pos n => (out.drop pos).take n
  else fun pos n => memRead buf pos n

/-- The check value and state that travel with the source block at a position (R219, R222). -/
def carried (pl : DmaPlan) (chks : SMap Blk) (pos : Nat) : Blk :=
  match mfind chks (posKey pos) with
  | some b => b
  | none => match pl.src.find? (fun x => x.pos = pos) with
    | some ⟨.host a, _, _⟩ => mget chks (hostKey (a / 4096)) ⟨0, false⟩
    | _ => ⟨0, false⟩

/-- The check value that goes with a whole 4 KiB block written elsewhere: carried, generated, or none (R99, R217). -/
def blockCheck (d : Desc) (pl : DmaPlan) (chks : SMap Blk) (pos : Nat) (bs : List Byte) : Option Blk :=
  if d.chk = 0 ∧ (d.op = 1 ∨ d.op = 5 ∨ d.op = 6) then some (carried pl chks pos)
  else if d.chk = 1 ∧ d.op ≠ 2 ∨ (d.op = 2 ∧ d.chk ≠ 2) then some ⟨BitVec.ofNat 32 (crc32c bs), true⟩
  else none

/-- The address of a place as a space and an offset of its partition (R96). -/
def locOffset : Loc → Nat → Nat × Nat
  | .spm c, a => (0, c * 2 ^ 21 + a)
  | .lls d _, a => (1, d * 2 ^ 27 + a)
  | .hbm _, a => (2, a)

/-- A local flagged packet that may not be written yet waits among the held ones, or at the X-die when 16 are held
(R268, R269). -/
def State.holdLocal (s : State) (c p id : Nat) (d : Desc) (l : Loc) (a : Nat) (bs : List Byte) (b : Option Blk) : State :=
  let (s1, tag) := (s.modAct c id (fun x => { x with left := x.left + 1 })).openXfer (.dmaWrite c id) p s.ownLnode 1
  let (space, off) := locOffset l a
  let whole := bs.length = 4096 ∧ a % 4096 = 0 ∧ b.isSome
  let pkt := { requestPkt p c d.thread tag 8 s.ownNode p space off bs with
    srcNode := s.ownNode, srcLnode := s.ownLnode, flagged := true, rx := d.f 7 33 6, flagCount := d.f 7 0 32, chk := whole,
    valid := whole && (b.getD ⟨0, false⟩).valid, check := if whole then (b.getD ⟨0, false⟩).check.toNat else 0 }
  let n := flitsOf pkt.length
  if (s1.heldPkts p).length < 16 then s1.modPart p (fun q => { q with held := q.held ++ [⟨none, 3, n, n, pkt⟩] })
  else s1.arriveOwn 3 pkt

/-- Write the local pieces; a write that was not performed ends in CRC_BLOCK (R236). -/
def State.writeLocal (s : State) (d : Desc) (pl : DmaPlan) (chks : SMap Blk) (bytes : Nat → Nat → List Byte) (ps : List Piece)
    (us : List Upset) : State × Bool :=
  let (s1, bad) := ps.foldl (fun (t, bad) x => match x.spot with
    | .mem l a =>
      let bs := bytes x.pos x.len
      let (t1, b) := (t.preWrite l a x.len us).writeSpan l a bs
      (if d.chk = 0 ∧ d.op = 1 ∧ !b then t1.sealBlk l (a / 4096) (carried pl chks x.pos) else t1, bad || b)
    | _ => (t, bad)) (s, false)
  if (d.chk = 1 ∧ d.op ≠ 2) ∨ (d.op = 2 ∧ d.chk ≠ 2) then
    ((memLocs ps).foldl (fun t l => t.generate l (memSpans l ps)) s1, bad)
  else (s1, bad)

/-- Write the host pieces, with the entries of their blocks under chk 0 and chk 1, in the window as it stood at the start
(R222, R432). -/
def State.writeHost (s : State) (p : Nat) (d : Desc) (win : Nat × Nat × Nat) (pl : DmaPlan) (chks : SMap Blk)
    (bytes : Nat → Nat → List Byte) (ps : List Piece) : State :=
  let hs := ps.filterMap (fun x => match x.spot with
    | .host a => some (a, bytes x.pos x.len, x.pos)
    | _ => none)
  let s1 := hs.foldl (fun t (a, bs, _) => t.emit (.hostWrite (p + 1) a bs)) s
  if d.chk = 2 then s1
  else
    let spans := hs.map (fun (a, bs, _) => (a, bs.length))
    let m := hs.foldl (fun m (a, bs, _) => memWrite m a bs) []
    (blocksOf spans).foldl (fun t b => match hchkEntry win (4096 * b) with
      | none => t
      | some e =>
        let pos := ((hs.find? (fun (a, _, _) => a = 4096 * b)).map (fun (_, _, q) => q)).getD 0
        let k := if coversBlock spans b then (blockCheck d pl chks pos (memRead m (4096 * b) 4096)).getD ⟨0, false⟩ else ⟨0, false⟩
        t.emit (.hostWrite (p + 1) e (leBytes 8 (k.check.toNat + b2n k.valid * 2 ^ 32)))) s1

/-- The packet of a piece that goes to another node or partition (R353, R354, R358). -/
def dmaPacket (c p tag : Nat) (d : Desc) (pl : DmaPlan) (chks : SMap Blk) (dst : Ep) (off pos : Nat) (bs : List Byte) (last : Bool) : Pkt :=
  let b := if bs.length = 4096 ∧ off % 4096 = 0 then blockCheck d pl chks pos bs else none
  { requestPkt p c d.thread tag (if d.op = 6 then 0x18 else 8) dst.node dst.part dst.space off bs with
    flagged := last && d.f 7 32 1 = 1, rx := d.f 7 33 6, flagCount := d.f 7 0 32, chk := b.isSome,
    valid := (b.getD ⟨0, false⟩).valid, check := (b.getD ⟨0, false⟩).check.toNat }

/-- Send the pieces that go to other nodes or partitions under one tag (R354, R358, R369). -/
def State.sendPieces (s : State) (c p id : Nat) (d : Desc) (pl : DmaPlan) (chks : SMap Blk) (bytes : Nat → Nat → List Byte) : State :=
  let dst := s.dmaDst p d
  let fs := pl.dst.filterMap (fun x => match x.spot with
    | .far o => some (o, x)
    | _ => none)
  let members := s.mcastMembers d
  let mc := d.op = 5 ∨ d.op = 6
  let n := if mc then fs.length * members.length else fs.length
  if n = 0 then s
  else
    let (s1, tag) := (s.modAct c id (fun a => { a with left := a.left + n })).openXfer (.dmaWrite c id) p dst.node n
    let vc := if d.op = 6 then 4 else if d.op = 5 then 3
      else if bitAt (s.fld (.partRmtCtl p) PartRmtCtl.bulk) (d.f 7 33 6) then 6 else 3
    let lastPos := ((fs.getLast?).map (fun (_, x) => x.pos)).getD 0
    fs.foldl (fun t (o, x) =>
      let pkt := dmaPacket c p tag d pl chks dst o x.pos (bytes x.pos x.len) (x.pos = lastPos && !pl.bad)
      if mc then t.multicast vc members pkt else t.inject vc pkt) s1

/-- Everything is gathered: write, count, send, and stop with BOUND where the plan does (R100, R101, R266). -/
def State.dmaSend (s : State) (c p id : Nat) (d : Desc) (us : List Upset) : State :=
  match s.act c id with
  | none => s
  | some act =>
    let pl := s.dmaPlan c p d
    let bytes := dmaBytes d pl act.buf
    let s0 := s.modAct c id (fun a => { a with phase := 1 })
    let held := match pl.dst.getLast? with
      | some x => (match x.spot with
        | .mem l a => if d.f 7 32 1 = 1 ∧ !pl.bad ∧ l ≠ Loc.spm c
              ∧ ((s.heldPkts p).length ≥ 16 ∨ s.mustHold p (d.f 7 33 6) (d.f 7 0 32)) then some (l, a, x) else none
        | _ => none)
      | none => none
    let now := if held.isSome then pl.dst.dropLast else pl.dst
    let (s1, lost) := s0.writeLocal d pl act.chks bytes now us
    if lost then s1.failAct c id cCrc
    else
      let s2 := now.foldl (fun t x => match x.spot with
        | .mem l _ => if l = .spm c then t else t.rxCount p (d.f 7 33 6) x.len
        | _ => t) s1
      let s3 := match held with
        | none => s2
        | some (l, a, x) => s2.holdLocal c p id d l a (bytes x.pos x.len) (blockCheck d pl act.chks x.pos (bytes x.pos x.len))
      let s4 := (s3.writeHost p d act.win pl act.chks bytes now).sendPieces c p id d pl act.chks bytes
      if pl.bad then s4.failAct c id cBound else s4

/-- The last byte from elsewhere has come: verify what came whole, then write (R220, R222, R354). -/
def State.dmaGathered (s : State) (c p id : Nat) (d : Desc) (us : List Upset) : State :=
  match s.act c id with
  | none => s
  | some act =>
    let pl := s.dmaPlan c p d
    let hs := hostSpans pl.src
    let m := pl.src.foldl (fun m x => match x.spot with
      | .host a => memWrite m a (memRead act.buf x.pos x.len)
      | _ => m) []
    let badFar := pl.src.any (fun x => match x.spot with
      | .far _ =>
        let b := mget act.chks (posKey x.pos) ⟨0, false⟩
        b.valid && crc32c (memRead act.buf x.pos 4096) != b.check.toNat
      | _ => false)
    let badHost := (blocksOf hs).any (fun k =>
      let b := mget act.chks (hostKey k) ⟨0, false⟩
      b.valid && coversBlock hs k && crc32c (memRead m (4096 * k) 4096) != b.check.toNat)
    if d.chk ≠ 2 ∧ (badFar ∨ badHost) then (s.spoil pl.dst).failAct c id cCrc else s.dmaSend c p id d us

/-- Ask for the pieces that lie elsewhere (R222, R354, R433). -/
def State.askPieces (s : State) (c p id : Nat) (d : Desc) (pl : DmaPlan) (us : List Upset) : State :=
  let src := s.dmaSrc p d
  let hs := hostSpans pl.src
  let ents := if d.chk = 2 ∨ d.op = 2 then [] else (blocksOf hs).filterMap (fun b =>
    if coversBlock hs b then (hchkEntry (s.hchkWin p) (4096 * b)).map (fun e => (b, e)) else none)
  let n := ents.length + (pl.src.filter (fun x => match x.spot with
    | .mem _ _ => false
    | _ => true)).length
  if n = 0 then s.dmaSend c p id d us
  else
    let s1 := s.modAct c id (fun a => { a with left := n })
    let s2 := ents.foldl (fun t (b, e) => t.hostAsk (p + 1) e 8 (.dmaCheck c id b)) s1
    pl.src.foldl (fun t x => match x.spot with
      | .host a => t.hostAsk (p + 1) a x.len (.dma c id x.pos)
      | .far o =>
        let (t1, tag) := t.openXfer (.dmaRead c id x.pos) p src.node 1
        t1.inject 1 (requestPkt p c d.thread tag 0 src.node src.part src.space o (leBytes 16 x.len))
      | .mem _ _ => t) s2

/-- Start a descriptor of ops 1 to 6 whose head has been popped. The alignment rule of R99 is held to the runs of R98: the
digests that ops 3 and 4 write are no such runs, and their destination is free of it (assumption 66). -/
def State.dmaRun (s : State) (c p : Nat) (d : Desc) (us : List Upset) : State :=
  let src := s.dmaSrc p d
  let dst := s.dmaDst p d
  let pl := s.dmaPlan c p d
  let shaped := d.op = 1 ∨ d.op = 5 ∨ d.op = 6
  let host := (d.op ≠ 2 ∧ src.space = 3) ∨ dst.space = 3
  let targets := s.dmaTargets p d
  if s.dmaBad p d then s.descFault c d cDesc
  else if (d.op ≠ 2 ∧ s.epForeign p src) ∨ s.epForeign p dst then s.descFault c d cBound
  else if d.chk = 0 ∧ ((d.op ≠ 2 ∧ !s.chkAligned c p d src 4) ∨ ((shaped ∨ d.op = 2) ∧ !s.chkAligned c p d dst 5)) then
    s.descFault c d cMisalign
  else if d.chk = 0 ∧ shaped ∧ (s.hostShape c p d).any (fun (a, _) => (hchkEntry (s.hchkWin p) a).isNone) then s.descFault c d cDesc
  else if host ∧ !s.host.busMaster.getLsbD (p + 1) then
    (s.hostErr (p + 1) 0 (if dst.space = 3 then dst.base else src.base)).descFault c d cBound
  else match (if s.injectStopped p then none else targets.find? (fun (n, q) => match s.mayInject p n q with
      | .inl _ => false
      | .inr _ => true)) with
    | some (n, q) =>
      (s.refuseSource p q (s.xlate n).isSome).coreFault c cNode
        { thread := d.thread, engine := 2, tag := d.tag, pc := d.pc, node := n }
    | none =>
      let id := s.freshId c
      let s0 := (s.addAct c 2 d 0 0).modAct c id (fun a => { a with win := s.hchkWin p })
      let (s1, cause) := s0.checkLocal c (d.chk ≠ 2) pl.src us
      match cause with
      | some x => (s1.spoil pl.dst).failAct c id x
      | none =>
        let (s2, m, lost) := s1.readLocal pl.src
        if lost then (s2.spoil pl.dst).failAct c id cCrc
        else
          let chks := if d.chk = 0 then s2.localChks pl.src else []
          let s3 := s2.modAct c id (fun a => { a with buf := m, chks := chks })
          if pl.src.any (fun x => match x.spot with
            | .mem _ _ => false
            | _ => true) then s3.askPieces c p id d pl us else s3.dmaSend c p id d us

end Sys2Proof.Machine
end

