-- ==== Sys2Proof/Machine/Coll.lean ====
section
/-! DEFINITION. The collective engine (R370 to R381), the start of every DMA descriptor (R88, R89, R257), completion
(R90, R100, R376), and the answers that come back to a requester (R353, R356, R357, R502). -/
namespace Sys2Proof.Machine

/-! ## Body, table and sizes -/

/-- Whether a descriptor is a collective (R370). -/
def Desc.isColl (d : Desc) : Bool := d.op = 0x10 || d.op = 0x11 || d.op = 0x12
/-- Own member index s. -/
def Desc.cS (d : Desc) : Nat := d.f 3 32 10
/-- Members M. -/
def Desc.cM (d : Desc) : Nat := d.f 3 42 11
/-- Whether chunk sizes come from the count array. -/
def Desc.cUneven (d : Desc) : Bool := d.f 3 30 1 = 1
/-- Receive counter of the operation. -/
def Desc.cRx (d : Desc) : Nat := d.f 3 53 6
/-- x rounded up to a multiple of 4,096 (R373). -/
def roundBlk (x : Nat) : Nat := (x + 4095) / 4096 * 4096
/-- Bytes of an element of R372. -/
def collElemSize (etype : Nat) : Nat := [4, 2, 4, 8, 16].getD etype 1

/-- `n` bytes at an offset of the issuing core's scratchpad. -/
def State.ownBytes (s : State) (c : Nat) (d : Desc) (o n : Nat) : List Byte :=
  match mfind s.cores c with
  | none => []
  | some k => memRead k.spm (envAt d.env 0 + o) n

/-- The member table: buffer address and count-array address of each member (R371). -/
def State.collTable (s : State) (c : Nat) (d : Desc) : List (BitVec 64 × BitVec 64) :=
  let ws := toWords (2 * d.cM) (s.ownBytes c d (d.f 4 0 21) (16 * d.cM))
  (List.range d.cM).map (fun i => (ws.getD (2 * i) 0, ws.getD (2 * i + 1) 0))

/-- The chunk sizes (R373). -/
def State.collSizes (s : State) (c : Nat) (d : Desc) : List Nat :=
  if d.cUneven then
    let ws := toWords (2 * d.cM) (s.ownBytes c d (d.f 4 21 21) (16 * d.cM))
    (List.range d.cM).map (fun i => wbits (ws.getD (2 * i) 0) 32 32)
  else List.replicate d.cM (d.f 3 0 24)

/-- Whether the count array is this operation's (R377). -/
def State.countsOk (s : State) (c : Nat) (d : Desc) : Bool :=
  let ws := toWords (2 * d.cM) (s.ownBytes c d (d.f 4 21 21) (16 * d.cM))
  (List.range d.cM).all (fun i => wbits (ws.getD (2 * i) 0) 0 10 = i && wbits (ws.getD (2 * i + 1) 0) 0 32 = d.f 5 32 32)

/-- off_d (R373). -/
def collOff (sizes : List Nat) (k : Nat) : Nat := ((sizes.take k).map roundBlk).sum
/-- Size of chunk `k`. -/
def chunk (sizes : List Nat) (k : Nat) : Nat := sizes.getD k 0

/-- Offset of chunk `k` within src (R373). -/
def Desc.cSrcOff (d : Desc) (sizes : List Nat) (k : Nat) : Nat :=
  if d.op = 0x11 then 0 else if d.cUneven then collOff sizes k else k * roundBlk (chunk sizes k)
/-- Size of the chunk that goes to member `k`. -/
def Desc.cSize (d : Desc) (sizes : List Nat) (k : Nat) : Nat := chunk sizes (if d.op = 0x11 then d.cS else k)
/-- Offset of the contribution within member `k`'s buffer (R373). -/
def Desc.cDstOff (d : Desc) (sizes : List Nat) (k : Nat) : Nat :=
  if d.op = 0x11 ∧ d.cUneven then collOff sizes d.cS else d.cS * roundBlk (d.cSize sizes k)

/-- The source and result endpoints, in local form. -/
def State.collSrc (s : State) (p : Nat) (d : Desc) : Ep := s.epOf p (d.w 1) true
/-- The result of a reduce-scatter. -/
def State.collDst (s : State) (p : Nat) (d : Desc) : Ep := s.epOf p (d.w 2) true

/-- Whether `n` bytes at offset `o` of an endpoint lie within its space. -/
def State.fits (s : State) (c p : Nat) (d : Desc) (e : Ep) (o n : Nat) : Bool :=
  n = 0 || match s.spotAt c p d.env false e ((e.base + o : Nat) : Int) with
    | some (_, room) => n ≤ room
    | none => false

/-- A breach of R370, R371, R373, R377 or R378. -/
def State.collBad (s : State) (c p : Nat) (d : Desc) : Bool :=
  let etype := d.f 3 24 4
  let rop := d.f 3 28 2
  let tab := s.collTable c d
  let sizes := s.collSizes c d
  let rs := d.op = 0x10
  let okAddr (w : BitVec 64) : Bool := wbits w 0 12 = 0 && wbits w 46 3 ≤ 2
  let own (w : BitVec 64) : Bool := !s.noLogical && wbits w 54 10 = s.ownLnode && wbits w 49 5 = p
  d.f 3 31 1 ≠ 0 || d.f 3 59 5 ≠ 0 || d.f 4 42 22 ≠ 0 || d.w 6 ≠ 0 || d.w 7 ≠ 0
    || rop = 3 || (if rs then 4 < etype || (etype = 4 && rop ≠ 0) else etype ≠ 0)
    || (!rs && d.w 2 ≠ 0) || (d.op = 0x12 && d.w 1 ≠ 0) || (d.cUneven && d.f 3 0 24 ≠ 0)
    || d.cM ≤ d.cS || 1024 < d.cM || d.f 4 0 21 % 128 ≠ 0
    || tab.any (fun (a, b) => !okAddr a || !okAddr b)
    || !own (tab.getD d.cS (0, 0)).1 || !own (tab.getD d.cS (0, 0)).2
    || (d.cUneven && !s.countsOk c d)
    || (rs && sizes.any (fun n => n % collElemSize etype ≠ 0))
    || (d.op ≠ 0x12 && ((s.collSrc p d).space = 3 || (s.collSrc p d).bad true
      || (List.range d.cM).any (fun k => !s.fits c p d (s.collSrc p d) (d.cSrcOff sizes k) (d.cSize sizes k))))
    || (rs && ((s.collDst p d).space = 3 || (s.collDst p d).bad true || !s.fits c p d (s.collDst p d) 0 (chunk sizes d.cS)))

/-- The value that the counter must reach (R375, R377), with the chunk sizes found at the start. -/
def Desc.collThreshold (d : Desc) (sizes : List Nat) : Nat :=
  d.f 5 0 32 + (if d.op = 0x12 then 16 * d.cM else if d.op = 0x11 then sizes.sum else d.cM * chunk sizes d.cS)

/-- Whether the counter of a collective has reached its threshold. -/
def State.collReached (s : State) (p : Nat) (a : Act) : Bool := reached (s.rxLow p a.desc.cRx) (a.desc.collThreshold a.sizes % 2 ^ 32)

/-- The pieces of src that a collective reads: chunk by chunk. -/
def State.collPieces (s : State) (c p : Nat) (d : Desc) (sizes : List Nat) : List Piece :=
  let e := s.collSrc p d
  let ks := if d.op = 0x12 then [] else if d.op = 0x11 then [d.cS] else List.range d.cM
  ks.flatMap (fun k => (walkRun (s.spotAt c p d.env false e) (d.cSize sizes k + 1) ((e.base + d.cSrcOff sizes k : Nat) : Int)
    (d.cSize sizes k) 0).1)

/-- The pieces of the result of a reduce-scatter. -/
def State.resultPieces (s : State) (c p : Nat) (d : Desc) (sizes : List Nat) (wr : Bool) : List Piece × Bool :=
  if d.op ≠ 0x10 then ([], false)
  else
    let n := chunk sizes d.cS
    walkRun (s.spotAt c p d.env wr (s.collDst p d)) (n + 1) (((s.collDst p d).base : Nat) : Int) n 0

/-! ## Start -/

/-- The blocks of `n` bytes at an offset of a global address, when it names this device. -/
def State.addrBlocks (s : State) (w : BitVec 64) (o n : Nat) : List (Loc × Nat) :=
  if s.noLogical ∨ wbits w 54 10 ≠ s.ownLnode then []
  else match s.spaceLoc (wbits w 49 5) (wbits w 46 3) (wbits w 0 46 + o) n with
    | none => []
    | some (l, a) => (blocksOf [(a, n)]).map (fun b => (l, b))

/-- The blocks of the device that a collective reads and writes: its source, the slots that a reduction reads, the result, and
what it sends to members on the device. -/
def State.collBlocks (s : State) (c p : Nat) (d : Desc) (sizes : List Nat) (tab : List (BitVec 64 × BitVec 64)) :
    List (Loc × Nat) × List (Loc × Nat) :=
  let slots := if d.op = 0x10 then (List.range d.cM).flatMap (fun j =>
    s.addrBlocks (tab.getD d.cS (0, 0)).1 (j * roundBlk (chunk sizes d.cS)) (chunk sizes d.cS)) else []
  let sent := (List.range d.cM).flatMap (fun k =>
    if d.op = 0x12 then s.addrBlocks (tab.getD k (0, 0)).2 (16 * d.cS) 16
    else s.addrBlocks (tab.getD k (0, 0)).1 (d.cDstOff sizes k) (d.cSize sizes k))
  (s.planBlocks none (s.collPieces c p d sizes) ++ slots, s.planBlocks none (s.resultPieces c p d sizes false).1 ++ sent)

/-- The blocks of the device that a DMA descriptor reads and writes (R257). -/
def State.dmaBlocks (s : State) (c p : Nat) (d : Desc) (sizes : List Nat) (tab : List (BitVec 64 × BitVec 64)) :
    List (Loc × Nat) × List (Loc × Nat) :=
  if d.isColl then s.collBlocks c p d sizes tab
  else
    let pl := s.dmaPlan c p d
    (s.planBlocks (some (s.dmaSrc p d)) pl.src,
     s.planBlocks (if d.op = 5 ∨ d.op = 6 then none else some (s.dmaDst p d)) pl.dst)

/-- Whether an earlier descriptor in progress writes a block that this one accesses, or reads one that it writes (R257). -/
def State.dmaConflict (s : State) (c p : Nat) (d : Desc) : Bool :=
  let (r, w) := s.dmaBlocks c p d (s.collSizes c d) (s.collTable c d)
  (s.actsOf c 2).any (fun a =>
    let (r', w') := s.dmaBlocks c p a.desc a.sizes a.table
    r.any (fun b => w'.contains b) || w.any (fun b => w'.contains b || r'.contains b))

/-- Collective contexts of a partition in use (R380). -/
def State.collBusy (s : State) (p : Nat) : Nat :=
  ((s.coresOf p).map (fun c => ((s.actsOf c 2).filter (fun a => a.desc.isColl)).length)).sum

/-- The head of the DMA queue starts as operation `op` (R88, R89, R257, R370, R380). -/
def State.startDma (s : State) (c op : Nat) (eff : State → Nat → Desc → State) : State :=
  match s.head c 2 with
  | none => s
  | some (p, d) =>
    if d.op ≠ op then (if (knownOps 2).contains d.op then s else (s.popHead c 2 d).descFault c d cDesc)
    else if (s.actsOf c 2).length ≥ 8 ∨ s.dmaConflict c p d then s
    else if d.isColl ∧ (s.collBusy p ≥ 2 ∨ (s.actsOf c 2).any (fun a => a.desc.isColl)) then s
    else eff (s.popHead c 2 d) p d

/-- COPY (R97 to R101). -/
def execCopy (c : Nat) (u : List Upset) (s : State) : Host.Outcome State Fault Refusal :=
  commit s (Instr.wf (.copy c u)) (s.startDma c 1 (fun t p d => t.dmaRun c p d u))
/-- FILL (R97). -/
def execFill (c : Nat) (u : List Upset) (s : State) : Host.Outcome State Fault Refusal :=
  commit s (Instr.wf (.fill c u)) (s.startDma c 2 (fun t p d => t.dmaRun c p d u))
/-- DIGEST (R103). -/
def execDigest (c : Nat) (u : List Upset) (s : State) : Host.Outcome State Fault Refusal :=
  commit s (Instr.wf (.digest c u)) (s.startDma c 3 (fun t p d => t.dmaRun c p d u))
/-- DIGEST_WITH_ROOT (R103). -/
def execDigestWithRoot (c : Nat) (u : List Upset) (s : State) : Host.Outcome State Fault Refusal :=
  commit s (Instr.wf (.digestWithRoot c u)) (s.startDma c 4 (fun t p d => t.dmaRun c p d u))
/-- MCAST_PUT (R346, R369). -/
def execMcastPut (c : Nat) (u : List Upset) (s : State) : Host.Outcome State Fault Refusal :=
  commit s (Instr.wf (.mcastPut c u)) (s.startDma c 5 (fun t p d => t.dmaRun c p d u))
/-- MCAST_COLL (R346, R369). -/
def execMcastColl (c : Nat) (u : List Upset) (s : State) : Host.Outcome State Fault Refusal :=
  commit s (Instr.wf (.mcastColl c u)) (s.startDma c 6 (fun t p d => t.dmaRun c p d u))

/-! ## Collectives -/

/-- The members in the order of R374: s + 1, ..., M - 1, 0, ..., s. -/
def Desc.cOrder (d : Desc) : List Nat := (List.range d.cM).map (fun i => (d.cS + 1 + i) % d.cM)

/-- A packet of a collective to member `k`, whose address word is `w`, at offset `o` of the buffer it names. -/
def collPacket (c p tag : Nat) (d : Desc) (op : Nat) (w : BitVec 64) (o : Nat) (bs : List Byte) (b : Option Blk) : Pkt :=
  { requestPkt p c d.thread tag op (wbits w 54 10) (wbits w 49 5) (wbits w 46 3) ((wbits w 0 46 + o) % 2 ^ 46) bs with
    rx := d.cRx, chk := b.isSome, valid := (b.getD ⟨0, false⟩).valid, check := (b.getD ⟨0, false⟩).check.toNat }

/-- Block `i` of the chunk for member `k`: its bytes, for a whole aligned source block its check value (R379), and whether a
transfer of it was lost (R236). -/
def State.collBlock (s : State) (c p : Nat) (d : Desc) (sizes : List Nat) (k i : Nat) : State × List Byte × Option Blk × Bool :=
  let n := min 4096 (d.cSize sizes k - 4096 * i)
  let e := s.collSrc p d
  let (ps, _) := walkRun (s.spotAt c p d.env false e) (n + 1) ((e.base + d.cSrcOff sizes k + 4096 * i : Nat) : Int) n 0
  let (s1, m, lost) := s.readLocal ps
  (s1, memRead m 0 n, match ps with
    | [⟨.mem l a, 4096, _⟩] => if a % 4096 = 0 then some (s1.blkOf l (a / 4096)) else none
    | _ => none, lost)

/-- Open one entry per member that gets packets: the tags by member. -/
def State.collTags (s : State) (c p id : Nat) (d : Desc) (tab : List (BitVec 64 × BitVec 64)) (count : Nat → Nat) : State × SMap Nat :=
  (List.range d.cM).foldl (fun (t, tags) k =>
    if count k = 0 then (t, tags)
    else
      let (t1, tag) := t.openXfer (.dmaWrite c id) p (wbits (tab.getD k (0, 0)).1 54 10) (count k)
      (t1, mset tags k tag)) (s, [])

/-- The scratchpad bytes that a collective's tables take (R371, R373). -/
def Desc.cTables (d : Desc) : List Span :=
  (d.f 4 0 21, 16 * d.cM) :: (if d.cUneven then [(d.f 4 21 21, 16 * d.cM)] else [])

/-- Send one block of a collective to the members of a list under their tags. -/
def State.collSend (s : State) (c p : Nat) (d : Desc) (a : Act) (tags : SMap Nat) (i : Nat) (ks : List Nat) (bs : List Byte)
    (b : Option Blk) : State :=
  ks.foldl (fun t k => t.inject 4 (collPacket c p (mget tags k 0) d 0x18 (a.table.getD k (0, 0)).1
    (d.cDstOff a.sizes k + 4096 * i) bs b)) s

/-- The contribution of a collective, block by block (R374): an all-gather reads each block once and sends it to every member,
a reduce-scatter has a block of its own for each. A read that lost a transfer ends it; whether one did, and the blocks sent to
each member. -/
def State.collContribute (s : State) (c p : Nat) (d : Desc) (a : Act) (tags : SMap Nat) (blocks : Nat) : State × SMap Nat × Bool :=
  let groups := if d.op = 0x11 then [d.cOrder] else d.cOrder.map (fun k => [k])
  ((List.range blocks).flatMap (fun i => groups.map (fun g => (i, g)))).foldl (fun (t, sent, lost) (i, g) =>
    let k := g.headD 0
    if lost ∨ d.cSize a.sizes k ≤ 4096 * i then (t, sent, lost)
    else
      let (t1, bs, b, bad) := t.collBlock c p d a.sizes k i
      if bad then (t1, sent, true)
      else (t1.collSend c p d a tags i g bs b, g.foldl (fun m k => mset m k (mget m k 0 + 1)) sent, false)) (s, [], false)

/-- Start a collective whose head has been popped (R370, R374, R377 to R379). A row lost as its tables are read halts the core
with ENGINE_HW (R202). -/
def State.collRun (s : State) (c p : Nat) (d : Desc) (us : List Upset) : State :=
  let (s, hurt) := if inEnv d d.cTables then s.upsets (.spm c) (relSpans d d.cTables) us else (s, .none)
  if !inEnv d d.cTables then s.descFault c d cBound
  else if hurt ≠ .none then s.descFault c d cHw
  else if s.isRetired c then s
  else if s.collBad c p d then s.descFault c d cDesc
  else
    let tab := s.collTable c d
    let sizes := s.collSizes c d
    let counts := d.op = 0x12
    let packets (k : Nat) : Nat := if counts then 1 else (d.cSize sizes k + 4095) / 4096
    let id := s.freshId c
    let s0 := (s.addAct c 2 d ((List.range d.cM).map packets).sum 1).modAct c id (fun a => { a with sizes := sizes, table := tab })
    let (s1, cause) := s0.checkLocal c false (s.collPieces c p d sizes) us
    match cause with
    | some x => (s1.modAct c id (fun a => { a with left := 0 })).failAct c id x
    | none =>
      let (s2, tags) := s1.collTags c p id d tab packets
      if counts then
        d.cOrder.foldl (fun t k => t.inject 4 (collPacket c p (mget tags k 0) d 0x19 (tab.getD k (0, 0)).2 (16 * d.cS)
          (leBytes 4 d.cS ++ leBytes 4 (d.f 3 0 24) ++ leBytes 4 (d.f 5 32 32) ++ leBytes 4 0) none)) s2
      else
        match s2.act c id with
        | none => s2
        | some a =>
          let (s3, sent, lost) := s2.collContribute c p d a tags (((List.range d.cM).map packets).foldl max 0)
          if !lost then s3
          else ((List.range d.cM).foldl (fun t k => t.countXfer (mget tags k 0) (packets k - mget sent k 0)) s3).failAct c id cCrc

/-- REDUCE_SCATTER (R370, R374). -/
def execReduceScatter (c : Nat) (u : List Upset) (s : State) : Host.Outcome State Fault Refusal :=
  commit s (Instr.wf (.reduceScatter c u)) (s.startDma c 0x10 (fun t p d => t.collRun c p d u))
/-- ALL_GATHER (R370, R374). -/
def execAllGather (c : Nat) (u : List Upset) (s : State) : Host.Outcome State Fault Refusal :=
  commit s (Instr.wf (.allGather c u)) (s.startDma c 0x11 (fun t p d => t.collRun c p d u))
/-- COUNTS (R370, R377). -/
def execCounts (c : Nat) (u : List Upset) (s : State) : Host.Outcome State Fault Refusal :=
  commit s (Instr.wf (.counts c u)) (s.startDma c 0x12 (fun t p d => t.collRun c p d u))

/-- One element of a reduction, the members' codes in ascending order (R372). -/
def collElem (etype rop : Nat) (xs : List Nat) : Nat :=
  let pick (f : Nat → Nat → Nat) : List Nat → Nat
    | [] => 0
    | x :: r => r.foldl f x
  let flo (ys : List Nat) : Nat := if rop = 0 then pick fadd ys else if rop = 1 then ys.foldl fmax (ys.headD 0) else ys.foldl fmin (ys.headD 0)
  let int (w : Nat) : Nat :=
    if rop = 0 then xs.sum % 2 ^ w
    else if rop = 1 then pick (fun a b => if signed w a < signed w b then b else a) xs
    else pick (fun a b => if signed w b < signed w a then b else a) xs
  if etype = 0 then canon32 (flo xs)
  else if etype = 1 then
    (let v := flo (xs.map (· * 65536))
     if rop = 0 then fBf16.encode .near (ofF32 v) else v / 65536)
  else if etype = 2 then int 32
  else if etype = 3 then int 64
  else match xs with
    | [] => 0
    | x :: r => (r.foldl (fun a y => a.addLp (Acc.ofLp y)) (Acc.ofLp x)).toLp

/-- Combine the M slots, element by element; none when long partials of both classes meet (R372, R378). -/
def collCombine (etype rop n : Nat) (slots : List (List Byte)) : Option (List Byte) :=
  let z := collElemSize etype
  let elems := (List.range (n / z)).map (fun i => slots.map (fun b => leNat ((b.drop (z * i)).take z)))
  if etype = 4 ∧ elems.any (fun xs => xs.any (fun x => bitAt x 126 != bitAt (xs.headD 0) 126)) then none
  else some (elems.flatMap (fun xs => leBytes z (collElem etype rop xs)))

/-- REDUCE_SCATTER_COMBINE: once the counter has reached its threshold, the M slots are combined and the result written
(R372, R375, R379). -/
def execReduceScatterCombine (c k : Nat) (u : List Upset) (s : State) : Host.Outcome State Fault Refusal :=
  commit s (Instr.wf (.reduceScatterCombine c k u)) (match (s.actsOf c 2)[k]?, s.ownerOf c with
    | some a, some p =>
      let d := a.desc
      if d.op ≠ 0x10 ∨ a.phase ≠ 1 ∨ a.failed ∨ !s.collReached p a then s
      else
        let n := chunk a.sizes d.cS
        let w := (a.table.getD d.cS (0, 0)).1
        let places := (List.range d.cM).map (fun j => s.spaceLoc p (wbits w 46 3) (wbits w 0 46 + j * roundBlk n) n)
        let pieces := (places.map (fun x => match x with
          | some (l, a) => (cutAt 4096 (n + 1) a n).map (fun (y, m) => (⟨.mem l y, m, 0⟩ : Piece))
          | none => [])).flatten
        let (out, bad) := s.resultPieces c p d a.sizes true
        let (s1, cause) := (s.modAct c a.id (fun a => { a with phase := 2 })).checkLocal c true pieces u
        match cause with
        | some x => (s1.spoil out).failAct c a.id x
        | none =>
          let (s2, slots, lost) := places.foldl (fun (t, acc, lost) x => match x with
            | some (l, a) => let (t1, bs, b) := t.readSpan l a n
                             (t1, acc ++ [bs], lost || b)
            | none => (t, acc ++ [List.replicate n 0], lost)) (s1, [], false)
          if lost then (s2.spoil out).failAct c a.id cCrc
          else match collCombine (d.f 3 24 4) (d.f 3 28 2) n slots with
          | none => (s2.spoil out).failAct c a.id cDesc
          | some bs =>
            let (s3, lost) := out.foldl (fun (t, lost) x => match x.spot with
              | .mem l y => let (t1, b) := (t.preWrite l y x.len u).writeSpan l y ((bs.drop x.pos).take x.len)
                            (t1, lost || b)
              | _ => (t, lost)) (s2, false)
            let s4 := (memLocs out).foldl (fun t l => t.generate l (memSpans l out)) s3
            if lost then s4.failAct c a.id cCrc else if bad then s4.failAct c a.id cBound else s4
    | _, _ => s)

/-! ## Completion -/

/-- Whether a descriptor in progress may complete: nothing outstanding and, for a collective, its counter at the
threshold and its result written (R100, R376); a failed one only waits for what is outstanding. -/
def State.actReady (s : State) (c : Nat) (a : Act) : Bool :=
  a.left = 0 && (a.failed || a.eng ≠ 2 || !a.desc.isColl || match s.ownerOf c with
    | none => false
    | some p => s.collReached p a && (a.desc.op ≠ 0x10 || a.phase = 2))

/-- DESCRIPTOR_COMPLETE: the k-th descriptor in progress of an engine completes, once nothing of it is outstanding (R90,
R100, R376). The cycles that the DMA engine was busy with it are open (assumption 5). -/
def execDescriptorComplete (c : Nat) (eng : Fin 4) (k : Nat) (s : State) : Host.Outcome State Fault Refusal :=
  commit s (Instr.wf (.descriptorComplete c eng k)) (match (s.actsOf c eng)[k]? with
    | none => s
    | some a =>
      if s.actReady c a then
        let (v, s1) := if eng.val = 2 then s.drawWord else (0, s)
        let s2 := if eng.val = 2 then s1.liveAdd (.coreBusySnap c 3) CoreBusySnap.cycles v.toNat else s1
        let s3 := if a.eng = 2 ∧ a.desc.isColl ∧ !a.failed then
            (match s2.ownerOf c with
            | none => s2
            | some p => s2.wrapFld (.partCollStat p) PartCollStat.completed 1) else s2
        s3.completeAct c a
      else s)

/-! ## Answers -/

/-- Packets of a partition delivered in answer (PART_FAB_RX_SNAP). -/
def State.countAnswer (s : State) (w : WaitPkt) : State :=
  s.liveAdd (.partFabRxSnap w.pkt.dstPart) PartFabRxSnap.bytes w.pkt.length

/-- A gathering descriptor goes on once the last byte has come. -/
def State.gatherNext (s : State) (c id : Nat) (us : List Upset) : State :=
  match s.act c id, s.ownerOf c with
  | some a, some p => if a.left = 0 ∧ a.phase = 0 ∧ !a.failed then s.dmaGathered c p id a.desc us else s
  | _, _ => s

/-- The replay engine of a partition asks for its next blocks, up to 64 at once (R502). -/
def State.replayAsk (s : State) (p : Nat) : Nat → State
  | 0 => s
  | n + 1 =>
    match mfind s.parts p with
    | none => s
    | some q =>
      let src := (s.reg (.partReplaySrc p)).toNat
      let out := (s.fab.xfers.filter (fun (_, x) => Xfer.isReplayOf x p)).length
      if q.replayNext < s.fld (.partReplayLen p) PartReplayLen.bytes ∧ out < 64 ∧ s.fld (.partReplayStatus p) PartReplayStatus.busy = 1 then
        let (s1, tag) := (s.modPart p (fun q => { q with replayNext := q.replayNext + 4096 })).openXfer (.replay p q.replayNext) p
          (bitsOf src 54 10) 1
        (s1.inject 6 (requestPkt p 0 0 tag 0 (bitsOf src 54 10) (bitsOf src 49 5) (bitsOf src 46 3)
          ((bitsOf src 0 46 + q.replayNext) % 2 ^ 46) (leBytes 16 4096))).replayAsk p n
      else s

/-- A block that the replay engine fetched is written as a chk-0 copy writes it (R219, R502); no write reaches an input range
(R499). -/
def State.replayBlock (s : State) (p pos : Nat) (pkt : Pkt) (us : List Upset) : State :=
  let w := (s.reg (.partReplayDst p)).toNat
  match s.spaceLoc p (bitsOf w 46 3) (bitsOf w 0 46 + pos) 4096 with
  | none => s
  | some (l, a) =>
    let s2 :=
      if s.stepGuards l a 4096 then s
      else
        let (s1, _) := (s.preWrite l a 4096 us).writeSpan l a pkt.data
        if pkt.chk then s1.sealBlk l (a / 4096) ⟨BitVec.ofNat 32 pkt.check, pkt.valid⟩ else s1
    let s3 := s2.setFld (.partReplayStatus p) PartReplayStatus.copied (s2.fld (.partReplayStatus p) PartReplayStatus.copied + 4096)
    if s3.fld (.partReplayStatus p) PartReplayStatus.copied = s3.fld (.partReplayLen p) PartReplayLen.bytes then
      (s3.setFld (.partReplayStatus p) PartReplayStatus.busy 0).setFld (.partReplayStatus p) PartReplayStatus.done 1
    else s3.replayAsk p 64

/-- The data of a response go to whoever waits for them (R353). -/
def State.dataArrives (s : State) (pkt : Pkt) (us : List Upset) : State :=
  match mfind s.fab.xfers pkt.tag with
  | none => s
  | some x =>
    let s1 := s.countXfer pkt.tag 1
    match x.use with
    | .far c t _ rd =>
      if (s1.thread c t).stat = .parked (.far rd) then
        (s1.modThread c t (fun th => th.setG rd (BitVec.ofNat 64 (leNat (pkt.data.take 8))))).unpark c t
      else s1
    | .dmaRead c id pos => (s1.modAct c id (fun a => { a with
          buf := memWrite a.buf pos pkt.data,
          chks := if pkt.chk then mset a.chks (posKey pos) ⟨BitVec.ofNat 32 pkt.check, pkt.valid⟩ else a.chks })).gatherNext c id us
    | .replay p pos => s1.replayBlock p pos pkt us
    | _ => s1

/-- `n` packets have been acknowledged (R356). -/
def State.ackArrives (s : State) (tag n : Nat) : State :=
  match mfind s.fab.xfers tag with
  | none => s
  | some x =>
    let s1 := s.countXfer tag n
    match x.use with
    | .farStore c t _ => s1.ackStore c t
    | _ => s1

/-- Change an unanswered entry. -/
def State.modXfer (s : State) (tag : Nat) (f : Xfer → Xfer) : State := { s with fab := { s.fab with xfers := mmod s.fab.xfers tag f } }

/-- `n` packets have been refused with a cause (R357, R503); a transaction answered NODE_UNREACHABLE is counted once (R351). -/
def State.faultArrives (s : State) (tag cause n : Nat) : State :=
  match mfind s.fab.xfers tag with
  | none => s
  | some x =>
    let s1 := s.countXfer tag n
    let s2 := if cause = cNode ∧ !x.unreach then (s1.modXfer tag (fun x => { x with unreach := true })).satFld
      (.partFabStat x.part) PartFabStat.unreachable 1 else s1
    match x.use with
    | .replay p _ => if cause = cNode ∨ cause = cOwner then s2.replayLost p x.node (if cause = cOwner then 1 else 0) else s2
    | _ => s2.xferFault x cause 1

/-- The `i`-th waiting packet when it is a response `op` at its requester. One that R326 refuses is discarded and logged, and
what it answers ends with NODE_UNREACHABLE; a partition that takes no packets has no transaction to end so (assumption 55). -/
def State.answer (s : State) (i op : Nat) (eff : State → Pkt → State) : State :=
  match s.waitingPkt i (fun p => p.op = op) with
  | none => s
  | some w =>
    let s1 := (s.dropWaiting i).doneWith w
    if !s.takesPackets w.pkt.dstPart then (s1.countRefusal w cNode).countXfer w.pkt.tag w.pkt.answered
    else if !s.letsIn w.pkt then (s1.countRefusal w cNode).faultArrives w.pkt.tag cNode w.pkt.answered
    else eff (s1.countAnswer w) w.pkt

/-- RSP_DATA (R353, R354). -/
def execRspData (i : Nat) (u : List Upset) (s : State) : Host.Outcome State Fault Refusal :=
  commit s (Instr.wf (.rspData i u)) (s.answer i 0x20 (fun t p => t.dataArrives p u))
/-- RSP_ACK (R353, R356). -/
def execRspAck (i : Nat) (s : State) : Host.Outcome State Fault Refusal :=
  commit s (Instr.wf (.rspAck i)) (s.answer i 0x21 (fun t p => t.ackArrives p.tag p.answered))
/-- RSP_FAULT (R357). -/
def execRspFault (i : Nat) (s : State) : Host.Outcome State Fault Refusal :=
  commit s (Instr.wf (.rspFault i)) (s.answer i 0x22 (fun t p =>
    t.faultArrives p.tag (bitsOf (leNat p.data) 0 8) p.answered))

end Sys2Proof.Machine
end

