-- ==== Sys2Proof/Machine/Skiver.lean ====
section
/-! DEFINITION. The Skiver (R168 to R192): body, skived tiles, zero rows, index lists, top-k gating, slot lists, combining
and the expert exchange. Each operation is worked out from the scratchpad as it stands; reads, verification and writes
then follow in one place. -/
namespace Sys2Proof.Machine

/-! ## Body (R169, R170) -/

/-- src_addr. -/
def Desc.kSrc (d : Desc) : Nat := d.f 1 0 21
/-- dst_addr. -/
def Desc.kDst (d : Desc) : Nat := d.f 1 21 21
/-- aux_addr. -/
def Desc.kAux (d : Desc) : Nat := d.f 1 42 21
/-- src_stride. -/
def Desc.kSrcStride (d : Desc) : Nat := d.f 2 0 21
/-- dst_stride. -/
def Desc.kDstStride (d : Desc) : Nat := d.f 2 21 21
/-- aux_stride. -/
def Desc.kAuxStride (d : Desc) : Nat := d.f 2 42 21
/-- rows. -/
def Desc.kRows (d : Desc) : Nat := d.f 3 0 16
/-- cols: elements per row, experts E of a GATE, local experts n of a SLOTS. -/
def Desc.kCols (d : Desc) : Nat := d.f 3 16 16
/-- fmt. -/
def Desc.kFmt (d : Desc) : Nat := d.f 3 32 4
/-- k, experts per token. -/
def Desc.kK (d : Desc) : Nat := d.f 3 38 4
/-- depth of a reroute. -/
def Desc.kDepth (d : Desc) : Nat := d.f 3 43 4
/-- norm. -/
def Desc.kNorm (d : Desc) : Nat := d.f 3 47 2
/-- mode. -/
def Desc.kMode (d : Desc) : Nat := d.f 3 49 2
/-- cap, the local capacity. -/
def Desc.kCap (d : Desc) : Nat := d.f 4 0 13
/-- Own member index of an XCHG. -/
def Desc.kMember (d : Desc) : Nat := d.f 4 13 10
/-- Members M. -/
def Desc.kM (d : Desc) : Nat := d.f 4 23 11
/-- Local expert of a return. -/
def Desc.kQ (d : Desc) : Nat := d.f 4 34 10
/-- table_addr. -/
def Desc.kTable (d : Desc) : Nat := d.f 5 0 21
/-- value: FP32 threshold or global capacity. -/
def Desc.kValue (d : Desc) : Nat := d.f 6 0 32
/-- rb, the bytes of a row (R171). -/
def Desc.kRb (d : Desc) : Nat := rowBytes d.kFmt d.kCols
/-- rr, a row in 128-byte scratchpad rows. -/
def Desc.kRr (d : Desc) : Nat := (d.kRb + 127) / 128
/-- A length padded to a multiple of 128. -/
def pad128 (n : Nat) : Nat := (n + 127) / 128 * 128
/-- Bytes of a count record for `n` local experts (R185). -/
def recBytes (n : Nat) : Nat := pad128 (16 + 2 * n)

/-- The checks of R169 and R170: reserved bits, unused fields, ranges, alignment, modes and formats (assumption 34). -/
def skiverOk (d : Desc) : Bool :=
  let op := d.op
  let uses (b : Bool) (x : Nat) : Bool := b || x = 0
  let range (lo hi x : Nat) : Bool := lo ≤ x && x ≤ hi
  let gate := op = 6
  let slots := op = 7
  let xchg := op = 8
  d.f 1 63 1 = 0 && d.f 2 63 1 = 0 && d.f 3 37 1 = 0 && d.f 3 51 13 = 0 && d.f 4 44 20 = 0 && d.f 5 21 43 = 0
    && d.f 6 32 32 = 0 && d.f 7 6 58 = 0
    && uses (!slots) d.kSrc && uses (!xchg) d.kDst && uses (op ≠ 1 || isMx d.kFmt) d.kAux
    && uses (!slots) d.kSrcStride && uses (!xchg) d.kDstStride && uses (op = 1 || op = 2 || slots) d.kAuxStride
    && (if slots then d.kRows = 0 && d.kFmt = 0 else range 1 (if gate || xchg then 4096 else 65535) d.kRows && d.kFmt ≤ 13)
    && (if gate || slots then range 1 1024 d.kCols else true)
    && (if gate || op = 9 then range 1 8 d.kK else d.kK = 0)
    && uses gate (d.f 3 42 1) && (if gate then d.kDepth ≤ 8 && d.kNorm ≤ 2 else d.kDepth = 0 && d.kNorm = 0)
    && (if op = 3 then d.kMode ≤ 1 else if op = 5 || xchg then d.kMode ≤ 2 else d.kMode = 0)
    && (if gate || slots || xchg || op = 9 then range 1 4096 d.kCap else d.kCap = 0)
    && (if slots || xchg then range 1 1024 d.kM else d.kM = 0) && (if xchg then d.kMember < d.kM else d.kMember = 0)
    && uses xchg d.kQ && uses (xchg || op = 5) d.kTable && (if slots then range 1 4194304 d.kValue else uses (op = 3) d.kValue)
    && uses xchg (d.f 7 0 6)
    && al128 d.kSrc && al128 d.kDst && al128 d.kAux && al128 d.kTable && al128 d.kSrcStride && al128 d.kDstStride
    && al128 d.kAuxStride
    && (if op = 2 then d.kRows ≤ 1024 && d.kCols % 128 = 0 && range 128 16384 d.kCols else true)
    && (if op = 3 && d.kMode = 1 then d.kFmt = 0 && d.kSrcStride = 0 && d.kCols = 1 else true)
    && (if gate then d.kFmt ≤ 1 && d.kK ≤ d.kCols else true)
    && (if op = 9 then d.kFmt ≤ 2 && d.kRb % 128 = 0 else true)
    && (if xchg then d.f 3 36 1 = 1 && d.kRb % 128 = 0 else true)

/-! ## What an operation does -/

/-- What an operation reads and writes, by offset in the envelope; whether it ends in DESC_INVALID after those writes;
its cycles (R171); slots dropped and rerouted, rows excluded and kept (R192). -/
structure SkOut where
  reads : List Span
  runs : List (Nat × List Byte)
  bad : Bool
  cycles : Nat
  dropped : Nat := 0
  rerouted : Nat := 0
  excluded : Nat := 0
  kept : Nat := 0

/-- Reads of a run of rows. -/
def rowSpans (base stride n len : Nat) : List Span := (List.range n).map (fun r => (base + r * stride, len))

/-- Whether an element code is a zero (R176). -/
def zeroCode (f c : Nat) : Bool := if 11 ≤ f ∧ f ≤ 13 then c = 0 else c % 2 ^ (fmtBits f - 1) = 0

/-- The element codes of a row of bytes (R142). -/
def rowCodes (f cols : Nat) (bs : List Byte) : List Nat := (List.range cols).map (elemOf bs (fmtBits f))

/-- Put stored codes at the places whose bit is set. -/
def spread : List Bool → List Nat → List Nat
  | [], _ => []
  | true :: r, v :: vs => v :: spread r vs
  | true :: r, [] => 0 :: spread r []
  | false :: r, vs => 0 :: spread r vs

/-! ### Skived tiles (R173 to R176) -/

/-- Offset of the offsets region. -/
def tileOffsets (d : Desc) : Nat := 128 + pad128 (d.kRows * d.kCols / 8)
/-- Offset of the values region. -/
def tileValues (d : Desc) : Nat := tileOffsets d + pad128 (4 * d.kRows)
/-- Offset of the scales region, 0 without one. -/
def tileScales (d : Desc) (valueBytes : Nat) : Nat := if isMx d.kFmt then tileValues d + pad128 valueBytes else 0

/-- The header of a tile (R173). -/
def tileHeader (d : Desc) (valueBytes : Nat) : List Byte :=
  padTo 128 (leBytes 4 0x534B5631 ++ leBytes 1 d.kFmt ++ leBytes 1 0 ++ leBytes 2 d.kRows ++ leBytes 4 d.kCols
    ++ leBytes 4 valueBytes ++ leBytes 4 128 ++ leBytes 4 (tileOffsets d) ++ leBytes 4 (tileValues d)
    ++ leBytes 4 (tileScales d valueBytes))

/-- EXPAND (R174, R175): line by line until a check fails. -/
def skExpand (rd : Nat → Nat → List Byte) (d : Desc) : SkOut :=
  let h := rd d.kSrc 128
  let vb := leNat ((h.drop 12).take 4)
  let w := fmtBits d.kFmt
  let sc := scaleRow d.kFmt d.kCols
  if h ≠ tileHeader d vb ∨ 1024 < d.kRows ∨ d.kCols % 128 ≠ 0 ∨ d.kCols < 128 ∨ 16384 < d.kCols then
    ⟨[(d.kSrc, 128)], [], true, 8, 0, 0, 0, 0⟩
  else
    let lineBytes := d.kCols / 8
    let (off, runs, ok) := (List.range d.kRows).foldl (fun (off, runs, ok) l =>
      if !ok ∨ leNat (rd (d.kSrc + tileOffsets d + 4 * l) 4) ≠ off then (off, runs, false)
      else
        let bm := rd (d.kSrc + 128 + l * lineBytes) lineBytes
        let bits := (List.range d.kCols).map (fun e => bitAt (bm.getD (e / 8) 0).toNat (e % 8))
        let n := (bits.countP id * w + 7) / 8
        let vals := rowCodes d.kFmt (bits.countP id) (rd (d.kSrc + tileValues d + off) n)
        let run := (d.kDst + l * d.kDstStride, packCodes w (spread bits vals))
        let scale := if sc = 0 then [] else [(d.kAux + l * d.kAuxStride, rd (d.kSrc + tileScales d vb + l * sc) sc)]
        (off + n, runs ++ [run] ++ scale, true)) (0, [], true)
    ⟨[(d.kSrc, tileValues d + pad128 off)] ++ (if sc = 0 then [] else [(d.kSrc + tileScales d vb, pad128 (d.kRows * sc))]),
      runs, !ok || off != vb, 8 + d.kRows * d.kRr, 0, 0, 0, 0⟩

/-- COMPACT (R173, R176). -/
def skCompact (rd : Nat → Nat → List Byte) (d : Desc) : SkOut :=
  let w := fmtBits d.kFmt
  let sc := scaleRow d.kFmt d.kCols
  let lines := (rowSpans d.kSrc d.kSrcStride d.kRows d.kRb).map (fun (a, n) => rowCodes d.kFmt d.kCols (rd a n))
  let vals := lines.map (fun l => let kept := l.filter (fun c => !zeroCode d.kFmt c)
                                  packCodes w kept)
  let bitmap := packCodes 1 (lines.flatMap (fun l => l.map (fun c => b2n (!zeroCode d.kFmt c))))
  let (offs, vb) := vals.foldl (fun (bs, o) v => (bs ++ leBytes 4 o, o + v.length)) ([], 0)
  let scales := if sc = 0 then [] else (rowSpans d.kAux d.kAuxStride d.kRows sc).flatMap (fun (a, n) => rd a n)
  let part (bs : List Byte) : List Byte := padTo (pad128 bs.length) bs
  ⟨rowSpans d.kSrc d.kSrcStride d.kRows d.kRb ++ (if sc = 0 then [] else rowSpans d.kAux d.kAuxStride d.kRows sc),
    [(d.kDst, tileHeader d vb ++ part bitmap ++ part offs ++ part vals.flatten ++ part scales)], false,
    16 + d.kRows * d.kRr, 0, 0, 0, 0⟩

/-! ### Row lists (R177 to R180) -/

/-- An index list (R179). -/
def indexList (kept excluded : List Nat) : List Byte :=
  leBytes 4 kept.length ++ leBytes 4 excluded.length ++ (kept ++ excluded).flatMap (leBytes 4)

/-- An index list as read: its span and its kept and excluded indices. The counts are cut at what a scratchpad can hold,
which lies beyond every envelope. -/
def readList (rd : Nat → Nat → List Byte) (a : Nat) : Span × List Nat × List Nat :=
  let n := min (2 ^ 19) (leNat (rd a 4))
  let m := min (2 ^ 19) (leNat (rd (a + 4) 4))
  let ix (i : Nat) : Nat := leNat (rd (a + 8 + 4 * i) 4)
  ((a, 8 + 4 * (n + m)), (List.range n).map ix, (List.range m).map (fun i => ix (n + i)))

/-- FP32 greater-than: zeros are equal and a NaN compares false. -/
def fgt (a b : Nat) : Bool := !isNan32 a && !isNan32 b && flt b a && !(a % 2 ^ 31 = 0 && b % 2 ^ 31 = 0)

/-- ROW_SCAN (R177, R178). -/
def skScan (rd : Nat → Nat → List Byte) (d : Desc) : SkOut :=
  let keep (r : Nat) : Bool :=
    if d.kMode = 0 then (rowCodes d.kFmt d.kCols (rd (d.kSrc + r * d.kSrcStride) d.kRb)).any (fun c => !zeroCode d.kFmt c)
    else fgt (leNat (rd (d.kSrc + 4 * r) 4)) d.kValue
  let flags := (List.range d.kRows).map keep
  let kept := (List.range d.kRows).filter (fun r => flags.getD r false)
  let excluded := (List.range d.kRows).filter (fun r => !flags.getD r false)
  let masks := (List.range ((d.kRows + 63) / 64)).map (fun g =>
    (d.kDst + 128 * g, padTo 128 (packCodes 1 (((flags.drop (64 * g)).take 64).map b2n))))
  ⟨if d.kMode = 0 then rowSpans d.kSrc d.kSrcStride d.kRows d.kRb else [(d.kSrc, 4 * d.kRows)],
    masks ++ [(d.kAux, indexList kept excluded)], false, 8 + (d.kRows * d.kRr + 7) / 8 + (d.kRows + 31) / 32, 0, 0, 0, 0⟩

/-- ROW_PACK (R180): it uses only the kept indices. -/
def skPack (rd : Nat → Nat → List Byte) (d : Desc) : SkOut :=
  let (sp, kept, _) := readList rd d.kAux
  let rows := kept.map (fun i => (d.kSrc + i * d.kSrcStride, d.kRb))
  ⟨(sp.1, 8 + 4 * kept.length) :: rows, rows.zipIdx.map (fun (r, i) => (d.kDst + i * d.kDstStride, rd r.1 r.2)), false,
    8 + kept.length * d.kRr, 0, 0, 0, 0⟩

/-- ROW_UNPACK (R180). -/
def skUnpack (rd : Nat → Nat → List Byte) (d : Desc) : SkOut :=
  let (sp, kept, excluded) := readList rd d.kAux
  let rows := (List.range kept.length).map (fun i => (d.kSrc + i * d.kSrcStride, d.kRb))
  let bypass := if d.kMode = 1 then excluded.map (fun i => (d.kTable + i * d.kDstStride, d.kRb)) else []
  let fill := if d.kMode = 0 then excluded.map (fun i => (d.kDst + i * d.kDstStride, List.replicate d.kRb 0))
    else if d.kMode = 1 then excluded.map (fun i => (d.kDst + i * d.kDstStride, rd (d.kTable + i * d.kDstStride) d.kRb)) else []
  ⟨sp :: rows ++ bypass, (kept.zip rows).map (fun (i, r) => (d.kDst + i * d.kDstStride, rd r.1 r.2)) ++ fill, false,
    8 + (kept.length + (if d.kMode = 2 then 0 else excluded.length)) * d.kRr, 0, 0, 0, 0⟩

/-! ### Gating (R181 to R183) -/

/-- Order of logits: zeros equal, NaN below every number (R181). -/
def logitKey (x : Nat) : Int :=
  if isNan32 x then -(2 ^ 40) else if x ≥ 2 ^ 31 then -((x - 2 ^ 31 : Nat) : Int) else x

/-- Insert an expert behind every expert whose logit is not less. -/
def insertExpert (key : Nat → Int) (e : Nat) : List Nat → List Nat
  | [] => [e]
  | x :: r => if key x ≥ key e then x :: insertExpert key e r else e :: x :: r

/-- The experts by descending logit, equal ones by ascending index (R181). -/
def expertOrder (logits : List Nat) : List Nat :=
  let key (e : Nat) : Int := logitKey (logits.getD e 0)
  (List.range logits.length).foldl (fun l e => insertExpert key e l) []

/-- Gating so far: rows placed per expert, slots by token * 8 + r as (expert, position), drops and reroutes. -/
structure GateAcc where
  count : SMap Nat
  slot : SMap (Nat × Nat)
  dropped : Nat
  rerouted : Nat

/-- place of R181. -/
def GateAcc.place (g : GateAcc) (t r e : Nat) : GateAcc :=
  { g with slot := mset g.slot (8 * t + r) (e, mget g.count e 0), count := mset g.count e (mget g.count e 0 + 1) }

/-- Whether an expert is placed for a token. -/
def GateAcc.has (g : GateAcc) (t e : Nat) : Bool :=
  (List.range 8).any (fun r => match mfind g.slot (8 * t + r) with
    | some (e', q) => e' = e ∧ q ≠ 0xFFFF
    | none => false)

/-- One step of the loops of R181. -/
def GateAcc.step (d : Desc) (order : List Nat) (g : GateAcc) (t r : Nat) : GateAcc :=
  let e := order.getD r 0
  let drop : GateAcc := { g with slot := mset g.slot (8 * t + r) (e, 0xFFFF), dropped := g.dropped + 1 }
  if mget g.count e 0 < d.kCap then g.place t r e
  else if d.f 3 42 1 = 1 then
    match ((order.drop d.kK).take d.kDepth).find? (fun e2 => !g.has t e2 && mget g.count e2 0 < d.kCap) with
    | some e2 => { g.place t r e2 with rerouted := g.rerouted + 1 }
    | none => drop
  else drop

/-- The weights of the k chosen experts of a token (R182). -/
def gateWeights (d : Desc) (logits order : List Nat) : List Nat :=
  let xs := (order.take d.kK).map (fun e => logits.getD e 0)
  let mx := logits.getD (order.headD 0) 0
  let ex (x : Nat) : Nat := fexp2 (fmul (fadd x (fneg mx)) 0x3FB8AA3B)
  if d.kNorm = 2 then xs
  else if isNan32 mx ∨ mx = 0xFF800000 then xs.map (fun _ => nan32)
  else
    let sum := if d.kNorm = 0 then (match xs.map ex with
      | [] => 0
      | a :: r => r.foldl fadd a) else treeFold fadd 0 11 (logits.map ex)
    xs.map (fun x => fdiv (ex x) sum)

/-- GATE; the weights of slots r >= k are open (R183, assumption 9). -/
def skGate (rd : Nat → Nat → List Byte) (d : Desc) : SkOut :=
  let rows := rowSpans d.kSrc d.kSrcStride d.kRows d.kRb
  let toks := rows.map (fun (a, m) =>
    let logits := (rowCodes d.kFmt d.kCols (rd a m)).map (fun x => if d.kFmt = 1 then x * 65536 else x)
    let order := expertOrder logits
    (order, gateWeights d logits order, logits))
  let g : GateAcc := (List.range d.kK).foldl (fun (g : GateAcc) r => toks.zipIdx.foldl (fun (g : GateAcc) (x, t) => g.step d x.1 t r) g)
    ⟨[], [], 0, 0⟩
  let recs := toks.zipIdx.flatMap (fun (x, t) => (List.range 8).flatMap (fun r =>
    if r < d.kK then
      let (e, q) := mget g.slot (8 * t + r) (0, 0)
      leBytes 2 e ++ leBytes 2 q ++ leBytes 4 (x.2.1.getD r 0)
    else leBytes 2 0xFFFF ++ leBytes 2 0xFFFF ++ leBytes 4 (Config.spareWeight x.2.2 r).toNat))
  ⟨rows, [(d.kDst, recs), (d.kAux, (List.range d.kCols).flatMap (fun e => leBytes 4 (mget g.count e 0)))], false,
    16 + d.kRows * ((d.kCols + (if d.kFmt = 0 then 63 else 127)) / (if d.kFmt = 0 then 64 else 128) + d.kK + d.kDepth),
    g.dropped, g.rerouted, 0, 0⟩

/-! ### Slot lists and combining (R189, R191) -/

/-- SLOTS. -/
def skSlots (rd : Nat → Nat → List Byte) (d : Desc) : SkOut :=
  let n := d.kCols
  let recs := (rowSpans d.kAux d.kAuxStride d.kM (recBytes n)).map (fun (a, m) => rd a m)
  let reads := rowSpans d.kAux d.kAuxStride d.kM (recBytes n)
  let w (r : List Byte) (o : Nat) : Nat := leNat ((r.drop o).take 2)
  if recs.zipIdx.any (fun (r, s) => w r 0 ≠ s ∨ w r 2 ≠ n) then ⟨reads, [], true, 16, 0, 0, 0, 0⟩
  else
    let lists := (List.range n).map (fun q => recs.zipIdx.flatMap (fun (r, s) =>
      (List.range (w r (16 + 2 * q))).map (fun i => s * d.kCap + i)))
    let kept := (lists.map (fun l => (l.take d.kValue).length)).sum
    let all := (lists.map List.length).sum
    let runs := lists.zipIdx.map (fun (l, q) => (d.kDst + 128 + q * d.kDstStride, indexList (l.take d.kValue) (l.drop d.kValue)))
    ⟨reads, (d.kDst, padTo 128 (leBytes 4 all ++ leBytes 4 kept ++ leBytes 4 (all - kept))) :: runs, false,
      16 + d.kM * (recBytes n / 128) + (all + 31) / 32, 0, 0, all - kept, kept⟩

/-- Slot `r` of a choice record: expert, position, weight (R183). -/
def slotOf (rec : List Byte) (r : Nat) : Nat × Nat × Nat :=
  (leNat ((rec.drop (8 * r)).take 2), leNat ((rec.drop (8 * r + 2)).take 2), leNat ((rec.drop (8 * r + 4)).take 4))

/-- COMBINE (R191). -/
def skCombine (rd : Nat → Nat → List Byte) (d : Desc) : SkOut :=
  let toks := (List.range d.kRows).map (fun t =>
    let rec64 := rd (d.kAux + 64 * t) 64
    ((List.range d.kK).map (slotOf rec64)).filter (fun x => x.2.1 ≠ 0xFFFF))
  let row (x : Nat × Nat × Nat) : Span := (d.kSrc + (x.1 * d.kCap + x.2.1) * d.kRb, d.kRb)
  let out (xs : List (Nat × Nat × Nat)) : List Byte :=
    let acc := xs.foldl (fun acc x =>
      let vals := (rowCodes d.kFmt d.kCols (rd (row x).1 (row x).2)).map (fun c => toF32 (elemDecode d.kFmt c))
      (acc.zip vals).map (fun (a, v) => ffma x.2.2 v a)) (List.replicate d.kCols 0)
    acc.flatMap (leBytes 4)
  ⟨(d.kAux, 64 * d.kRows) :: toks.flatMap (fun xs => xs.map row),
    toks.zipIdx.map (fun (xs, t) => (d.kDst + t * d.kDstStride, out xs)), false,
    8 + (toks.map List.length).sum * d.kRr, 0, 0, 0, 0⟩

/-! ## Effect -/

/-- The scratchpad of a core as a descriptor sees it: `n` bytes at an offset of its envelope. -/
def State.skRead (s : State) (c : Nat) (d : Desc) (o n : Nat) : List Byte := s.ownBytes c d o n

/-- The work of an operation other than XCHG. -/
def State.skWork (s : State) (c : Nat) (d : Desc) : SkOut :=
  let rd := s.skRead c d
  match d.op with
  | 1 => skExpand rd d
  | 2 => skCompact rd d
  | 3 => skScan rd d
  | 4 => skPack rd d
  | 5 => skUnpack rd d
  | 6 => skGate rd d
  | 7 => skSlots rd d
  | _ => skCombine rd d

/-- The registers that a finished operation counts in (R192). -/
def State.skCount (s : State) (c : Nat) (o : SkOut) : State :=
  (((s.satFld (.coreSkvGate c) CoreSkvGate.dropped o.dropped).satFld (.coreSkvGate c) CoreSkvGate.rerouted o.rerouted).satFld
    (.coreSkvSlots c) CoreSkvSlots.excluded o.excluded).satFld (.coreSkvSlots c) CoreSkvSlots.kept o.kept

/-- The effect of a Skiver descriptor other than XCHG whose head has been popped (R170 to R172). -/
def State.doSkiver (s : State) (c : Nat) (d : Desc) (us : List Upset) : State :=
  if !skiverOk d then s.descFault c d cDesc
  else
    let o := s.skWork c d
    let writes : List Span := o.runs.map (fun (a, bs) => (a, bs.length))
    let verify := d.f 3 36 1 = 0
    if !inEnv d (o.reads ++ writes) ∨ s.stepGuarded (.spm c) (relSpans d writes) then s.descFault c d cBound
    else
      let (s1, res) := s.engineRead c d o.reads us verify
      match res with
      | .inr cause => (s1.writeFree (.spm c) (relSpans d writes)).failDesc c d cause
      | .inl _ =>
        let runs := o.runs.map (fun (a, bs) => (envAt d.env 0 + a, bs))
        let (s2, _) := if verify then s1.writeGen (.spm c) runs else s1.writeRuns (.spm c) runs
        let s3 := s2.liveAdd (.coreBusySnap c 4) CoreBusySnap.cycles o.cycles
        if o.bad then s3.descFault c d cDesc else (s3.skCount c o).addAct c 3 d 0 0

/-- The head of the Skiver queue starts as operation `op`. -/
def State.skiverOp (s : State) (c op : Nat) (us : List Upset) : State :=
  s.startOp c 3 op (fun t _ d => t.doSkiver c d us)

/-- EXPAND (R174, R175). -/
def execExpand (c : Nat) (u : List Upset) (s : State) : Host.Outcome State Fault Refusal :=
  commit s (Instr.wf (.expand c u)) (s.skiverOp c 1 u)
/-- COMPACT (R176). -/
def execCompact (c : Nat) (u : List Upset) (s : State) : Host.Outcome State Fault Refusal :=
  commit s (Instr.wf (.compact c u)) (s.skiverOp c 2 u)
/-- ROW_SCAN (R177, R178). -/
def execRowScan (c : Nat) (u : List Upset) (s : State) : Host.Outcome State Fault Refusal :=
  commit s (Instr.wf (.rowScan c u)) (s.skiverOp c 3 u)
/-- ROW_PACK (R180). -/
def execRowPack (c : Nat) (u : List Upset) (s : State) : Host.Outcome State Fault Refusal :=
  commit s (Instr.wf (.rowPack c u)) (s.skiverOp c 4 u)
/-- ROW_UNPACK (R180). -/
def execRowUnpack (c : Nat) (u : List Upset) (s : State) : Host.Outcome State Fault Refusal :=
  commit s (Instr.wf (.rowUnpack c u)) (s.skiverOp c 5 u)
/-- GATE (R181 to R183). -/
def execGate (c : Nat) (u : List Upset) (s : State) : Host.Outcome State Fault Refusal :=
  commit s (Instr.wf (.gate c u)) (s.skiverOp c 6 u)
/-- SLOTS (R189). -/
def execSlots (c : Nat) (u : List Upset) (s : State) : Host.Outcome State Fault Refusal :=
  commit s (Instr.wf (.slots c u)) (s.skiverOp c 7 u)
/-- COMBINE (R191). -/
def execCombine (c : Nat) (u : List Upset) (s : State) : Host.Outcome State Fault Refusal :=
  commit s (Instr.wf (.combine c u)) (s.skiverOp c 9 u)

/-! ## The expert exchange (R184 to R188) -/

/-- An entry of the member table (R184). -/
structure Member where
  recv : BitVec 64
  count : BitVec 64
  ret : BitVec 64
  first : Nat
  n : Nat
  rest : Nat
  deriving DecidableEq, Repr

/-- The member table of an XCHG. -/
def memberTable (rd : Nat → Nat → List Byte) (d : Desc) : List Member :=
  (List.range d.kM).map (fun m =>
    let b := rd (d.kTable + 32 * m) 32
    let w (o n : Nat) : Nat := leNat ((b.drop o).take n)
    ⟨BitVec.ofNat 64 (w 0 8), BitVec.ofNat 64 (w 8 8), BitVec.ofNat 64 (w 16 8), w 24 2, w 26 2, w 28 4⟩)

/-- The rules of the table (R184), from member number `first` on; E, the sum of n_experts, is 1 to 1,024 (R169). -/
def tableOk : Nat → List Member → Bool
  | total, [] => 1 ≤ total && total ≤ 1024
  | first, m :: r => m.first = first && m.n ≤ 1024 && m.rest = 0 && wbits m.recv 46 3 = 0 && wbits m.count 46 3 = 0
      && wbits m.ret 46 3 = 0 && tableOk (first + m.n) r

/-- A row or record to send: member, the address word it starts from, offset, bytes; and the spans it was read from. -/
structure XItem where
  member : Nat
  word : BitVec 64
  off : Nat
  bytes : List Byte

/-- What an XCHG reads and sends in order, and whether an invalid operand follows. -/
structure XPlan where
  reads : List Span
  items : List XItem
  bad : Bool

/-- Phase 0: one count record per member (R185). -/
def xchgCounts (rd : Nat → Nat → List Byte) (d : Desc) (tab : List Member) : XPlan :=
  let items := tab.zipIdx.map (fun (m, k) =>
    let counts := (List.range m.n).map (fun q => leNat (rd (d.kAux + 4 * (m.first + q)) 4))
    let bs := leBytes 2 d.kMember ++ leBytes 2 m.n ++ leBytes 4 counts.sum ++ leBytes 8 0 ++ counts.flatMap (leBytes 2)
    (⟨k, m.count, d.kMember * recBytes m.n, padTo (recBytes m.n) bs⟩ : XItem))
  ⟨[(d.kAux, 4 * (tab.map Member.n).sum)], items, false⟩

/-- Phase 1: every placed slot, tokens and slots ascending, up to the first invalid one (R185, R186). -/
def xchgPayload (rd : Nat → Nat → List Byte) (d : Desc) (tab : List Member) : XPlan :=
  let total := (tab.map Member.n).sum
  let slots := (List.range d.kRows).flatMap (fun t => ((List.range 8).map (slotOf (rd (d.kAux + 64 * t) 64))).filterMap (fun x =>
    if x.2.1 = 0xFFFF then none else some (t, x.1, x.2.1)))
  let good := slots.takeWhile (fun (_, e, q) => e < total ∧ q < d.kCap)
  let items := good.filterMap (fun (t, e, q) =>
    (tab.zipIdx.find? (fun (m, _) => m.first ≤ e ∧ e < m.first + m.n)).map (fun (m, k) =>
      (⟨k, m.recv, (((e - m.first) * d.kM + d.kMember) * d.kCap + q) * d.kRb, rd (d.kSrc + t * d.kSrcStride) d.kRb⟩ : XItem)))
  ⟨(d.kAux, 64 * d.kRows) :: good.map (fun (t, _, _) => (d.kSrc + t * d.kSrcStride, d.kRb)), items, good.length < slots.length⟩

/-- Phase 2: kept output rows, then zero rows for the excluded indices (R185, R187). -/
def xchgReturn (rd : Nat → Nat → List Byte) (d : Desc) (tab : List Member) : XPlan :=
  let (sp, kept, excluded) := readList rd d.kAux
  let own := (tab.getD d.kMember ⟨0, 0, 0, 0, 0, 0⟩)
  let rows := (kept.zipIdx.map (fun (i, j) => (i, some (d.kSrc + j * d.kSrcStride)))) ++ excluded.map (fun i => (i, none))
  let good := if own.n ≤ d.kQ then [] else rows.takeWhile (fun (i, _) => i / d.kCap < d.kM)
  let items := good.map (fun (i, a) =>
    (⟨i / d.kCap, (tab.getD (i / d.kCap) ⟨0, 0, 0, 0, 0, 0⟩).ret, ((own.first + d.kQ) * d.kCap + i % d.kCap) * d.kRb,
      match a with
      | some x => rd x d.kRb
      | none => List.replicate d.kRb 0⟩ : XItem))
  ⟨sp :: good.filterMap (fun (_, a) => a.map (fun x => (x, d.kRb))), items, own.n ≤ d.kQ || good.length < rows.length⟩

/-- The plan of an XCHG under its table. -/
def xchgPlan (rd : Nat → Nat → List Byte) (d : Desc) : XPlan :=
  let tab := memberTable rd d
  let sp : Span := (d.kTable, 32 * d.kM)
  if !tableOk 0 tab then ⟨[sp], [], true⟩
  else
    let x := if d.kMode = 0 then xchgCounts rd d tab else if d.kMode = 1 then xchgPayload rd d tab else xchgReturn rd d tab
    { x with reads := sp :: x.reads }

/-- The pieces of an item's destination, and whether it ends in BOUND (R105, R354). -/
def State.itemPieces (s : State) (c p : Nat) (d : Desc) (x : XItem) : List Piece × Bool :=
  let e := s.epOf p x.word false
  walkRun (s.spotAt c p d.env true e) (x.bytes.length + 1) ((e.base + x.off : Nat) : Int) x.bytes.length 0

/-- Whether a piece lies on another device or in another partition. -/
def Piece.isFar (x : Piece) : Bool := match x.spot with
  | .far _ => true
  | _ => false

/-- Items with their pieces, up to and with the first that ends in BOUND. -/
def State.xchgSends (s : State) (c p : Nat) (d : Desc) (items : List XItem) : List (XItem × List Piece) × Bool :=
  items.foldl (fun (l, bad) x =>
    if bad then (l, bad)
    else
      let (ps, b) := s.itemPieces c p d x
      (l ++ [(x, ps)], b)) ([], false)

/-- Send the pieces of one item: local ones are written and counted, the others leave on VC5 (R188). -/
def State.sendItem (s : State) (c p : Nat) (d : Desc) (tags : SMap Nat) (x : XItem) (ps : List Piece) : State :=
  ps.foldl (fun t q =>
    let bs := (x.bytes.drop q.pos).take q.len
    match q.spot with
    | .mem l a => (t.writeSpan l a bs).1.rxCount p (d.f 7 0 6) q.len
    | .far o =>
      let e := t.epOf p x.word false
      t.inject 5 { requestPkt p c d.thread (mget tags x.member 0) 0x10 e.node e.part 0 o bs with rx := d.f 7 0 6 }
    | .host _ => t) s

/-- The least cycles of an XCHG: 4 and the 128-byte rows of each row or record sent (R171). -/
def xchgCycles (sends : List (XItem × List Piece)) : Nat := (sends.map (fun x => 4 + (x.1.bytes.length + 127) / 128)).sum

/-- The effect of an XCHG whose head has been popped (R184 to R188). -/
def State.doXchg (s : State) (c p : Nat) (d : Desc) (us : List Upset) : State :=
  if !skiverOk d then s.descFault c d cDesc
  else
    let pl := xchgPlan (s.skRead c d) d
    let (sends, bound) := s.xchgSends c p d pl.items
    let far (m : Nat) : Nat := ((sends.filter (fun y => y.1.member = m)).map (fun y => (y.2.filter Piece.isFar).length)).sum
    let members := (List.range d.kM).filter (fun m => far m ≠ 0)
    let word (m : Nat) : BitVec 64 := ((sends.find? (fun y => y.1.member = m)).map (fun y => y.1.word)).getD 0
    let targets := if s.injectStopped p then [] else members.map (fun m => s.epOf p (word m) false)
    if !inEnv d pl.reads then s.descFault c d cBound
    else match targets.find? (fun e => match s.mayInject p e.node e.part with
        | .inl _ => false
        | .inr _ => true) with
      | some e => (s.refuseSource p e.part (s.xlate e.node).isSome).coreFault c cNode
          { thread := d.thread, engine := 3, tag := d.tag, pc := d.pc, node := e.node }
      | none =>
        let (s1, res) := s.engineRead c d pl.reads us false
        match res with
        | .inr cause => s1.failDesc c d cause
        | .inl _ =>
          let id := s1.freshId c
          let s2 := s1.addAct c 3 d (members.map far).sum 1
          let (s3, tags) := members.foldl (fun (t, tags) m =>
            let (t1, tag) := t.openXfer (.dmaWrite c id) p (t.epOf p (word m) false).node (far m)
            (t1, mset tags m tag)) (s2, [])
          let s4 := sends.foldl (fun t (x, ps) => t.sendItem c p d tags x ps) s3
          let (v, s5) := s4.drawWord
          let s6 := s5.liveAdd (.coreBusySnap c 4) CoreBusySnap.cycles (xchgCycles sends + v.toNat)
          if bound then s6.failAct c id cBound else if pl.bad then s6.failAct c id cDesc else s6

/-- XCHG: it starts once every earlier XCHG of the core has completed (R188). The cycles beyond 4 + rr for each row or
record sent are open (R171). -/
def execXchg (c : Nat) (u : List Upset) (s : State) : Host.Outcome State Fault Refusal :=
  commit s (Instr.wf (.xchg c u)) (if (s.actsOf c 3).any (fun a => a.desc.op = 8) then s
    else s.startOp c 3 8 (fun t p d => t.doXchg c p d u))

end Sys2Proof.Machine
end

