-- ==== Sys2Proof/Machine/Image.lean ====
section
/-! DEFINITION. Images (R23 to R31, R33, R41, R43 to R45, R55): pairs and words, the header, the directory, the format of
every section, the conditions of R41 on a tree image and of R55 on a strap image, keys, digests and the canonical
read-back. -/
namespace Sys2Proof.Machine

/-! ## Words (R23) -/

/-- The grains of an image. -/
def grains (img : List (BitVec 64)) : List Nat := img.map grain
/-- Word `i` of a run of words. -/
def wordAt (ws : List Nat) (i : Nat) : Nat := ws.getD i 0
/-- Records of `n` words. -/
def recs (n : Nat) : Nat → List Nat → List (List Nat)
  | 0, _ => []
  | k + 1, ws => ws.take n :: recs n k (ws.drop n)
/-- The whole records of `n` words in a run. -/
def records (n : Nat) (ws : List Nat) : List (List Nat) := recs n (ws.length / n) ws
/-- The bytes of the stored pairs. -/
def imageBytes (img : List (BitVec 64)) : List Byte := img.flatMap (fun w => leBytes 8 w.toNat)
/-- The bytes of words packed four bytes to a word. -/
def wordBytes (ws : List Nat) : List Byte := ws.flatMap (leBytes 4)
/-- The big-endian number of words packed four bytes to a word. -/
def wordNat (ws : List Nat) : Nat := beNat (wordBytes ws)
/-- Whether every bit of a word outside a mask is clear. -/
def within (w mask : Nat) : Bool := w &&& mask = w
/-- A range test. -/
def between (lo hi x : Nat) : Bool := lo ≤ x && x ≤ hi

/-! ## Header and directory (R25, R26, R28) -/

/-- Image kinds: 1 tree, 2 strap, 3 boot firmware. -/
def imgKind (ws : List Nat) : Nat := wordAt ws 1 / 65536
/-- Total pairs, header word 2. -/
def imgLen (ws : List Nat) : Nat := wordAt ws 2
/-- Limit of R27 or R558 in pairs. -/
def imgMax (kind : Nat) : Nat := if kind = 1 then 524288 else if kind = 2 then 2097152 else 262144

/-- The header rules of R25 for an image of `n` pairs that is to be of a kind. -/
def headerOk (kind : Nat) (ws : List Nat) (n : Nat) : Bool :=
  wordAt ws 0 = 0x5348524E && wordAt ws 1 = 1 + kind * 65536 && imgLen ws = n && n ≤ imgMax kind
    && between 1 64 (wordAt ws 3) && wordAt ws 4 = 0xA15264
    && (if kind = 1 then wordAt ws 6 = 0xFFFFFFFF else kind = 3 || wordAt ws 6 ≤ 31)
    && ((ws.drop 7).take 9).all (· = 0)

/-- The directory: four words per entry. -/
def directory (ws : List Nat) : List (List Nat) := recs 4 (wordAt ws 3) (ws.drop 16)
/-- Type of an entry. -/
def entType (e : List Nat) : Nat := wordAt e 0
/-- First pair of an entry. -/
def entOff (e : List Nat) : Nat := wordAt e 1
/-- Length of an entry. -/
def entLen (e : List Nat) : Nat := wordAt e 2

/-- The section types of a kind, and whether an image must hold each (R28). -/
def sectionTypes (kind : Nat) : List (Nat × Bool) :=
  if kind = 1 then
    [(1, true), (2, false), (3, true), (4, true), (5, true), (6, false), (7, true), (8, true), (9, true), (10, true),
     (11, true), (12, true), (13, false), (14, true)]
  else if kind = 2 then [(0x20, false), (0x21, true), (0x22, true)]
  else [(0x30, true)]

/-- Whether two entries overlap. -/
def entOverlap (a b : List Nat) : Bool := entOff a < entOff b + entLen b && entOff b < entOff a + entLen a

/-- Neighbouring entries stand in ascending type order; only PROGRAM repeats. -/
def typesRise : List (List Nat) → Bool
  | a :: b :: r => (entType a < entType b || (entType a = 0x20 && entType b = 0x20)) && typesRise (b :: r)
  | _ => true

/-- No entry overlaps a later one. -/
def disjoint : List (List Nat) → Bool
  | [] => true
  | a :: r => r.all (fun b => !entOverlap a b) && disjoint r

/-- The directory rules of R26 and R28. -/
def directoryOk (kind : Nat) (ws : List Nat) (n : Nat) : Bool :=
  let d := directory ws
  d.all (fun e => (sectionTypes kind).any (fun (t, _) => t = entType e) && 1 ≤ entLen e && wordAt e 3 = 0
      && 16 + 4 * d.length ≤ entOff e && entOff e + entLen e + 49 ≤ n)
    && typesRise d && disjoint d
    && (sectionTypes kind).all (fun (t, need) => !need || d.any (fun e => entType e = t))

/-- The words of the sections of a type, in directory order. -/
def sectionsOf (ws : List Nat) (t : Nat) : List (List Nat) :=
  ((directory ws).filter (fun e => entType e = t)).map (fun e => (ws.drop (entOff e)).take (entLen e))
/-- The words of the section of a type; none when it is absent. -/
def sec? (ws : List Nat) (t : Nat) : Option (List Nat) := (sectionsOf ws t)[0]?
/-- The words of the section of a type; empty when it is absent. -/
def sec (ws : List Nat) (t : Nat) : List Nat := (sec? ws t).getD []

/-! ## Tree sections -/

/-- The grant records of a PARTITION section. -/
def grantRecords (ws : List Nat) : List (List Nat) := records 48 (sec ws 3)
/-- The grant record of a partition. -/
def grantOf? (ws : List Nat) (p : Nat) : Option (List Nat) := (grantRecords ws).find? (fun g => wordAt g 0 = p)
/-- Ways of a grant on a die. -/
def grantWays (g : List Nat) (d : Nat) : Nat := bitsOf (wordAt g 17) (8 * d) 5
/-- Whether a grant holds a logical core. -/
def grantCore (g : List Nat) (c : Nat) : Bool := bitAt (wordAt g (1 + c / 32)) (c % 32)

/-- R110. -/
def coreMapOk (ws : List Nat) : Bool := ws.length = 528 && ws.all (fun w => w < 1024 && (w % 2 = 1 || w = 0))
/-- R138. -/
def stripShapeOk (ws : List Nat) : Bool := ws.length = 528 && ws.all (· < 128)

/-- R584, one record. -/
def grantOk (g : List Nat) : Bool :=
  wordAt g 0 ≤ 31
    && within (wordAt g 17) 0x1F1F1F1F && (List.range 4).all (fun d => grantWays g d ≤ 16)
    && (wordAt g 18 ≤ 31 || wordAt g 18 = 0xFFFFFFFF) && wordAt g 19 = 0
    && within (wordAt g 22) 0x07FF03FF && bitsOf (wordAt g 22) 0 10 + bitsOf (wordAt g 22) 16 11 ≤ 1024
    && within (wordAt g 25) 0xFFFF && bitsOf (wordAt g 25) 0 8 + bitsOf (wordAt g 25) 8 8 ≤ 256
    && (g.drop 39).all (· = 0)
/-- R584. -/
def partitionOk (ws : List Nat) : Bool := ws.length % 48 = 0 && ws.length ≤ 1536 && (records 48 ws).all grantOk

/-- R208: `img` gives the grants. -/
def llsOk (img ws : List Nat) : Bool :=
  ws.length = 128 && ws.zipIdx.all (fun (w, i) => w ≤ 1 && (w = 0 || (match grantOf? img (i % 32) with
    | none => false
    | some g => grantWays g (i / 32) ≠ 0)))

/-- R228. -/
def hbmRegionOk (ws : List Nat) : Bool :=
  ws.length % 4 = 0 && between 1 32 (ws.length / 4) && (records 4 ws).all (fun r =>
    wordAt r 0 < 65536 && bitsOf (wordAt r 0) 0 8 ≠ 0 && bitsOf (wordAt r 0) 8 8 ≠ 0 && wordAt r 2 ≠ 0 && wordAt r 3 = 0)

/-- The role of module `m` in a roles word (R562). -/
def roleAt (w m : Nat) : Nat := bitsOf w (2 * m) 2
/-- R562. -/
def d2dRoleOk (ws : List Nat) : Bool :=
  ws.length = 8 && ws.all (· < 65536) && (ws.take 4).all (fun w => (List.range 8).all (fun m => roleAt w m < 2))

/-- R419: a port word. -/
def portWordOk (w : Nat) : Bool :=
  let ex := bitsOf w 16 9
  w < 2 ^ 25 && (ex = 0 || (List.range 9).any (fun i => ex = 2 ^ i))
    && (if ex = 0 then bitsOf w 12 4 ≤ 8 else bitsOf w 12 4 = 15)
/-- R419. -/
def portOk (ws : List Nat) : Bool :=
  let w := wordAt ws 68
  ws.length = 69 && (ws.take 64).all portWordOk && ((ws.drop 64).take 4).all (· ≤ 1)
    && (bitsOf w 0 16 = 0 || between 1000 60000 (bitsOf w 0 16)) && (bitsOf w 16 8 = 0 || between 4 24 (bitsOf w 16 8))
    && w < 2 ^ 24

/-- R325 and R344: a reach record of a granted partition. -/
def reachOk (r : List Nat) : Bool :=
  let n := bitsOf (wordAt r 1) 8 5
  within (wordAt r 0) 0x003FFFFF && between 1 32 (bitsOf (wordAt r 0) 10 6) && between 1 32 (bitsOf (wordAt r 0) 16 6)
    && within (wordAt r 1) 0x1F7F && n ≤ 16
    && ((r.drop 2).take n).all (fun w => w < 2 ^ 25 && bitsOf w 0 10 ≤ bitsOf w 10 10)
    && (r.drop (2 + n)).all (· = 0)
/-- R321: the format of a route entry of node `n` in the device of node `own`. -/
def routeWordOk (own w n : Nat) : Bool := w < 2 ^ 19 && bitsOf w 16 2 ≠ 3 && (bitsOf w 0 2 = 1) = (n = own)
/-- R344: the weights and the grants are all zero, or in range. -/
def routeCfgOk (ws : List Nat) : Bool :=
  let vw := (List.range 7).map (fun i => bitsOf (wordAt ws (1 + i / 4)) (8 * (i % 4)) 8)
  let cg := (List.range 8).map (fun v => bitsOf (wordAt ws (3 + v / 2)) (16 * (v % 2)) 16)
  ((wordAt ws 1 = 0 && wordAt ws 2 = 0) || (vw.all (1 ≤ ·) && vw.sum = 32 && wordAt ws 2 < 2 ^ 24))
    && (((ws.drop 3).take 4).all (· = 0) || (cg.all (16 ≤ ·) && cg.sum ≤ 4096))
/-- R344. -/
def routeOk (img ws : List Nat) : Bool :=
  let own := bitsOf (wordAt ws 0) 0 10
  ws.length = 1671 && wordAt ws 0 < 1024 && routeCfgOk ws
    && ((ws.drop 7).take 1024).zipIdx.all (fun (w, n) => routeWordOk own w n)
    && (recs 18 32 (ws.drop 1031)).zipIdx.all (fun (r, p) => match grantOf? img p with
      | some _ => reachOk r
      | none => r.all (· = 0))
    && (recs 2 32 (ws.drop 1607)).all (fun t => wordAt t 1 < 65536)

/-- The device's own physical node in a tree image. -/
def imgOwn (img : List Nat) : Nat := bitsOf (wordAt (sec img 8) 0) 0 10
/-- Physical nodes of the valid entries of an XLATE section. -/
def xlateNodes (ws : List Nat) : List Nat := (ws.filter (fun w => bitAt w 10)).map (fun w => bitsOf w 0 10)
/-- R319. -/
def xlateOk (img ws : List Nat) : Bool :=
  let v := xlateNodes ws
  ws.length = 1024 && ws.all (· < 2048) && (uniq v).length = v.length && v.contains (imgOwn img)
/-- The device's own logical node in a tree image. -/
def imgOwnLogical (img : List Nat) : Nat := ((sec img 9).findIdx? (fun w => w = 1024 + imgOwn img)).getD 0

/-- R311: the two words of a partition. -/
def stitchPartOk (img ws : List Nat) (p : Nat) : Bool :=
  let a := wordAt ws (4 + 2 * p)
  let b := wordAt ws (5 + 2 * p)
  match grantOf? img p with
  | none => a = 0 && b = 0
  | some _ => (if bitAt a 21 then between 10 1023 (bitsOf a 22 10) && bitsOf a 22 10 < 100 * bitsOf (wordAt ws 0) 0 7
                else bitsOf a 22 10 = 0)
      && between 1 32 (bitsOf b 10 6) && between 1 32 (bitsOf b 16 6) && within b 0x003FFFFF
      && inRect b (imgOwnLogical img)
/-- R311. -/
def stitchOk (img ws : List Nat) : Bool :=
  let role := bitsOf (wordAt ws 0) 8 2
  let inp := (List.range 4).map (fun i => bitsOf (wordAt ws 2) (8 * i) 8)
  ws.length = 68 && within (wordAt ws 0) 0x37F && role ≠ 3
    && within (wordAt ws 1) 0xFFFF03FF && (if role = 2 then wordAt ws 1 / 65536 ≠ 0 else wordAt ws 1 / 65536 = 0)
    && inp.all (fun k => k < 64 || k = 255) && (role ≠ 1 || inp.all (· = 255))
    && wordAt ws 3 < 2048 && (bitAt (wordAt ws 3) 10 || wordAt ws 3 = 0)
    && (role ≠ 2 || wordAt ws 3 = 1024 + imgOwn img)
    && (List.range 32).all (stitchPartOk img ws)

/-- A field, or its default when it is zero. -/
def orDefault (x d : Nat) : Nat := if x = 0 then d else x
/-- The words of a POWER section with its defaults (R538). -/
def powerWords (ws : List Nat) : List Nat :=
  let b := wordAt ws 1
  let c := wordAt ws 2
  [wordAt ws 0, bitsOf b 0 16 + orDefault (bitsOf b 16 16) 1000 * 65536,
   orDefault (bitsOf c 0 9) 430 + orDefault (bitsOf c 9 7) 50 * 512 + bitsOf c 16 1 * 65536, 0]
/-- R538, POWER. -/
def powerOk (ws : List Nat) : Bool :=
  let d := powerWords ws
  let lim := bitsOf (wordAt ws 0) 0 16
  ws.length = 4 && between 1000 2800 lim && between lim 3200 (wordAt ws 0 / 65536)
    && between 1 lim (bitsOf (wordAt ws 1) 0 16) && between 100 10000 (wordAt d 1 / 65536)
    && between 405 460 (bitsOf (wordAt d 2) 0 9) && between 25 100 (bitsOf (wordAt d 2) 9 7)
    && wordAt ws 2 < 2 ^ 17 && wordAt ws 3 = 0

/-- Default throttle limit, default and highest critical limit by class (R530), in degC. -/
def thermalClass (c : Nat) : Nat × Nat × Nat :=
  if c = 0 then (105, 115, 118) else if c = 1 then (100, 110, 113) else if c = 2 then (80, 88, 90) else (95, 103, 105)
/-- A word of a THERMAL section with its defaults (R530, R531). -/
def thermalWord (c w : Nat) : Nat :=
  let (t, k, _) := thermalClass c
  orDefault (bitsOf w 0 8) t + orDefault (bitsOf w 8 8) k * 256 + orDefault (bitsOf w 16 8) 15 * 65536
    + orDefault (bitsOf w 24 8) 4 * 2 ^ 24
/-- R538, THERMAL. -/
def thermalOk (ws : List Nat) : Bool :=
  ws.length = 4 && ws.zipIdx.all (fun (w0, c) =>
    let w := thermalWord c w0
    bitsOf w 8 8 ≤ (thermalClass c).2.2 && 40 ≤ bitsOf w 0 8 && bitsOf w 0 8 + 5 ≤ bitsOf w 8 8
      && between 5 50 (bitsOf w 16 8) && between 1 16 (bitsOf w 24 8))

/-- R420. -/
def ethernetOk (ws : List Nat) : Bool :=
  let n := wordAt ws 87
  ws.length = 88 + 7 * n && n ≤ 64 && between 1024 65535 (wordAt ws 0) && wordAt ws 86 < 65536

/-- The format of every section of a tree image (row 2 of R41's order). -/
def treeSectionsOk (img : List Nat) : Bool :=
  let opt (t : Nat) (f : List Nat → Bool) : Bool := (sectionsOf img t).all f
  opt 1 coreMapOk && opt 2 stripShapeOk && opt 3 partitionOk && opt 4 (llsOk img) && opt 5 hbmRegionOk && opt 6 d2dRoleOk
    && opt 7 portOk && opt 8 (routeOk img) && opt 9 (xlateOk img) && opt 10 (stitchOk img) && opt 11 powerOk
    && opt 12 thermalOk && opt 13 ethernetOk && opt 14 (fun ws => ws.length = 12)

/-! ## Values that a tree image gives, defaults applied -/

/-- The roles of the eight links (R15, R562). -/
def d2dRoles (img : List Nat) : List Nat :=
  (sec? img 6).getD [0x5500, 0x5500, 0x5500, 0x5500, 0xEA90, 0xEA90, 0xEA90, 0xEA90]
/-- The PORT words with the defaults of word 68 (R419). -/
def portWords (img : List Nat) : List Nat :=
  let ws := sec img 7
  ws.take 68 ++ [orDefault (bitsOf (wordAt ws 68) 0 16) 10000 + orDefault (bitsOf (wordAt ws 68) 16 8) 12 * 65536]
/-- The ROUTE words with the default weights and grants (R338, R344). -/
def routeWords (img : List Nat) : List Nat :=
  let ws := sec img 8
  let vw := if wordAt ws 1 = 0 ∧ wordAt ws 2 = 0 then [4 + 6 * 2 ^ 8 + 6 * 2 ^ 16 + 8 * 2 ^ 24, 4 + 2 * 2 ^ 8 + 2 * 2 ^ 16]
    else (ws.drop 1).take 2
  let cg := if ((ws.drop 3).take 4).all (· = 0) then
      [32 + 512 * 65536, 768 + 768 * 65536, 1024 + 512 * 65536, 320 + 160 * 65536]
    else (ws.drop 3).take 4
  ws.take 1 ++ vw ++ cg ++ ws.drop 7
/-- The THERMAL words with their defaults. -/
def thermalWords (img : List Nat) : List Nat := (sec img 12).zipIdx.map (fun (w, c) => thermalWord c w)
/-- The word of HBM_REGION[i]: mask, weight, base, valid, size. -/
def hbmRegionReg (img : List Nat) (i : Nat) : Nat :=
  match (records 4 (sec img 5))[i]? with
  | none => 0
  | some r => wordAt r 0 % 2 ^ 16 + wordAt r 1 % 2 ^ 19 * 2 ^ HbmRegion.base.lo + 2 ^ HbmRegion.valid.lo
      + wordAt r 2 % 2 ^ 28 * 2 ^ HbmRegion.size.lo

/-- The canonical read-back (R44). -/
def readBack (img : List Nat) : List Byte :=
  let part (t : Nat) (ws : List Nat) : List Byte := leBytes 4 t ++ leBytes 4 ws.length ++ wordBytes ws
  part 1 (sec img 1) ++ part 2 ((sec? img 2).getD (List.replicate 528 0))
    ++ part 3 ((List.range 32).flatMap (fun p => (grantOf? img p).getD (List.replicate 48 0xFFFFFFFF)))
    ++ part 4 (sec img 4)
    ++ part 5 ((List.range 32).flatMap (fun i => [hbmRegionReg img i % 2 ^ 32, hbmRegionReg img i / 2 ^ 32]))
    ++ part 6 (d2dRoles img) ++ part 7 (portWords img) ++ part 8 (routeWords img) ++ part 9 (sec img 9)
    ++ part 10 (sec img 10) ++ part 11 (powerWords (sec img 11)) ++ part 12 (thermalWords img)
    ++ part 13 ((sec? img 13).getD [0])
/-- Whether the read-back has the digest of STRUCT_DIGEST (R43, R45). -/
def digestOk (img : List Nat) : Bool := sha384 (readBack img) = wordBytes (sec img 14)

/-! ## The rows of R41 -/

/-- Blocks of a region of `size` blocks on `ns` stacks that map to the i-th stack (R230, R231). -/
def blocksOn (size ns i : Nat) : Nat := (size + ns - 1 - i) / ns
/-- The stacks of a mask, ascending. -/
def stacksOf (mask : Nat) : List Nat := (List.range 8).filter (bitAt mask)
/-- The channel blocks that a region record takes in each of its stacks: stack, first, end (R231). -/
def regionSpans (nc : Nat → Nat) (r : List Nat) : List (Nat × Nat × Nat) :=
  let ss := stacksOf (wordAt r 0 % 256)
  ss.zipIdx.map (fun (k, i) => (k, wordAt r 1, wordAt r 1 + (blocksOn (wordAt r 2) ss.length i + nc k - 1) / nc k))
/-- Whether two regions share a channel block. -/
def spansMeet (a b : List (Nat × Nat × Nat)) : Bool :=
  a.any (fun (k, x, y) => b.any (fun (k', x', y') => k = k' && max x x' < min y y'))
/-- No list of spans meets a later one. -/
def spansApart : List (List (Nat × Nat × Nat)) → Bool
  | [] => true
  | a :: r => r.all (fun b => !spansMeet a b) && spansApart r
/-- R231 with `nc k` working channels in stack `k`. -/
def regionsFit (nc : Nat → Nat) (img : List Nat) : Bool :=
  let sp := (records 4 (sec img 5)).map (regionSpans nc)
  (stacksOf 255).all (fun k => nc k ≠ 0 || sp.all (fun l => l.all (fun (k', _) => k' ≠ k)))
    && sp.all (fun l => l.all (fun (_, b, e) => b < 524288 && e ≤ 524288)) && spansApart sp

/-- Logical IDs in the order of physical index, of the enabled cores (R9). -/
def enabledIds (img : List Nat) : List Nat := ((sec img 1).filter (fun w => w % 2 = 1)).map (fun w => w / 2)
/-- Physical cores by logical ID. -/
def coreMap (img : List Nat) : List (Nat × Nat) :=
  ((sec img 1).zipIdx.filter (fun (w, _) => w % 2 = 1)).map (fun (w, i) => (w / 2, i))
/-- Row 1: at most 128 cores per die, dense logical IDs in ascending order of die, every enabled core usable (R9, R10,
R110). `usable` says which physical cores passed screening and lie on a working die. -/
def treeRow1 (usable : Nat → Bool) (img : List Nat) : Bool :=
  let cores := coreMap img
  let n := cores.length
  (List.range 4).all (fun d => cores.countP (fun (_, i) => dieOf i = d) ≤ 128)
    && (uniq (enabledIds img)).length = n && (enabledIds img).all (· < n)
    && cores.all (fun (l, i) => usable i && cores.all (fun (l', i') => dieOf i ≥ dieOf i' || l < l'))
/-- Row 2. -/
def treeRow2 (img : List Nat) : Bool :=
  let n := (enabledIds img).length
  let gs := grantRecords img
  (List.range 512).all (fun c => let k := gs.countP (fun g => grantCore g c)
                                 k = 0 || (k = 1 && c < n))
/-- Row 3. -/
def treeRow3 (img : List Nat) : Bool := (List.range 4).all (fun d => ((grantRecords img).map (fun g => grantWays g d)).sum ≤ 16)
/-- Row 4 (R229, R231). -/
def treeRow4 (img : List Nat) : Bool :=
  let used := ((grantRecords img).map (fun g => wordAt g 18)).filter (· ≠ 0xFFFFFFFF)
  regionsFit (fun _ => 32) img && used.all (· < (sec img 5).length / 4) && (uniq used).length = used.length
/-- Row 5 (R14). -/
def treeRow5 (img : List Nat) : Bool :=
  ((d2dRoles img).drop 4).all (fun w => (List.range 8).any (fun m => roleAt w m = 3) && (List.range 8).any (fun m => roleAt w m = 2))
/-- Row 6. -/
def treeRow6 (img : List Nat) : Bool := ((grantRecords img).map (fun g => wordAt g 26)).sum ≤ bitsOf (wordAt (sec img 11) 1) 0 16
/-- Row 7. -/
def treeRow7 (img : List Nat) : Bool := between 2 64 (bitsOf (wordAt (sec img 10) 0) 0 7)
/-- Whether the tack ranges or cinch bitmaps of two grants overlap. -/
def grantsMeet (a b : List Nat) : Bool :=
  let lo (g : List Nat) : Nat := bitsOf (wordAt g 22) 0 10
  let n (g : List Nat) : Nat := bitsOf (wordAt g 22) 16 11
  (n a ≠ 0 && n b ≠ 0 && lo a < lo b + n b && lo b < lo a + n a)
    || wordAt a 23 &&& wordAt b 23 ≠ 0 || wordAt a 24 &&& wordAt b 24 ≠ 0
/-- No grant meets a later one. -/
def grantsApart : List (List Nat) → Bool
  | [] => true
  | a :: r => r.all (fun b => !grantsMeet a b) && grantsApart r
/-- Row 8. -/
def treeRow8 (img : List Nat) : Bool := grantsApart (grantRecords img)
/-- w(p, v) of R339 as an image gives it, v from 1 to 6. -/
def imgWeight (img : List Nat) (p v : Nat) : Nat :=
  match grantOf? img p with
  | some g => bitsOf (wordAt g (20 + v / 4)) (8 * (v % 4)) 8
  | none => bitsOf (wordAt (sec img 8) (1607 + 2 * p + (v - 1) / 4)) (8 * ((v - 1) % 4)) 8
/-- Row 9. -/
def treeRow9 (img : List Nat) : Bool :=
  [1, 2, 3, 4, 5, 6].all (fun v => ((List.range 32).map (fun p => imgWeight img p v)).sum ≤ 32)
/-- Row 10 for the entry `w` of node `n` (R321). -/
def treeRow10Entry (img : List Nat) (w n : Nat) : Bool :=
  let own := imgOwn img
  let a := bitsOf w 2 7
  let b := bitsOf w 9 7
  let lit (k : Nat) : Bool := k < 64 && bitsOf (wordAt (sec img 7) k) 0 2 ≠ 0
  let partner (k : Nat) : Nat := bitsOf (wordAt (sec img 7) k) 2 10
  let row (x : Nat) : Nat := x / 32
  let col (x : Nat) : Nat := x % 32
  if bitsOf w 0 2 = 2 then
    lit a && partner a = n && (b = 0x7F || (lit b && (row (partner b) = row own || col (partner b) = col own)))
  else if bitsOf w 0 2 = 3 then
    lit a && row (partner a) = row own && col (partner a) = col n
      && (b = 0x7F || (lit b && row (partner b) = row n && col (partner b) = col own))
  else true
/-- Row 10. -/
def treeRow10 (img : List Nat) : Bool := (((sec img 8).drop 7).take 1024).zipIdx.all (fun (w, n) => treeRow10Entry img w n)
/-- Row 11. -/
def treeRow11 (img : List Nat) : Bool :=
  let ps := (grantRecords img).map (fun g => wordAt g 0)
  (uniq ps).length = ps.length
/-- Whether dies `a` and `b` have a path with modules of a role (R16, R17). -/
def diePath (roles : List Nat) (role a b : Nat) : Bool :=
  let has (l : Nat) : Bool := (List.range 8).any (fun m => roleAt (wordAt roles l) m = role)
  a = b || ((b = (a + 1) % 4 && has a) || (a = (b + 1) % 4 && has b)) || (has (4 + a) && has (4 + b))
/-- Row 12 for a grant. -/
def treeRow12Grant (img : List Nat) (g : List Nat) : Bool :=
  let roles := d2dRoles img
  let dies := uniq (((coreMap img).filter (fun (c, _) => grantCore g c)).map (fun (_, i) => dieOf i))
  let mask := match (records 4 (sec img 5))[wordAt g 18]? with
    | none => 0
    | some r => wordAt r 0 % 256
  let mems := (List.range 4).filter (fun d => grantWays g d ≠ 0 || (stacksOf mask).any (fun k => k / 2 = d))
  dies.all (fun d => mems.all (diePath roles 0 d) && dies.all (diePath roles 1 d))
/-- Row 12. -/
def treeRow12 (img : List Nat) : Bool := (grantRecords img).all (treeRow12Grant img)

/-- The lowest row of R41 that fails, if any. -/
def failingRow (usable : Nat → Bool) (img : List Nat) : Option Nat :=
  ([treeRow1 usable, treeRow2, treeRow3, treeRow4, treeRow5, treeRow6, treeRow7, treeRow8, treeRow9, treeRow10, treeRow11, treeRow12].findIdx? (fun f => !f img)).map (· + 1)

/-! ## Keys (R29 to R34) -/

/-- The signature block. -/
def sigBlock (ws : List Nat) : List Nat := ws.drop (ws.length - 49)
/-- The SHA-384 of the public key in the signature block. -/
def keyDigest (ws : List Nat) : List Byte := sha384 ([4] ++ wordBytes (((sigBlock ws).drop 1).take 24))
/-- Whether the signature of an image verifies (R29, R31). -/
def signatureOk (img : List (BitVec 64)) : Bool :=
  let b := sigBlock (grains img)
  ecdsaVerify (wordNat ((b.drop 1).take 12)) (wordNat ((b.drop 13).take 12)) (wordNat ((b.drop 25).take 12))
    (wordNat ((b.drop 37).take 12)) (beNat (sha384 (imageBytes (img.take (img.length - 24)))))
/-- The key rule of a tree image (R31). -/
def State.treeKeyOk (s : State) (img : List (BitVec 64)) : Bool :=
  let ws := grains img
  let slot := wordAt (sigBlock ws) 0
  slot ≤ 3 && bitAt (s.fld .harnFuse HarnFuse.keyPresent) slot && !bitAt (s.fld .harnFuse HarnFuse.keyRevoked) slot
    && s.pkg.keySlots.getD slot 0 = leNat (keyDigest ws) && signatureOk img

/-- Whether a physical core passed screening and lies on a working die (R110). -/
def State.coreUsable (s : State) (phys : Nat) : Bool :=
  bitAt (s.fld (.devCoreGood (phys / 64)) DevCoreGood.good) (phys % 64) && bitAt (s.fld .devDie DevDie.ok) (dieOf phys)

/-- The first failure of step 1 of R42 over a whole image that was read, with its code and detail (R41). -/
def State.treeCheck (s : State) (img : List (BitVec 64)) : Option (Nat × Nat) :=
  let ws := grains img
  if imgKind ws ≠ 1 then some (0x4201, 0)
  else if !img.all gfOk then some (0x4202, 0)
  else if !(headerOk 1 ws img.length && directoryOk 1 ws img.length && treeSectionsOk ws) then some (0x4201, 0)
  else if !s.treeKeyOk img then some (0x4203, 0)
  else if wordAt ws 5 < s.fld .harnFuse HarnFuse.minSequence then some (0x4204, 0)
  else (failingRow s.coreUsable ws).map (fun r => (0x4205, r))

/-! ## Strap images -/

/-- R111: the format of a PROGRAM section of a given length from its 32 header words. -/
def programOk (h : List Nat) (len : Nat) : Bool :=
  32 ≤ len && len = 32 + (wordAt h 2 + 3) / 4 && ((h.take 32).drop 19).all (· = 0) && wordAt h 1 % 128 = 0
    && ((h.drop 3).take 8).all (fun e => e = 0xFFFFFFFF || e % 4 = 0)
/-- The program bytes of a PROGRAM section. -/
def programBytes (sec : List Nat) : List Byte := (wordBytes (sec.drop 32)).take (wordAt sec 2)
/-- Whether the padding bits of the last word of a PROGRAM section are clear (R111). -/
def programPadOk (sec : List Nat) : Bool := (((wordBytes (sec.drop 32)).drop (wordAt sec 2)).all (· = 0))
/-- The envelope of a PROGRAM header (R106, R111). -/
def programEnv (h : List Nat) : List Nat :=
  [wordAt h 11, wordAt h 12, wordAt h 13, wordAt h 14, wordAt h 15 + wordAt h 16 * 2 ^ 32, wordAt h 17 + wordAt h 18 * 2 ^ 32]

/-- A bitmap packed 32 bits to a word. -/
def bitmapAt (ws : List Nat) (i : Nat) : Bool := bitAt (wordAt ws (i / 32)) (i % 32)
/-- The number that a bitmap of words spells. -/
def bitmapNat (ws : List Nat) : Nat := leNat (wordBytes ws)
/-- Strictly rising numbers. -/
def rising : List Nat → Bool
  | a :: b :: r => a < b && rising (b :: r)
  | _ => true
/-- The core entries of a SYNC_USE section. -/
def syncCores (ws : List Nat) : List (List Nat) := recs 3 (wordAt ws 0) (ws.drop 98)
/-- The cinch entries of a SYNC_USE section. -/
def syncCinches (ws : List Nat) : List (List Nat) := recs 17 (wordAt ws 1) (ws.drop (98 + 3 * wordAt ws 0))
/-- R280, first group. -/
def syncUseOk (ws : List Nat) : Bool :=
  wordAt ws 0 ≤ 512 && wordAt ws 1 ≤ 64 && ws.length = 98 + 3 * wordAt ws 0 + 17 * wordAt ws 1
    && rising ((syncCores ws).map (fun e => wordAt e 0)) && (syncCores ws).all (fun e => wordAt e 0 ≤ 511)
    && rising ((syncCinches ws).map (fun e => bitsOf (wordAt e 0) 0 6)) && (syncCinches ws).all (fun e => within (wordAt e 0) 0xFF7F)
/-- Whether the words of a cinch entry name only cores of a set. -/
def cinchCores (e : List Nat) : List Nat := (List.range 512).filter (fun c => bitmapAt (e.drop 1) c)

/-- R280, second group, for partition `p`. -/
def State.syncUseGranted (s : State) (p : Nat) (ws : List Nat) : Bool :=
  let used := bitmapNat ((ws.drop 2).take 32)
  let settable := bitmapNat ((ws.drop 34).take 32)
  let init := bitmapNat ((ws.drop 66).take 32)
  let lo := bitsOf (s.grantWord p 22) 0 10
  let n := bitsOf (s.grantWord p 22) 16 11
  (syncCores ws).all (fun e => s.granted p (wordAt e 0) && within (wordAt e 2) (wordAt e 1))
    && used / 2 ^ lo % 2 ^ n * 2 ^ lo = used && within settable used && within init used
    && (syncCinches ws).all (fun e =>
      let l := bitsOf (wordAt e 0) 0 6
      bitAt (s.grantWord p (23 + l / 32)) (l % 32) && bitsOf (wordAt e 0) 8 8 ≠ 0 && (cinchCores e).all (s.granted p)
        && (!bitAt (wordAt e 0) 6 || !(cinchCores e).isEmpty))

/-- The entries of a REGION_TABLE section (R366). -/
def regionEntries (ws : List Nat) : List (List Nat) := recs 4 (wordAt ws 0) (ws.drop 1)

end Sys2Proof.Machine
end

