-- ==== Sys2Proof/Machine/Lanes.lean ====
section
/-! DEFINITION. The lines of the optical ports (R385 to R389, R395): what a port's optics hold, the lines of a direction and
their lanes, the rings, the transmit gates and the lane tags. -/
namespace Sys2Proof.Machine

/-! ## Ports -/

/-- Optics of a port that has not trained. -/
def Opt.idle : Opt :=
  { trainStep := 0, lines := 511, peerRetired := 0, doneSent := false, doneGot := false, echoes := 0, echoSum := 0,
    txBurn := none, rxBurn := none, due := [], urgent := [], recovers := [], noTag := 0, txOut := [], sweeps := [],
    txSeven := false, rxSeven := false, seekWait := false, moves := [], peerPort := none, asked := [], burnt := [] }
/-- The optics of a port. -/
def State.opt (s : State) (k : Nat) : Opt := mget s.fab.opts k Opt.idle
/-- Change the optics of a port. -/
def State.modOpt (s : State) (k : Nat) (f : Opt → Opt) : State := { s with fab := { s.fab with opts := mset s.fab.opts k (f (s.opt k)) } }
/-- Put a port in a state (R395), with FAB_PORT_STATE.carrying (R322). A frame that was leaving an Ethernet port stays queued
(R413). -/
def State.setPort (s : State) (k st : Nat) : State :=
  let s1 := s.setFld (.optPortState k) OptPortState.state st
  if k < 64 then s1.setFld (.fabPortState k) FabPortState.carrying (b2n (3 ≤ st ∧ st ≤ 5))
  else if st = 3 then s1
  else { s1 with eth := { s1.eth with sending := mdel s1.eth.sending (k - 64) } }

/-! ## The committed image -/

/-- Word `i` of section `t` of the committed tree image (R38); 0 while no tree is live. -/
def State.staged (s : State) (t i : Nat) : Nat :=
  if s.fld .stchStatus StchStatus.state = 0 then 0 else wordAt (sec (grains s.harn.staging) t) i

/-! ## Lines -/

/-- A set of lines has line `l`. -/
def hasLine (m : BitVec 9) (l : Nat) : Bool := m.getLsbD l
/-- The lines that the PORT section excludes (R419). -/
def State.excluded (s : State) (k : Nat) : Nat := bitsOf (s.staged 7 k) 16 9
/-- The spare that the PORT section gives, 15 for none. -/
def State.portSpare (s : State) (k : Nat) : Nat := bitsOf (s.staged 7 k) 12 4
/-- Retired lines of a direction. -/
def State.retiredLines (s : State) (k : Nat) (rx : Bool) : Nat :=
  s.fld (.optPortState k) (if rx then OptPortState.rxRetired else OptPortState.txRetired)
/-- The spare of a direction now, 15 for none. -/
def State.spareNow (s : State) (k : Nat) (rx : Bool) : Nat :=
  s.fld (.optPortState k) (if rx then OptPortState.rxSpare else OptPortState.txSpare)
/-- The usable lines of a direction, ascending: not excluded, not retired at either end, and found good by training. -/
def State.usable (s : State) (k : Nat) (rx : Bool) : List Nat :=
  (List.range 9).filter (fun l => !bitAt (s.excluded k) l && !bitAt (s.retiredLines k rx) l
    && (if rx then hasLine (s.opt k).lines l else !hasLine (s.opt k).peerRetired l))

/-- The register of a line. -/
def lineReg (k : Nat) (rx : Bool) (l : Nat) : Reg := if rx then .optRxLine k l else .optTxLine k l
/-- Put the lane that a line carries (15: none). -/
def State.setLane (s : State) (k : Nat) (rx : Bool) (l lane : Nat) : State := s.setFld (lineReg k rx l) OptTxLine.lane lane
/-- Put the state of a line's ring: 0 off, 1 sweeping, 2 locked, 3 alarm, 4 retired. -/
def State.setRing (s : State) (k : Nat) (rx : Bool) (l st : Nat) : State := s.setFld (lineReg k rx l) OptTxLine.state st
/-- The lane that a line carries. -/
def State.laneOf (s : State) (k : Nat) (rx : Bool) (l : Nat) : Nat := s.fld (lineReg k rx l) OptTxLine.lane

/-- The lanes of a direction that starts to carry (R387, R388): in ascending order on its lines but the spare; a
direction on seven lines has no fixed lanes. -/
def State.layLanes (s : State) (k : Nat) (rx : Bool) : State :=
  let us := s.usable k rx
  let sp := if us.length = 9 then s.portSpare k else 15
  let carry := us.filter (· ≠ sp)
  let s1 := s.setFld (.optPortState k) (if rx then OptPortState.rxSpare else OptPortState.txSpare) sp
  (List.range 9).foldl (fun t l =>
    let lane := if carry.length = 8 then (match carry.findIdx? (· = l) with
      | some i => i
      | none => 15) else 15
    let st := if bitAt (s.retiredLines k rx) l then 4 else if us.contains l then 2 else 0
    (t.setLane k rx l lane).setRing k rx l st) s1

/-- Lines of a port: nine of a fabric port (R386), the eight lanes of an Ethernet port (R422). -/
def lineCount (k : Nat) : Nat := if k < 64 then 9 else 8
/-- Put the rings of a direction that carries no lane in state `st`: off, sweeping or locked; an excluded line's ring is off, a
retired line's stays retired (R407, R422). -/
def State.putRings (s : State) (k : Nat) (rx : Bool) (st : Nat) : State :=
  (List.range (lineCount k)).foldl (fun t l => (t.setLane k rx l 15).setRing k rx l
    (if k < 64 ∧ bitAt (t.retiredLines k rx) l then 4 else if k < 64 ∧ bitAt (t.excluded k) l then 0 else st)) s
/-- Turn every ring of a port off (R395). -/
def State.ringsOff (s : State) (k : Nat) : State := (s.putRings k true 0).putRings k false 0
/-- The rings of a port in Seek: the receive rings sweep for the partner's tags; an Ethernet port, whose gate is open, sweeps
its transmit rings too (R395, R413; assumption 76). -/
def State.seekRings (s : State) (k : Nat) : State := (s.putRings k true 1).putRings k false (if k < 64 then 0 else 1)
/-- The eight lanes of an Ethernet port that is Up, each on its line (R413, R422). -/
def State.ethLanes (s : State) (k : Nat) : State :=
  (List.range 8).foldl (fun t l => [true, false].foldl (fun u rx => (u.setLane k rx l l).setRing k rx l 2) t) s

/-- Lines of a direction that are out for calibration or recovery: until its lane has moved, a burnish takes the spare
(R402, R405). -/
def State.outLines (s : State) (k : Nat) (rx : Bool) : List Nat :=
  let o := s.opt k
  let burn (b : Option Burn) : List Nat := match b with
    | some x => if x.step ≥ 4 then [x.line] else [x.spare]
    | none => []
  if rx then burn o.rxBurn ++ o.recovers.map (fun r => r.line) else burn o.txBurn ++ o.txOut ++ o.sweeps
/-- Lines of a direction that can carry now. -/
def State.workLines (s : State) (k : Nat) (rx : Bool) : List Nat := (s.usable k rx).filter (fun l => !(s.outLines k rx).contains l)
/-- How many they are. -/
def State.working (s : State) (k : Nat) (rx : Bool) : Nat := (s.workLines k rx).length
/-- The line of segment `i` of flit `f` (R328, R388): on seven working lines (8f + i) mod 7 counts them in ascending order,
else the line of lane `i`. -/
def State.segmentLine (s : State) (k : Nat) (rx : Bool) (f i : Nat) : Option Nat :=
  if s.working k rx = 7 then (s.workLines k rx)[(8 * f + i) % 7]? else (List.range 9).find? (fun l => s.laneOf k rx l = i)

/-! ## Feeds, gates and receivers (R384, R385, R394) -/

/-- The feed of a port (R384). -/
def feedOf (k : Nat) : Nat := if k < 64 then k / 4 else 16 + (k - 64)
/-- The ports that a feed serves (R384). -/
def feedPorts (j : Nat) : List Nat := if j < 16 then (List.range 4).map (fun i => 4 * j + i) else [64 + (j - 16)]
/-- The loopback mode of a port. -/
def State.loopMode (s : State) (k : Nat) : Nat := s.fld (.optPortCtl k) OptPortCtl.loop
/-- Whether a loopback holds a port out of Train (R418). -/
def State.loopHolds (s : State) (k : Nat) : Bool := s.loopMode k ≠ 0 && s.loopMode k ≠ 5
/-- Whether the feed of a port is low. -/
def State.feedLow (s : State) (k : Nat) : Bool := s.fld (.optFeed (feedOf k)) OptFeed.low = 1
/-- Whether the shutter of a feed is open: not while every port it serves is Dark without a loopback (R385). -/
def State.shutterOpen (s : State) (j : Nat) : Bool := !((feedPorts j).all (fun k => s.portState k = 0 && s.loopMode k = 0))
/-- Whether the transmit gate of a port is open (R385, R394, R413). -/
def State.gateOpen (s : State) (k : Nat) : Bool :=
  !s.feedLow k && ((if k < 64 then s.portState k = 2 || s.carrying k else s.portState k = 1 || s.portState k = 3)
    || s.loopMode k = 4 || s.loopMode k = 6)
/-- Whether the receivers of a port are powered (R385). -/
def State.rxPowered (s : State) (k : Nat) : Bool := s.portState k ≠ 0 || s.loopMode k = 3 || s.loopMode k = 4 || s.loopMode k = 6

/-! ## Lane tags (R389) -/

/-- One bit of the CRC-16 of lane tags. -/
def crc16Bit (x : Nat) : Nat := if x ≥ 2 ^ 15 then (x * 2 % 2 ^ 16) ^^^ 0x1021 else x * 2
/-- The CRC-16 of lane tags (R389). -/
def crc16 (bs : List Byte) : Nat :=
  bs.foldl (fun x b => (List.range 8).foldl (fun y _ => crc16Bit y) (x ^^^ (b.toNat * 2 ^ 8))) 0xFFFF
/-- The copy that a transmit direction carries during a swap, as (line, lane): lane i on the spare from step 1 of a burnish to
its SWAP, and on its own line again from step 5 to the SWAP back (R402). -/
def State.copyOn (s : State) (k : Nat) : Option (Nat × Nat) :=
  match (s.opt k).txBurn with
  | none => none
  | some b =>
    if b.step = 1 then some (b.spare, b.lane)
    else if b.step = 5 then ((s.opt k).moves.find? (fun m => !m.rx && m.line = b.line)).map (fun m => (b.line, m.lane))
    else none
/-- The lane tag that a transmit line carries (R389). -/
def State.tagOf (s : State) (k l : Nat) : List Byte :=
  let copy := (s.copyOn k).filter (fun x => x.1 = l)
  let lane := match copy with
    | some x => x.2
    | none => s.laneOf k false l
  let b := leBytes 2 (s.ownNode + k * 1024) ++ leBytes 1 (lane + l * 16)
    ++ leBytes 1 (b2n (s.portState k = 2) + 2 * b2n copy.isSome) ++ leBytes 2 s.count
  b ++ leBytes 2 (crc16 b)
/-- The tags that leave after a MARKER, one on each usable line (R389; assumption 76). -/
def State.sendTags (s : State) (k : Nat) : State := (s.usable k false).foldl (fun t l => t.emit (.laneTag k l (s.tagOf k l))) s

end Sys2Proof.Machine
end

