-- ==== Sys2Proof/Machine/Link.lean ====
section
/-! DEFINITION. The Iborox link layer of the fabric ports (R328 to R337, R340 to R343), forwarding (R323, R324), the
credit counters, their audit and resynchronisation (R460 to R468), the death of a link (R469 to R472) and packet aborts
(R471), with the meanings of their commands. -/
namespace Sys2Proof.Machine

/-! ## Flits (R329, R330) -/

/-- One step of the link CRC's register. -/
def crc64Bit (x : Nat) : Nat := if x ≥ 2 ^ 63 then (x * 2 % 2 ^ 64) ^^^ 0x42F0E1EBA9EA3693 else x * 2
/-- One byte of the link CRC. -/
def crc64Byte (x : Nat) (b : Byte) : Nat := (List.range 8).foldl (fun y _ => crc64Bit y) (x ^^^ (b.toNat * 2 ^ 56))
/-- The link CRC (R330). -/
def crc64 (bs : List Byte) : Nat := bs.foldl crc64Byte (2 ^ 64 - 1) ^^^ (2 ^ 64 - 1)

/-- The 16 bytes of a CTRL message (R400); a SWAP or LANE_MOVE has its new line in byte 3. -/
def Ctrl.bytes (m : Ctrl) : List Byte :=
  leBytes 1 m.kind ++ leBytes 1 m.line ++ leBytes 1 m.lane ++ leBytes 1 m.newLine ++ [0, 0, 0, 0] ++ leBytes 8 m.value.toNat

/-- A CTRL message of a credit exchange (R465). -/
def credMsg (kind j epoch seq credits : Nat) : Ctrl :=
  ⟨kind, 0, 0, 0, BitVec.ofNat 64 (j % 256 + epoch % 256 * 2 ^ 8 + seq % 4096 * 2 ^ 16 + credits % 8192 * 2 ^ 32)⟩

/-! ## Counters of a pair -/

/-- H of a pair. -/
def Link.held (l : Link) (j : Nat) : Nat := mget l.h j 0
/-- Buffers of a pair that are free and not lent. -/
def Link.unissued (l : Link) (j : Nat) : Nat := mget l.o j 0 - mget l.occ j 0
/-- Add to a wrapping counter. -/
def bump (m : SMap Nat) (j n : Nat) : SMap Nat := mset m j ((mget m j 0 + n) % 2 ^ 32)
/-- The resynchronisation of a pair and direction, if one runs. -/
def Link.sync (l : Link) (j : Nat) (snd : Bool) : Option Resync := l.resyncs.find? (fun r => r.pair = j ∧ r.asSender = snd)

/-- Whether this end may issue credits of a pair (R341, R466): not Fenced, the partition Armed or in transit, no
resynchronisation that holds them. -/
def State.mayIssue (s : State) (k j : Nat) : Bool :=
  s.devState ≠ 3 && (j < 2 || (match mfind s.parts (pairPart j) with
    | some _ => s.partState (pairPart j) = 2
    | none => s.weight (pairPart j) (pairVc j) ≠ 0)) && ((s.link k).sync j false).isNone

/-- The credits that the next flit returns: the lowest pair with any, at most 255 (DESIGN CHOICE, assumption 40). -/
def State.creditReturn (s : State) (k : Nat) : Nat × Nat :=
  if !s.carrying k then (0, 0)
  else match (List.range pairCount).find? (fun j => (s.link k).unissued j ≠ 0 && s.mayIssue k j) with
    | none => (0, 0)
    | some j => (j, min 255 ((s.link k).unissued j))

/-- The link layer of a port that carries no traffic: what its last run leaves are the replays and the largest queues of the
stitch (R349, R350), the stitches of its credit faults (R468) and the resynchronisations counted. -/
def Link.stopped (l : Link) : Link :=
  { Link.idle with replayNow := l.replayNow, peak := l.peak, faultAt := l.faultAt, resyncCount := l.resyncCount }

/-- A port starts to carry traffic (R341, R472): every counter starts again, with O at the pair's grant. CTRL messages
that wait to leave stay. -/
def State.startCarrying (s : State) (k : Nat) : State :=
  (s.modLink k (fun l => { l.stopped with
    ctrl := l.ctrl, reqs := l.reqs,
    o := (List.range pairCount).filterMap (fun j => if s.pairGrant j = 0 then none else some (j, s.pairGrant j)) })).satFld
    (.fabConsStat k) FabConsStat.starts 1

/-! ## Sending a flit -/

/-- Send one flit (R329 to R331) that returns `cr.2` credits of pair `cr.1`: its header carries ack, nak and the credits. A
flit that is sent again returns the credits of its first sending, which are not issued anew (R332, R462). -/
def State.sendFlitWith (s : State) (k ty vc seq : Nat) (payload : List Byte) (cr : Nat × Nat) (fresh : Bool) : State :=
  let l := s.link k
  let (j, n) := cr
  let h := ty + vc * 2 ^ 3 + seq * 2 ^ 6 + l.lastAcc * 2 ^ 18 + 2 ^ 30 + b2n l.nakDue * 2 ^ 31
    + (if n = 0 then 0 else pairVc j * 2 ^ 32 + pairPart j * 2 ^ 35 + n * 2 ^ 40)
  let body := leBytes 8 h ++ padTo 112 payload
  let s1 := (s.emit (.flit k (body ++ leBytes 8 (crc64 body)))).modLink k (fun l => { l with
    nakDue := false, sinceAck := 0, sinceMarker := if ty = 5 then 0 else l.sinceMarker + 1,
    ci := if n = 0 ∨ !fresh then l.ci else bump l.ci j n, o := if n = 0 ∨ !fresh then l.o else mset l.o j (mget l.o j 0 - n) })
  if ty = 0 then s1 else s1.liveAdd (.fabTxFlitsSnap k) FabTxFlitsSnap.flits 1

/-- Send one flit with the credits that are due; a MARKER returns none, so that the totals at its cut hold every credit issued
(assumption 42). -/
def State.sendFlit (s : State) (k ty vc seq : Nat) (payload : List Byte) : State :=
  s.sendFlitWith k ty vc seq payload (if ty = 5 then (0, 0) else s.creditReturn k) true

/-- Give a CTRL message to a port. -/
def State.sendCtrl (s : State) (k : Nat) (m : Ctrl) : State := s.modLink k (fun l => { l with ctrl := l.ctrl ++ [m] })
/-- Give a CTRL request to a port: it is repeated until it is answered (R400). -/
def State.sendReq (s : State) (k : Nat) (m : Ctrl) : State :=
  (s.sendCtrl k m).modLink k (fun l => { l with reqs := l.reqs.filter (fun r => r.msg ≠ m) ++ [⟨m, 1⟩] })
/-- The requests of a kind that an answer names are answered. -/
def State.answered (s : State) (k : Nat) (q : Ctrl → Bool) : State :=
  s.modLink k (fun l => { l with reqs := l.reqs.filter (fun r => !q r.msg) })

/-- The packet of an output queue whose next flit a slot of VC `v` and partition `p` may carry (R335, R471): the one under
way on the VC if it is of the partition, else the partition's oldest. VC0 and VC7 serve every partition. -/
def Link.nextFor (l : Link) (v : Nat) (p : Option Nat) : Option (OutPkt × Nat) :=
  let mine (o : OutPkt) : Bool := match p with
    | none => true
    | some q => o.pkt.srcPart = q
  match l.out.zipIdx.find? (fun (o, _) => o.vc = v ∧ 0 < o.sent) with
  | some (o, i) => if mine o ∧ o.sent < o.got then some (o, i) else none
  | none => if l.aborts.any (fun (x, _) => x = v) then none else l.out.zipIdx.find? (fun (o, _) => o.vc = v ∧ mine o ∧ 0 < o.got)

/-- The pair of a packet in a queue. -/
def OutPkt.pair (o : OutPkt) : Nat := pairOf o.vc o.pkt.srcPart

/-- Whether a packet's next flit may leave (R332, R340, R467): a credit of its pair, a place in the window, and no
resynchronisation that has stopped the pair. -/
def Link.mayLeave (l : Link) (o : OutPkt) : Bool :=
  l.held o.pair ≠ 0 && l.unacked.length < 2047 && (match l.sync o.pair true with
    | some r => r.step < 3
    | none => true)

/-- Data bytes in flit `i` of a packet. -/
def flitData (len i : Nat) : Nat := if i = 0 then min 80 len else min 112 (len - 80 - 112 * (i - 1))

/-- Type of flit `i` of `n` (R329, R335). -/
def flitType (i n : Nat) : Nat := if n = 1 then 4 else if i = 0 then 1 else if i + 1 = n then 3 else 2

/-- Send the next flit of the packet at place `i` of the queue. -/
def State.sendPktFlit (s : State) (k : Nat) (o : OutPkt) (i : Nat) : State :=
  let seq := (s.link k).nextSeq
  let ty := flitType o.sent o.total
  let payload := o.pkt.flit o.sent
  let o' := { o with sent := o.sent + 1, headSeq := if o.sent = 0 then seq else o.headSeq }
  let done := o'.sent = o.total
  let s1 := (s.sendFlit k ty o.vc seq payload).modLink k (fun l => { l with
    nextSeq := (seq + 1) % 4096, unacked := l.unacked ++ [⟨seq, ty, o.vc, payload, s.creditReturn k,
      if done ∧ o.src.isNone ∧ isResponse o.pkt.op then some o.pkt.srcPart else none⟩],
    fs := bump l.fs o.pair 1, h := mset l.h o.pair (mget l.h o.pair 0 - 1),
    out := if done then l.out.eraseIdx i else l.out.zipIdx.map (fun (x, n) => if n = i then o' else x) })
  let s2 := (s1.liveAdd (.fabTxBytesSnap k) FabTxBytesSnap.bytes (flitData o.pkt.length o.sent)).freeBufs o.src o.pair 1
  if done then (match o.mid with
    | none => s2
    | some _ => (s2.copyGone o.mid).drainInject) else s2

/-! ## The frame (R342, R343) -/

/-- Slots per frame of each claimant in the order of R342: VC1 to VC6 by partition, VC7, idle. -/
def State.frameShares (s : State) : List Nat :=
  let a := (List.range 192).map (fun i => s.vcWeight (i / 32 + 1) * s.weight (i % 32) (i / 32 + 1))
  let b := s.vcWeight 7 * 32
  a ++ [b, 1024 - a.sum - b]

/-- The first place of the largest of a list. -/
def argMax (l : List Int) : Nat := (l.zipIdx.foldl (fun (m, i) (x, j) => if m < x then (x, j) else (m, i)) (l.headD 0, 0)).2

/-- One step of the frame's construction: who takes the slot, and the accumulators after it. -/
def frameStep (n : List Nat) (acc : List Int) : List Int × Nat :=
  let a := (acc.zip n).map (fun (x, y) => x + y)
  let q := argMax a
  (a.zipIdx.map (fun (x, i) => if i = q then x - 1024 else x), q)

/-- Who takes slot `i` of a frame. -/
def frameSlot (n : List Nat) (i : Nat) : Nat :=
  ((List.range (i + 1)).foldl (fun (acc, _) _ => frameStep n acc) (n.map (fun _ => (0 : Int)), 0)).2

/-- The packet that a slot carries (R343): of its pair, else of the partition's next VC that has one; VC7 serves its
sources, the device itself and the ports, in round robin. -/
def State.slotPacket (s : State) (k q : Nat) : Option (OutPkt × Nat) :=
  let l := s.link k
  let ok (x : Option (OutPkt × Nat)) : Bool := match x with
    | some (o, _) => l.mayLeave o
    | none => false
  if q < 192 then
    let v0 := q / 32 + 1
    ((List.range 6).map (fun i => l.nextFor ((v0 - 1 + i) % 6 + 1) (some (q % 32)))).findSome? (fun x => if ok x then x else none)
  else if q = 192 then
    let code (o : OutPkt) : Nat := match o.src with
      | none => 0
      | some p => p + 1
    let first := match l.out.zipIdx.find? (fun (o, _) => o.vc = 7 ∧ 0 < o.sent) with
      | some x => if x.1.sent < x.1.got then some x else none
      | none => ((List.range 65).map (fun i => (l.mgmtTurn + i) % 65)).findSome? (fun c =>
          l.out.zipIdx.find? (fun (o, _) => o.vc = 7 ∧ code o = c ∧ 0 < o.got))
    if ok first then first else none
  else none

/-- VCs of a port with a flit ready to leave. -/
def Link.readyVcs (l : Link) : List Nat := uniq ((l.out.filter (fun o => o.sent < o.got)).map OutPkt.vc)

/-- VCs whose ready flits were held back at a boundary count stalled cycles: how many a boundary holds is open
(assumption 5). -/
def State.countStalls (s : State) (k : Nat) (vcs : List Nat) : State :=
  vcs.foldl (fun t v => let (w, t1) := t.drawWord
                        t1.liveAdd (.fabStallSnap k v) FabStallSnap.cycles w.toNat) s

/-- The last sequenced flit sent. -/
def Link.lastSent (l : Link) : Nat := (l.nextSeq + 4095) % 4096
/-- Bytes 16 to 79 of a marker that leaves a port (R463). -/
def State.auditBytes (s : State) (k : Nat) : List Byte :=
  let l := s.link k
  let g := s.count % 14
  let entry (j : Nat) : List Byte := if j < pairCount then leBytes 2 (mget l.fs j 0) ++ leBytes 2 (mget l.ci j 0) else [0, 0, 0, 0]
  leBytes 1 g ++ [0] ++ leBytes 2 l.lastSent ++ entry 0 ++ (List.range 14).flatMap (fun i => entry (14 * g + 1 + i))

/-- A flit boundary of a port that carries traffic (R336, R342, R343): the marker, CTRL messages, flits to be sent again,
VC0, then the frame's slot. -/
def State.boundary (s : State) (k : Nat) : State :=
  let l := s.link k
  match l.marker, l.ctrl with
  | some m, _ => ((s.modLink k (fun l => { l with marker := none })).sendFlit k 5 0 0 (m.take 16 ++ s.auditBytes k ++ m.drop 16)).sendTags k
  | none, c :: r => (s.modLink k (fun l => { l with ctrl := r })).sendFlit k 6 0 0 c.bytes
  | none, [] =>
    match (if l.resend = 0 then none else l.unacked[l.unacked.length - l.resend]?) with
    | some f => (s.modLink k (fun l => { l with resend := l.resend - 1 })).sendFlitWith k f.kind f.vc f.seq f.payload f.cred false
    | none =>
      match (match l.nextFor 0 none with
        | some x => if l.mayLeave x.1 then some x else none
        | none => none) with
      | some (o, i) => (s.sendPktFlit k o i).countStalls k (l.readyVcs.filter (· ≠ 0))
      | none =>
        let q := frameSlot s.frameShares (l.slot % 1024)
        let s1 := s.modLink k (fun l => { l with slot := (l.slot + 1) % 1024 })
        match s1.slotPacket k q with
        | some (o, i) =>
          let s2 := (s1.sendPktFlit k o i).countStalls k (l.readyVcs.filter (· ≠ o.vc))
          if o.vc = 7 then s2.modLink k (fun l => { l with mgmtTurn := (match o.src with
            | none => 1
            | some p => p + 2) % 65 }) else s2
        | none => (s1.sendFlit k 0 0 0 []).countStalls k l.readyVcs

/-- A flit boundary of a port's output; in Train only CTRL flits leave (R342, R343, R395). -/
def State.slotFlit (s : State) (k : Nat) : State :=
  if s.carrying k then s.boundary k
  else if s.portState k ≠ 2 then s
  else match (s.link k).ctrl with
    | [] => s
    | c :: r => (s.modLink k (fun l => { l with ctrl := r })).sendFlit k 6 0 0 c.bytes

/-! ## The death of a link (R469 to R471) -/

/-- The answer to a packet that a link lost: NODE_UNREACHABLE to the node that waits for it (R322, R469). -/
def State.answerLost (s : State) (p : Pkt) : State :=
  if isRequest p.op then s.dispatch 2 none (s.unreachable p)
  else if isResponse p.op then
    s.dispatch 2 none { p with op := 0x22, route := 0, hops := 0, aux := 0, chk := false, valid := false, check := 0, length := 8,
                               data := leBytes 8 (cNode + 256 * p.answered) }
  else if p.op = 0x30 ∨ p.op = 0x31 then s.vc0Lost p p.dstNode
  else s

/-- Abort on an output port the packet that it is sending (R471). -/
def State.abortOut (s : State) (k : Nat) (o : OutPkt) : State :=
  (s.sendReq k (credMsg 0x25 o.pair 0 o.headSeq 0)).modLink k (fun l => { l with aborts := (o.vc, o.headSeq) :: l.aborts })

/-- Packets forwarded from a dead input: taken from every output queue, those under way aborted; all of them. -/
def State.dropForwards (s : State) (k : Nat) : State × List Pkt :=
  (List.range 64).foldl (fun (t, acc) m =>
    let from_ := (t.link m).out.filter (fun o => o.src = some k)
    let t1 := if from_.isEmpty then t else t.modLink m (fun l => { l with out := l.out.filter (fun o => o.src ≠ some k) })
    ((from_.filter (fun o => 0 < o.sent)).foldl (fun u o => u.abortOut m o) t1, acc ++ from_.map OutPkt.pkt)) (s, [])

/-- Whether a packet waits at the X-die for a port. -/
def WaitPkt.isFrom (w : WaitPkt) (k : Nat) : Bool := w.port = some k

/-- A packet has gone from an output queue while flits of it still arrive: they are accepted, counted and freed at once
(R460, R471). -/
def State.awaitRest (s : State) (o : OutPkt) : State :=
  if o.src.isSome ∧ o.got < o.total then
    { s with fab := { s.fab with waiting := s.fab.waiting ++ [⟨o.src, o.vc, 0, o.total, o.pkt⟩] } }
  else s

/-- A port stops carrying traffic and goes to state `st` (R469). Packets queued on it that have not begun to leave are
routed anew (assumption 41). -/
def State.stopPort (s : State) (k st : Nat) : State :=
  if !s.carrying k then s.setPort k st
  else
    let l := s.link k
    let s1 := ((s.setPort k st).modLink k Link.stopped)
    let hRet := (l.h.map Prod.snd).sum
    let oRet := (l.o.map Prod.snd).sum
    let granted := ((List.range pairCount).map s.pairGrant).sum
    let partly := l.out.filter (fun o => 0 < o.sent)
    let heads := (l.unacked.filter (fun f => (f.kind = 1 ∨ f.kind = 4) ∧ !partly.any (fun o => o.headSeq = f.seq))).map
      (fun f => Pkt.ofBytes f.payload)
    let (s2, fwd) := s1.dropForwards k
    let waits := s2.fab.waiting.filter (fun w => w.isFrom k && 0 < w.got)
    let kept := s2.parts.flatMap (fun (_, q) => q.held.filter (fun w => w.isFrom k))
    let lost := heads ++ partly.map OutPkt.pkt ++ fwd ++ waits.map WaitPkt.pkt ++ kept.map WaitPkt.pkt
    let s3 := { s2 with
      fab := { s2.fab with waiting := s2.fab.waiting.filter (fun w => !w.isFrom k) },
      parts := s2.parts.map (fun (p, q) => (p, { q with held := q.held.filter (fun w => !w.isFrom k) })) }
    let s4 := partly.foldl (fun t o => ((t.freeBufs o.src o.pair (o.got - o.sent)).copyGone o.mid).awaitRest o) s3
    let s5 := lost.foldl State.answerLost s4
    let s6 := (l.out.filter (fun o => o.sent = 0)).foldl (fun t o =>
      if 2 ≤ bitsOf (t.routeEntry o.pkt.target) 0 2 ∧ (t.choosePort (t.routeEntry o.pkt.target) o.pkt.offset o.pkt.srcPart).isSome then
        t.place 1 o.vc o.src o.mid o.got o.pkt
      else ((t.freeBufs o.src o.pair o.got).awaitRest o).place 1 o.vc o.src o.mid o.got o.pkt) s5
    let answers := (lost.filter (fun p => isRequest p.op ∨ isResponse p.op)).length
    ((s6.satFld (.fabConsRetired k) FabConsRetired.granted granted).satFld (.fabConsRetired k) FabConsRetired.held hRet).log {
      code := 0x4B02,
      detail := det [(1, k), (3, 0), (4, granted), (4, oRet), (4, hRet), (2, min 65535 l.unacked.length), (2, min 65535 answers)],
      whr := [(6, k)] }

/-- A fabric or Ethernet port enters Seek: what its training and burnishes had reached is void, and a wait runs (R397). -/
def State.enterSeek (s : State) (k : Nat) : State :=
  let s1 := if k < 64 then (s.stopPort k 1).modLink k (fun l => { l with ctrl := [], reqs := [] }) else s.setPort k 1
  (s1.modOpt k (fun o => { Opt.idle with peerRetired := o.peerRetired, seekWait := true })).seekRings k

/-- FAB_LINK_DOWN: the port stops carrying traffic and goes to Seek (R333, R396). -/
def State.linkDown (s : State) (k : Nat) : State :=
  (s.log { code := 0x4802, detail := det [(1, k)], whr := [(6, k)] }).enterSeek k

/-! ## Replay (R331 to R333) -/

/-- Every unacknowledged flit is to be sent again; the eighth time in succession stops the port (R332, R333). -/
def State.replayAll (s : State) (k : Nat) : State :=
  let l := s.link k
  if l.unacked.isEmpty then s
  else
    let s1 := (s.satFld (.fabLinkErr k) FabLinkErr.replays 1).modLink k (fun l => { l with
      resend := l.unacked.length, replays := l.replays + 1, replayNow := l.replayNow + 1 })
    if l.replays + 1 ≥ 8 then s1.linkDown k else s1

/-- NAK (R332). -/
def execNak (port : Nat) (s : State) : Host.Outcome State Fault Refusal :=
  commit s (Instr.wf (.nak port)) (if s.carrying port then s.replayAll port else s)
/-- REPLAY_TIMEOUT (R332). -/
def execReplayTimeout (port : Nat) (s : State) : Host.Outcome State Fault Refusal :=
  commit s (Instr.wf (.replayTimeout port)) (if s.carrying port then s.replayAll port else s)
/-- NAK_REPEAT (R331): the nak is due again while the expected flit has not come; on an Ethernet port while a peer's expected
packet has not come (R417). -/
def execNakRepeat (port : Nat) (s : State) : Host.Outcome State Fault Refusal :=
  commit s (Instr.wf (.nakRepeat port)) (
    if 64 ≤ port then (List.range s.eth.peers.length).foldl (fun t i => match t.eth.peers[i]? with
      | none => t
      | some r => if r.port = port - 64 ∧ r.gap then (t.modPeer i (fun r => { r with nakDue := true })).ackPeer i else t) s
    else if s.carrying port ∧ (s.link port).gap then s.modLink port (fun l => { l with nakDue := true }) else s)
/-- An IDLE flit reports the acknowledgement that is due (R331). -/
def State.ackDue (s : State) (k : Nat) : State := if s.carrying k ∧ (s.link k).sinceAck ≠ 0 then s.sendFlit k 0 0 0 [] else s

/-! ## Resynchronisation (R465 to R468) -/

/-- Whether sequence number `seq` has been accepted. -/
def Link.accepted (l : Link) (seq : Nat) : Bool := (l.lastAcc + 4096 - seq) % 4096 < 2048
/-- Change a running resynchronisation. -/
def State.modSync (s : State) (k : Nat) (r : Resync) : State :=
  s.modLink k (fun l => { l with resyncs := l.resyncs.map (fun x => if x.pair = r.pair ∧ x.asSender = r.asSender then r else x) })
/-- Key of the epoch of a pair and direction. -/
def epochKey (j : Nat) (snd : Bool) : Nat := 2 * j + b2n snd

/-- A resynchronisation starts at its step 1 or 2 (R466). -/
def State.beginSync (s : State) (k : Nat) (r : Resync) : State :=
  let s1 := s.modLink k (fun l => { l with
    resyncs := l.resyncs ++ [r], resyncCount := mset l.resyncCount r.pair (min 255 (mget l.resyncCount r.pair 0 + 1)) })
  if r.asSender then s1.sendReq k (credMsg 0x20 r.pair 0 0 0)
  else
    let e := (mget (s.link k).epochs (epochKey r.pair false) 0 + 1) % 256
    ((s1.modSync k { r with epoch := e, step := 2 }).modLink k (fun l => { l with epochs := mset l.epochs (epochKey r.pair false) e })).sendReq
      k (credMsg 0x21 r.pair e (s.link k).lastSent 0)

/-- A credit fault of a pair and direction asks for a resynchronisation: one at a time, at most 16 in a direction
(R467). -/
def State.askSync (s : State) (k j : Nat) (snd : Bool) (dFs dCi : Nat) : State :=
  let l := s.link k
  let r : Resync := ⟨j, snd, 0, 1, 0, dFs, dCi⟩
  if (l.sync j snd).isSome ∨ l.waitSync.any (fun x => x.pair = j ∧ x.asSender = snd) then s
  else if l.resyncs.countP (fun x => x.asSender = snd) ≥ 16 then s.modLink k (fun l => { l with waitSync := l.waitSync ++ [r] })
  else s.beginSync k r

/-- A resynchronisation has ended: one that waits may start. -/
def State.endSync (s : State) (k j : Nat) (snd : Bool) : State :=
  let s1 := s.modLink k (fun l => { l with resyncs := l.resyncs.filter (fun x => !(x.pair = j && x.asSender = snd)) })
  match (s1.link k).waitSync.find? (fun x => x.asSender = snd) with
  | none => s1
  | some r => (s1.modLink k (fun l => { l with waitSync := l.waitSync.erase r })).beginSync k r

/-- The next step of a resynchronisation whose seq has been accepted: the sender fences (step 3), the receiver sets its
count from the truth of O (step 4). -/
def State.stepSync (s : State) (k : Nat) (r : Resync) : State :=
  let l := s.link k
  if !l.accepted r.seq then s
  else if r.asSender ∧ r.step = 2 then
    (s.modSync k { r with step := 3 }).sendReq k
      (credMsg 0x22 r.pair r.epoch l.lastSent 0)
  else if !r.asSender ∧ r.step = 3 then
    let c := s.pairGrant r.pair - mget l.o r.pair 0
    ((s.modSync k { r with step := 4 }).modLink k (fun l => { l with
      ci := mset l.ci r.pair ((mget l.fr r.pair 0 + c) % 2 ^ 32) })).sendReq k (credMsg 0x23 r.pair r.epoch 0 c)
  else s

/-- Steps that acceptance of a flit allows. -/
def State.stepSyncs (s : State) (k : Nat) : State := (s.link k).resyncs.foldl (fun t r => t.stepSync k r) s

/-- A resynchronisation fails, or faults are too frequent (R468): the port stops as under R333. -/
def State.syncFail (s : State) (k j : Nat) (snd tooMany : Bool) : State :=
  (s.log { code := 0x4B03, detail := det [(1, k), (1, j), (1, b2n (!snd)), (1, b2n tooMany)], whr := [(6, k)] }).linkDown k

/-- CRED_REQ (R465, R466): step 2 at the receiving end, unless it runs already. -/
def execCredReq (port : Nat) (v : BitVec 64) (s : State) : Host.Outcome State Fault Refusal :=
  commit s (Instr.wf (.credReq port v)) (if s.carrying port ∧ wbits v 0 8 < pairCount then s.askSync port (wbits v 0 8) false 0 0 else s)

/-- CRED_HOLD (R466): it answers the sender's CRED_REQ; the sender notes the epoch and fences once it has accepted the seq. -/
def execCredHold (port : Nat) (v : BitVec 64) (s : State) : Host.Outcome State Fault Refusal :=
  commit s (Instr.wf (.credHold port v)) (
    let j := wbits v 0 8
    if !s.carrying port ∨ pairCount ≤ j then s
    else match (s.link port).sync j true with
      | some r => if r.step = 1 then
          (let r' := { r with step := 2, epoch := wbits v 8 8, seq := wbits v 16 12 }
           ((s.answered port (fun m => m.kind = 0x20 && wbits m.value 0 8 = j)).modSync port r').stepSync port r') else s
      | none =>
        let r : Resync := ⟨j, true, wbits v 8 8, 2, wbits v 16 12, 0, 0⟩
        (s.modLink port (fun l => { l with
          resyncs := l.resyncs ++ [r], waitSync := l.waitSync.filter (fun x => !(x.pair = j && x.asSender)),
          resyncCount := mset l.resyncCount j (min 255 (mget l.resyncCount j 0 + 1)) })).stepSync port r)

/-- CRED_FENCE (R466): the receiver sets its count once it has accepted the seq. -/
def execCredFence (port : Nat) (v : BitVec 64) (s : State) : Host.Outcome State Fault Refusal :=
  commit s (Instr.wf (.credFence port v)) (match (if s.carrying port then (s.link port).sync (wbits v 0 8) false else none) with
    | none => s
    | some r => if r.step = 2 ∧ r.epoch = wbits v 8 8 then
        (let r' := { r with step := 3, seq := wbits v 16 12 }
         ((s.answered port (fun m => m.kind = 0x21 && wbits m.value 0 8 = r.pair)).modSync port r').stepSync port r') else s)

/-- CRED_SET (R466, R467): the sender's H and CR are set, CREDIT_FAULT is logged, and the sixteenth within 1,024 stitches
stops the port (R468). -/
def execCredSet (port : Nat) (v : BitVec 64) (s : State) : Host.Outcome State Fault Refusal :=
  commit s (Instr.wf (.credSet port v)) (
    let j := wbits v 0 8
    let e := wbits v 8 8
    let c := wbits v 32 13
    if !s.carrying port then s
    else match (s.link port).sync j true with
      | some r =>
        if r.step = 3 ∧ r.epoch = e then
          let l := s.link port
          let adj : Int := (c : Int) - l.held j
          let now := s.count
          let recent := now :: l.faultAt.filter (fun t => (now + 2 ^ 48 - t) % 2 ^ 48 < 1024)
          let s1 := ((s.answered port (fun m => m.kind = 0x22 && wbits m.value 0 8 = j)).modLink port (fun l => { l with
            h := mset l.h j c, cr := mset l.cr j ((mget l.fs j 0 + c) % 2 ^ 32), faultAt := recent,
            epochs := mset l.epochs (epochKey j true) e })).sendCtrl port (credMsg 0x24 j e 0 0)
          let s2 := (s1.endSync port j true).log {
            code := 0x0B01,
            detail := det [(1, port), (1, j), (1, 0), (1, 0), (2, r.dFs), (2, r.dCi), (4, unsigned 32 adj)] }
          if recent.length ≥ 16 then s2.syncFail port j true true else s2
        else if mfind (s.link port).epochs (epochKey j true) = some e then s.sendCtrl port (credMsg 0x24 j e 0 0) else s
      | none => if mfind (s.link port).epochs (epochKey j true) = some e then s.sendCtrl port (credMsg 0x24 j e 0 0) else s)

/-- CRED_DONE (R466): the receiver returns credits again. -/
def execCredDone (port : Nat) (v : BitVec 64) (s : State) : Host.Outcome State Fault Refusal :=
  commit s (Instr.wf (.credDone port v)) (match (if s.carrying port then (s.link port).sync (wbits v 0 8) false else none) with
    | none => s
    | some r => if r.step = 4 ∧ r.epoch = wbits v 8 8 then
        (s.answered port (fun m => m.kind = 0x23 && wbits m.value 0 8 = r.pair)).endSync port r.pair false else s)

/-- RESYNC_TIMEOUT (R467, R468). -/
def execResyncTimeout (port j : Nat) (asSender : Bool) (s : State) : Host.Outcome State Fault Refusal :=
  commit s (Instr.wf (.resyncTimeout port j asSender)) (match (s.link port).sync j asSender with
    | none => s
    | some _ => s.syncFail port j asSender false)

/-! ## The audit (R463, R464) -/

/-- The pairs that a marker audits, with the place of their entry. -/
def auditPairs (g : Nat) : List (Nat × Nat) :=
  (0, 20) :: ((List.range 14).map (fun i => (14 * g + 1 + i, 24 + 4 * i))).filter (fun (j, _) => j < pairCount)

/-- One comparison of R464: counted and resynchronised when unequal. -/
def State.auditOne (s : State) (k j : Nat) (snd : Bool) (theirs mine : Nat) : State :=
  if theirs = mine % 65536 then s
  else
    let d := (theirs + 65536 - mine % 65536) % 65536
    (s.satFld (.fabConsStat k) FabConsStat.mismatches 1).askSync k j snd (if snd then 0 else d) (if snd then d else 0)

/-- The audit of a marker that passed its CRC (R464). -/
def State.auditMarker (s : State) (k : Nat) (payload : List Byte) : State :=
  let w (o : Nat) : Nat := leNat ((payload.drop o).take 2)
  if w 18 % 4096 ≠ (s.link k).lastAcc then s.satFld (.fabConsStat k) FabConsStat.skipped 1
  else
    let prs := auditPairs (w 16 % 16)
    let busy (j : Nat) (snd : Bool) : Bool := ((s.link k).sync j snd).isSome
    let s1 := prs.foldl (fun t (j, o) =>
      let t1 := if busy j false then t else t.auditOne k j false (w o) (mget (s.link k).fr j 0)
      if busy j true then t1 else t1.auditOne k j true (w (o + 2)) (mget (s.link k).cr j 0)) s
    if prs.any (fun (j, _) => busy j false || busy j true) then s1.satFld (.fabConsStat k) FabConsStat.skipped 1
    else s1.wrapFld .fabConsDev FabConsDev.audits 1

/-! ## Receiving a flit -/

/-- The acknowledgement and credit fields of a header (R329, R332, R462). -/
def State.takeFields (s : State) (k h : Nat) : State :=
  let ack := bitsOf h 18 12
  let j := pairOf (bitsOf h 32 3) (bitsOf h 35 5)
  let n := bitsOf h 40 8
  s.modLink k (fun l =>
    let l1 := match (if bitAt h 30 then l.unacked.findIdx? (fun f => f.seq = ack) else none) with
      | none => l
      | some i => { l with unacked := l.unacked.drop (i + 1), resend := min l.resend (l.unacked.length - (i + 1)), replays := 0 }
    if n = 0 then l1 else { l1 with
      cr := bump l1.cr j n, h := mset l1.h j (mget l1.h j 0 + n), top := mset l1.top j (max (mget l1.top j 0) (mget l1.h j 0 + n)) })

/-- A discarded flit is awaited again: a nak is due, unless it was for a flit that is awaited already, whose nak is repeated
every microsecond (R331). -/
def State.discardFlit (s : State) (k : Nat) : State := s.modLink k (fun l => { l with gap := true, nakDue := l.nakDue || !l.gap })

/-- Buffers, counts and credits of one accepted flit of a pair (R460). -/
def State.countFlit (s : State) (k j keep : Nat) : State :=
  s.modLink k (fun l => { l with fr := bump l.fr j 1, o := mset l.o j (mget l.o j 0 + 1), occ := mset l.occ j (mget l.occ j 0 + keep) })

/-- Append the data of a BODY or TAIL flit to a packet. -/
def Pkt.append (p : Pkt) (payload : List Byte) : Pkt := { p with data := p.data ++ (payload.take 112).take (p.length - p.data.length) }

/-- A BODY or TAIL flit goes to the packet that its VC is assembling, among the waiting packets or, for a packet that is
already forwarded, in an output queue; a flit of an aborted packet is freed at once (R335, R471). -/
def State.bodyFlit (s : State) (k vc : Nat) (payload : List Byte) : State :=
  let open_ (w : WaitPkt) : Bool := w.port = some k && w.vc = vc && w.got < w.total
  match s.fab.waiting.findIdx? open_ with
  | some i =>
    (match s.fab.waiting[i]? with
    | none => s
    | some w =>
      if w.got = 0 then
        { s.countFlit k (pairOf vc w.pkt.srcPart) 0 with fab := { (s.countFlit k (pairOf vc w.pkt.srcPart) 0).fab with
          waiting := s.fab.waiting.zipIdx.map (fun (x, n) => if n = i then { x with pkt := x.pkt.append payload } else x) } }
      else
        { s.countFlit k (pairOf vc w.pkt.srcPart) 1 with fab := { (s.countFlit k (pairOf vc w.pkt.srcPart) 1).fab with
          waiting := s.fab.waiting.zipIdx.map (fun (x, n) => if n = i then { x with got := x.got + 1, pkt := x.pkt.append payload } else x) } })
  | none =>
    let mine (o : OutPkt) : Bool := o.src = some k && o.vc = vc && o.got < o.total
    match (List.range 64).findSome? (fun m => ((s.link m).out.find? mine).map (fun o => (m, o))) with
    | none => s
    | some (m, o) =>
      (s.countFlit k o.pair 1).modLink m (fun l =>
        let l1 := { l with out := l.out.map (fun x => if mine x then { x with got := x.got + 1, pkt := x.pkt.append payload } else x) }
        { l1 with peak := mset l1.peak vc (max (mget l1.peak vc 0) (l1.waiting vc)) })

/-- The packet that a VC of a port is assembling. -/
def State.assembling (s : State) (k vc : Nat) : Option Pkt :=
  match s.fab.waiting.find? (fun w => w.port = some k && w.vc = vc && w.got < w.total) with
  | some w => some w.pkt
  | none => (List.range 64).findSome? (fun m => ((s.link m).out.find? (fun o => o.src = some k && o.vc = vc && o.got < o.total)).map OutPkt.pkt)

/-- Packet data bytes in a flit that arrives (FAB_RX_BYTES_SNAP): of a HEAD or SINGLE, else of the packet it belongs to. -/
def State.flitBytes (s : State) (k ty vc : Nat) (payload : List Byte) : Nat :=
  if ty = 1 ∨ ty = 4 then (Pkt.ofBytes payload).data.length
  else match s.assembling k vc with
    | none => 0
    | some p => min 112 (p.length - p.data.length)

/-- A HEAD or SINGLE flit begins a packet. -/
def State.headFlit (s : State) (k vc : Nat) (payload : List Byte) : State :=
  let p := Pkt.ofBytes payload
  let s1 := s.countFlit k (pairOf vc p.srcPart) 1
  let ws := s1.fab.waiting.filter (fun w => !(w.port = some k && w.vc = vc && w.got = 0))
  { s1 with fab := { s1.fab with waiting := ws ++ [⟨some k, vc, 1, flitsOf p.length, p⟩] } }

/-- A flit that passed its CRC. The acknowledgement of every thirty-second accepted flit leaves at once in an IDLE flit (R331). -/
def State.goodFlit (s : State) (k : Nat) (bytes : List Byte) : State :=
  let h := leNat (bytes.take 8)
  let ty := bitsOf h 0 3
  let vc := bitsOf h 3 3
  let payload := (bytes.drop 8).take 112
  let s0 := if ty = 0 then s else s.liveAdd (.fabRxFlitsSnap k) FabRxFlitsSnap.flits 1
  if ty = 0 ∨ ty = 5 ∨ ty = 6 then s0.takeFields k h
  else if bitsOf h 6 12 ≠ ((s.link k).lastAcc + 1) % 4096 then s0.discardFlit k
  else
    let s1 := (s0.takeFields k h).modLink k (fun l => { l with
      lastAcc := bitsOf h 6 12, gap := false, nakDue := false, sinceAck := l.sinceAck + 1 })
    let s2 := s1.liveAdd (.fabRxBytesSnap k) FabRxBytesSnap.bytes (s1.flitBytes k ty vc payload)
    let s3 := if ty = 1 ∨ ty = 4 then s2.headFlit k vc payload else s2.bodyFlit k vc payload
    let s4 := if 32 ≤ (s3.link k).sinceAck then s3.sendFlit k 0 0 0 [] else s3
    s4.stepSyncs k

/-- Whether the bytes of a flit pass R330: CRC, type and reserved bits. -/
def flitOk (bytes : List Byte) : Bool :=
  leNat ((bytes.drop 120).take 8) = crc64 (bytes.take 120) && bitsOf (leNat (bytes.take 8)) 0 3 ≠ 7 && bitsOf (leNat (bytes.take 8)) 48 16 = 0

/-- Count a received flit: a MARKER starts the count that lane moves go by (R403). -/
def State.countRx (s : State) (k : Nat) (bytes : List Byte) : State :=
  s.modLink k (fun l => { l with rxSince := if flitOk bytes ∧ bitsOf (leNat (bytes.take 8)) 0 3 = 5 then 0 else l.rxSince + 1 })
/-- A flit arrives (R330, R331, R335, R460, R462): what a MARKER or CTRL flit carries is the effect of the command of that
name; here its header fields are taken (assumption 42). In Train only CTRL and IDLE flits travel. -/
def State.takeFlit (s : State) (k : Nat) (bytes : List Byte) : State :=
  if s.carrying k then
    (if flitOk bytes then (s.countRx k bytes).goodFlit k bytes
     else ((s.countRx k bytes).satFld (.fabLinkErr k) FabLinkErr.crcFail 1).discardFlit k)
  else if s.portState k ≠ 2 then s
  else if !flitOk bytes then s.satFld (.fabLinkErr k) FabLinkErr.crcFail 1
  else if bitsOf (leNat (bytes.take 8)) 0 3 = 6 then s.liveAdd (.fabRxFlitsSnap k) FabRxFlitsSnap.flits 1 else s

/-! ## Forwarding and aborts -/

/-- Whether a packet has somewhere to go as it stands: a port, or, when it is whole, any answer. -/
def State.canGo (s : State) (w : WaitPkt) (p : Pkt) : Bool :=
  w.got = w.total || (2 ≤ bitsOf (s.routeEntry p.target) 0 2 && (s.choosePort (s.routeEntry p.target) p.offset p.srcPart).isSome)

/-- PACKET_FORWARD (R323, R324): the packet goes on by the device's own entry with its hop count raised, or is discarded
at the hop limit, which for a VC0 message is VC0_MSG_LOST too (R474); the intermediate of a Valiant route sets route 2. A packet that is still arriving may go on at once. -/
def execPacketForward (i : Nat) (s : State) : Host.Outcome State Fault Refusal :=
  commit s (Instr.wf (.packetForward i)) (match s.fab.waiting[i]? with
    | none => s
    | some w =>
      let p := w.pkt
      let p1 := if p.route = 1 ∧ p.target = s.ownNode then { p with route := 2 } else p
      if w.got = 0 ∨ p.dstNode = s.ownNode then s
      else if p.hops ≥ 4 then
        (if w.got = w.total then
          (let t := (((s.dropWaiting i).doneWith w).satFld (.fabStat 0) FabStat.lo 1).log { code := 0x1801, detail := dropDetail w.vc p }
           if p.op = 0x30 ∨ p.op = 0x31 then t.vc0Lost p p.dstNode else t) else s)
      else if !s.canGo w p1 then s
      else
        let p2 := { p1 with hops := p1.hops + 1 }
        let goes := 2 ≤ bitsOf (s.routeEntry p2.target) 0 2 ∧ (s.choosePort (s.routeEntry p2.target) p2.offset p2.srcPart).isSome
        let s1 := s.dropWaiting i
        (if goes then s1 else s1.doneWith w).place 1 w.vc w.port none w.got p2)

/-- PKT_ABORT (R471): the packet's flits are discarded and their buffers freed, here or, in turn, on the way out. -/
def execPktAbort (port : Nat) (v : BitVec 64) (s : State) : Host.Outcome State Fault Refusal :=
  commit s (Instr.wf (.pktAbort port v)) (
    let j := wbits v 0 8
    let vc := pairVc j
    if !s.carrying port then s
    else
      let open_ (w : WaitPkt) : Bool := w.port = some port && w.vc = vc && w.got < w.total
      let mine (o : OutPkt) : Bool := o.src = some port && o.vc = vc && o.got < o.total
      let s1 := match s.fab.waiting.find? open_ with
        | some w =>
          let s1 := s.freeBufs (some port) (pairOf vc w.pkt.srcPart) w.got
          { s1 with fab := { s1.fab with waiting := s1.fab.waiting.map (fun x => if open_ x then { x with got := 0 } else x) } }
        | none => match (List.range 64).findSome? (fun m => ((s.link m).out.find? mine).map (fun o => (m, o))) with
          | none => s
          | some (m, o) =>
            let s1 := (s.freeBufs (some port) o.pair (o.got - o.sent)).modLink m (fun l => { l with out := l.out.filter (fun x => !mine x) })
            let s2 := if 0 < o.sent then s1.abortOut m o else s1
            { s2 with fab := { s2.fab with waiting := s2.fab.waiting ++ [WaitPkt.mk (some port) vc 0 o.total o.pkt] } }
      s1.sendCtrl port (credMsg 0x26 j 0 (wbits v 16 12) 0))

/-- PKT_ABORT_ACK (R471): the VC carries packets again. -/
def execPktAbortAck (port : Nat) (v : BitVec 64) (s : State) : Host.Outcome State Fault Refusal :=
  commit s (Instr.wf (.pktAbortAck port v)) (
    let j := wbits v 0 8
    let seq := wbits v 16 12
    (s.answered port (fun m => m.kind = 0x25 && wbits m.value 0 8 = j && wbits m.value 16 12 = seq)).modLink port (fun l => { l with
      aborts := l.aborts.filter (fun (x, q) => !(x = pairVc j && q = seq)) }))

end Sys2Proof.Machine
end

