-- ==== Sys2Proof/Machine/FabTables.lean ====
section
/-! DEFINITION. Changing the fabric's tables while the device runs (R347, R348), and the grain/flesh recovery of their
entries (R457). -/
namespace Sys2Proof.Machine

/-! ## Quiesce -/

/-- Packets of a transaction that the X-die has not accepted yet. -/
def State.notYet (s : State) (tag : Nat) : Nat := s.fab.inject.countP (fun (p, _, _) => p.tag = tag)

/-- Responses of the partitions of a mask that the device has sent into the fabric and that are not acknowledged by the next
device: in the output queues and in the replay buffers. -/
def State.answersOut (s : State) (mask : Nat) : Nat :=
  (s.fab.links.map (fun (_, l) =>
    l.out.countP (fun o => o.src.isNone && isResponse o.pkt.op && bitAt mask o.pkt.srcPart)
      + l.unacked.countP (fun f => match f.own with
        | some q => bitAt mask q
        | none => false))).sum

/-- Packets outstanding for the partitions of a mask (R347): injected by them and unanswered, not counting those that wait for
injection; addressed to them and arriving, waiting or held; their answers while they have not left or are not acknowledged. -/
def State.outstanding (s : State) (mask : Nat) : Nat :=
  let inMask (p : Nat) : Bool := bitAt mask p
  ((s.fab.xfers.map (fun (t, x) => if inMask x.part then x.left - s.notYet t else 0)).sum)
    + s.fab.waiting.countP (fun w => w.pkt.dstNode = s.ownNode && inMask w.pkt.dstPart)
    + s.answersOut mask
    + ((s.parts.map (fun (p, q) => if inMask p then q.held.length else 0)).sum)
    + ((s.fab.acks.map (fun a => if inMask a.resp then a.count else 0)).sum)

/-- FAB_TABLE_STATUS.quiet. -/
def State.quiet (s : State) : Bool := s.outstanding (s.fld .fabTableCtl FabTableCtl.partMask) = 0

/-- FAB_TABLE_CTL_WRITE (R347): partitions that may inject again go on. -/
def execFabTableCtlWrite (v : BitVec 64) (s : State) : Host.Outcome State Fault Refusal :=
  commit s (Instr.wf (.fabTableCtlWrite v)) (s.pfWrite
    (((s.setFld .fabTableCtl FabTableCtl.partMask (FabTableCtl.partMask.get v)).setFld
      .fabTableCtl FabTableCtl.quiesce (FabTableCtl.quiesce.get v)).drainInject))

/-! ## Table writes -/

/-- A refused table write (R348, R585): table 0 route, 1 XLATE, 2 reach, and the index of the register. -/
def State.tableRefused (s : State) (tab idx : Nat) : State :=
  (s.satFld (.fabStat 1) FabStat.hi 1).log { code := 0x4803, detail := det [(1, tab), (1, 0), (2, idx)] }

/-- Whether table writes take effect now (R348); in Bare there is no table. -/
def State.tableOpen (s : State) : Bool := s.fld .fabTableCtl FabTableCtl.quiesce = 1 && s.quiet && s.devState ≠ 0

/-- The bits of a table entry that are not reserved: a route (R321), an XLATE word (R319), word `idx % 32` of a reach record
(R325). -/
def tableMask (tab idx : Nat) : Nat :=
  if tab = 0 then 2 ^ 19 - 1 else if tab = 1 then 2 ^ 11 - 1
  else if idx % 32 = 0 then 2 ^ 22 - 1 else if idx % 32 = 1 then 0x1F7F else 2 ^ 25 - 1

/-- A write that takes effect: the entry counts as written since the commit and is no longer disabled (R457). -/
def State.tableSet (s : State) (r : Reg) (off : Nat) (v : BitVec 64) : State :=
  let s1 := s.setReg r v
  { s1 with fab := { s1.fab with written := off :: s1.fab.written.filter (· ≠ off), disabled := s1.fab.disabled.filter (· ≠ off) } }

/-- A table write (R6, R8, R348): `idx` and `off` are the register's index in its table and its offset in the FAB block. -/
def State.tableWrite (s : State) (tab idx off : Nat) (r : Reg) (v : BitVec 64) (ok : Bool) (after : State → State) : State :=
  s.pfWrite (
    if !gfOk v then s.gfReject none (0x00600000 + off)
    else if !s.tableOpen ∨ !ok then s.tableRefused tab idx
    else after (s.tableSet r off (gfMasked v (tableMask tab idx))))

/-- Whether a valid XLATE entry other than `n` names a physical node. -/
def State.xlateTaken (s : State) (n phys : Nat) : Bool := (List.range 1024).any (fun m => m ≠ n && s.xlate m = some phys)

/-- FAB_NODE after a change of the XLATE table; injection that waited for a logical node goes on (R348). -/
def State.renode (s : State) : State :=
  match s.logicalOf s.ownNode with
  | none => s.setFld .fabNode FabNode.noLogical 1
  | some n => ((s.setFld .fabNode FabNode.noLogical 0).setFld .fabNode FabNode.logical n).drainInject

/-- FAB_ROUTE_WRITE (R348). -/
def execFabRouteWrite (n : Nat) (v : BitVec 64) (s : State) : Host.Outcome State Fault Refusal :=
  commit s (Instr.wf (.fabRouteWrite n v)) (s.tableWrite 0 n (routeOff n) (.fabRoute n) v true id)

/-- FAB_XLATE_WRITE (R348): refused also when two valid entries would name one physical node. -/
def execFabXlateWrite (n : Nat) (v : BitVec 64) (s : State) : Host.Outcome State Fault Refusal :=
  commit s (Instr.wf (.fabXlateWrite n v)) (s.tableWrite 1 n (xlateOff n) (.fabXlate n) v
    (!(bitAt (grain v) 10 && s.xlateTaken n (bitsOf (grain v) 0 10))) State.renode)

/-- FAB_REACH_WRITE (R348). -/
def execFabReachWrite (p i : Nat) (v : BitVec 64) (s : State) : Host.Outcome State Fault Refusal :=
  commit s (Instr.wf (.fabReachWrite p i v)) (s.tableWrite 2 (32 * p + i) (reachOff p i) (.fabReach p i) v true id)

/-! ## Recovery (R457) -/

/-- A GF_MISMATCH is counted and logged. -/
def State.gfEvent (s : State) (e : Ev) : State := (s.satFld .fabConsDev FabConsDev.gf 1).log e

/-- Number and register offset of a table entry; `w` is the word of a reach record. -/
def tableOff (tab : GfTable) (i w : Nat) : Nat × Nat :=
  match tab with
  | .route => (0, routeOff i)
  | .xlate => (1, xlateOff i)
  | .reach => (2, reachOff i w)

/-- Detail of a GF_MISMATCH of a table (R585). -/
def tableDetail (t i w : Nat) : List Byte := det [(1, t), (1, 0), (2, i), (1, w)]

/-- GF_TABLE_RELOAD (R457): a disabled entry that was not written under R348 is reloaded from the committed image, or
stays disabled when the staging copy fails too. The register still holds the committed word: the mismatch struck the
storage, and a disabled entry reads as 0. -/
def execGfTableReload (tab : GfTable) (i w : Nat) (copyOk : Bool) (s : State) : Host.Outcome State Fault Refusal :=
  commit s (Instr.wf (.gfTableReload tab i w copyOk)) (
    let (t, off) := tableOff tab i w
    if !s.fab.disabled.contains off ∨ s.fab.written.contains off then s
    else if copyOk then
      (({ s with fab := { s.fab with disabled := s.fab.disabled.filter (· ≠ off) } }).gfEvent
        { code := 0x0B02, detail := tableDetail t i w }).renode
    else ({ s with fab := { s.fab with written := off :: s.fab.written } }).gfEvent { code := 0x1B01, detail := tableDetail t i w })

end Sys2Proof.Machine
end

