-- ==== Sys2Proof/Machine/Power.lean ====
section
/-! DEFINITION. The input (R514 to R520), power tokens (R521 to R527), temperature (R528 to R532), throttling (R534 to
R536), and what a tick does with them. The resets that SAG_RESET and a thermal trip cause stand in Package. -/
namespace Sys2Proof.Machine

/-! ## Tokens -/

/-- The cap percentage k. -/
def State.capPct (s : State) : Nat := s.fld .pwrState PwrState.pct
/-- C0; 0 when no POWER section has been committed. -/
def State.cap0 (s : State) : Nat := s.fld .pwrCfg PwrCfg.cap0
/-- Tokens held by a partition. -/
def State.heldBy (s : State) (p : Nat) : Nat := s.fld (.pwrPart p) PwrPart.held
/-- The allotment of a partition that is in effect. -/
def State.allotOf (s : State) (p : Nat) : Nat := s.fld (.partPwr p) PartPwr.allot
/-- Set the tokens held by a partition. -/
def State.setHeld (s : State) (p n : Nat) : State := s.setFld (.pwrPart p) PwrPart.held n
/-- Set the free pool. -/
def State.setPool (s : State) (n : Nat) : State := s.setFld .pwrState PwrState.pool n

/-- Insert a (key, partition) pair into a list that falls by key and rises by partition among equals. -/
def insertDown (x : Nat × Nat) : List (Nat × Nat) → List (Nat × Nat)
  | [] => [x]
  | y :: r => if y.1 < x.1 ∨ (y.1 = x.1 ∧ x.2 < y.2) then x :: y :: r else y :: insertDown x r

/-- What each partition loses when `d` tokens are withdrawn in proportion to the holdings (partition, held) (R525). -/
def lossShares (d : Nat) (held : List (Nat × Nat)) : List (Nat × Nat) :=
  let h := (held.map Prod.snd).sum
  let base := held.map (fun (p, x) => (p, d * x / h))
  let r := d - (base.map Prod.snd).sum
  let order := (held.map (fun (p, x) => (x - d * x / h, p))).foldr insertDown []
  let extra := (order.take r).map Prod.snd
  base.map (fun (p, x) => (p, x + b2n (extra.contains p)))

/-- set_cap(k) (R525), with PWR_STATE.pct. -/
def State.setCap (s : State) (k : Nat) : State :=
  let new := s.cap0 * k / 100
  let cap := s.fld .pwrState PwrState.cap
  let pool := s.fld .pwrState PwrState.pool
  let s1 := (s.setFld .pwrState PwrState.cap new).setFld .pwrState PwrState.pct k
  if new < cap then
    let d := cap - new
    let t := min d pool
    let s2 := s1.setPool (pool - t)
    (lossShares (d - t) (s.partNums.map (fun p => (p, s.heldBy p)))).foldl (fun u (p, x) => u.setHeld p (u.heldBy p - x)) s2
  else s1.setPool (pool + (new - cap))

/-- One partition's part of refill (R525). -/
def State.refillOne (s : State) (p : Nat) : State :=
  let a := s.allotOf p
  let h := s.heldBy p
  let s1 := if h > a then (s.setPool (s.fld .pwrState PwrState.pool + (h - a))).setHeld p a else s
  let target := a * s1.fld .pwrState PwrState.cap / s1.cap0
  let s2 := s1.setFld (.pwrPart p) PwrPart.target target
  let t := min (s2.fld .pwrState PwrState.pool) (target - s2.heldBy p)
  (s2.setPool (s2.fld .pwrState PwrState.pool - t)).setHeld p (s2.heldBy p + t)
/-- refill() (R525). -/
def State.refill (s : State) : State := s.partNums.foldl State.refillOne s

/-- The cap percentage becomes `k`, with THROTTLE_START when it leaves 100 and THROTTLE_END when it returns (R535). -/
def State.throttleTo (s : State) (k : Nat) : State :=
  let old := s.capPct
  let s1 := s.setCap k
  if old = 100 ∧ k < 100 then (s1.log { code := 0x4D08, detail := det [(1, k)] }).pwrIrq PwrIrqStat.throttle
  else if old < 100 ∧ k = 100 then (s1.log { code := 0x4D09, detail := det [(1, k)] }).pwrIrq PwrIrqStat.throttle
  else s1

/-- Nanoseconds of charge that a microsecond adds per token, in 10^-5 nJ (R523). -/
def tokenUnit : Int := 100000000
/-- A bucket after one microsecond with `t` tokens: it rises by 1,000 nJ a token, up to 4,000 nJ a token. -/
def refillBucket (b : Int) (t : Nat) : Int := min (b + tokenUnit * t) (max b (4 * tokenUnit * t))
/-- The limiter runs no ballast (R517, R532). -/
def State.noBallast (s : State) : State :=
  { s with parts := s.parts.map (fun (x : Nat × Part) => (x.1, { x.2 with ballast := 0 })) }
/-- Every bucket after one microsecond (R523). -/
def State.refillBuckets (s : State) : State :=
  { s with
    parts := s.parts.map (fun (p, q) => (p, { q with bucket := refillBucket q.bucket (s.heldBy p) })),
    pwr := { s.pwr with poolBucket := refillBucket s.pwr.poolBucket (s.fld .pwrState PwrState.pool) } }

/-- PWR_GRANT_WRITE (R8, R526). -/
def execPwrGrantWrite (p : Nat) (v : BitVec 64) (s : State) : Host.Outcome State Fault Refusal :=
  commit s (decide (p < 32)) (s.pfWrite (
    let a := grain v % 65536
    let others := ((s.partNums.filter (· ≠ p)).map (fun q => s.fld (.pwrGrant q) PwrGrant.allot)).sum
    if !gfOk v then s.gfReject none (0x00300100 + 8 * p)
    else match mfind s.parts p with
      | none => s.setFld .pwrState PwrState.grantRefused 1
      | some _ =>
        if others + a > s.cap0 then s.setFld .pwrState PwrState.grantRefused 1
        else (s.setReg (.pwrGrant p) (gfPair a)).setFld .pwrState PwrState.grantRefused 0))

/-! ## Temperature (R528 to R532) -/

/-- The domain of a sensor. -/
def sensorDomain (i : Nat) : Nat :=
  if i < 128 then i / 32 else if i < 144 then 4 else if i < 164 then 5 + (i - 144) / 2 else 15 + (i - 164)
/-- The class of a domain. -/
def domainClass (d : Nat) : Nat := if d < 4 then 0 else if d = 4 then 1 else if d < 15 then 2 else 3
/-- The first sensor of a domain. -/
def firstSensor (d : Nat) : Nat := if d < 4 then 32 * d else if d = 4 then 128 else if d < 15 then 144 + 2 * (d - 5) else 164 + (d - 15)
/-- The sensors of a domain. -/
def domainSensors (d : Nat) : List Nat := (List.range 172).filter (fun i => sensorDomain i = d)
/-- The keys that tell where a domain lies: its die or its stack (R506). -/
def domainWhere (d : Nat) : List (Nat × Nat) := if d < 4 then [(0, d)] else if 15 ≤ d then [(3, d - 15)] else []
/-- Trip temperature of a class in 0.125 degC (R530). -/
def tripOf (c : Nat) : Int := if c = 0 then 1000 else if c = 1 then 960 else if c = 2 then 800 else 880

/-- Whether a sensor has failed (R529). -/
def State.sensorFailed (s : State) (i : Nat) : Bool := s.fld (.thrmSensor i) ThrmSensor.failed = 1
/-- Whether a sensor is the sensor of a lost stack (R251, R529). -/
def State.sensorGone (s : State) (i : Nat) : Bool := 164 ≤ i && s.fld (.hbmStackState (i - 164)) HbmStackState.state = 3
/-- The latest reading of a sensor. -/
def State.tempOf (s : State) (i : Nat) : Int := signed 16 (s.fld (.thrmSensor i) ThrmSensor.value)
/-- The sensors that count for a domain. -/
def State.liveSensors (s : State) (d : Nat) : List Nat := (domainSensors d).filter (fun i => !s.sensorFailed i && !s.sensorGone i)

/-- The hottest of a list of sensors: temperature and sensor, the first one of equals. -/
def State.hottest (s : State) : List Nat → Option (Int × Nat)
  | [] => none
  | i :: r => match s.hottest r with
    | none => some (s.tempOf i, i)
    | some (t, j) => if s.tempOf i ≥ t then some (s.tempOf i, i) else some (t, j)

/-- Temperature of a domain (R529): none when all its sensors have failed. -/
def State.domainTemp (s : State) (d : Nat) : Option (Int × Nat) := s.hottest (s.liveSensors d)

/-- A field of THRM_CLASS of a domain's class: throttle and critical limit in degC, rise, window. -/
def State.thrmLimit (s : State) (d lo : Nat) : Nat := bitsOf (s.fld (.thrmClass (domainClass d)) ThrmClass.limits) lo 8
/-- Whether a THERMAL section is in force: there are no limits but the trips without one. -/
def State.hasThermal (s : State) : Bool := s.reg (.thrmClass 0) ≠ 0

/-- The rise of a sensor over the window (R531): its latest reading less the lowest of the readings before it. -/
def riseOf : List Int → Int
  | [] => 0
  | [_] => 0
  | t :: r :: rest => t - rest.foldl min r

/-- The largest rise of a domain's sensors. -/
def State.domainRise (s : State) (d : Nat) : Int := ((s.liveSensors d).map (fun i => riseOf (mget s.pwr.temps i []))).foldl max 0

/-- Whether a domain is at or above its throttle limit (R529, R534). -/
def State.atThrottle (s : State) (d : Nat) : Bool :=
  s.hasThermal && (match s.domainTemp d with
    | some (t, _) => (8 * s.thrmLimit d 0 : Nat) ≤ t
    | none => (domainSensors d).any (fun i => !s.sensorGone i))
/-- Whether a domain rises too fast (R531). -/
def State.tooFast (s : State) (d : Nat) : Bool :=
  s.hasThermal && (8 * s.thrmLimit d 16 * s.thrmLimit d 24 : Nat) < 10 * s.domainRise d
/-- Whether a domain is at its critical limit. -/
def State.atCritical (s : State) (d : Nat) : Bool :=
  s.hasThermal && (match s.domainTemp d with
    | some (t, _) => (8 * s.thrmLimit d 8 : Nat) ≤ t
    | none => false)

/-- Detail of a thermal event (R539). -/
def thermDetail (d : Nat) (t : Int) : List Byte := det [(1, d), (1, 0), (2, unsigned 16 t)]

/-- One sensor takes a reading (R528, R529); the readings before it that the window needs are kept. -/
def State.readSensor (s : State) (i : Nat) (r : SensorReading) : State :=
  if s.sensorFailed i then s
  else
    let d := sensorDomain i
    let keep := 10 * s.thrmLimit d 24
    let bad (last : Int) : State := ((s.setFld (.thrmSensor i) ThrmSensor.failed 1).log {
      code := 0x4D0A, detail := det [(1, d), (1, i - firstSensor d), (2, unsigned 16 last)], whr := domainWhere d }).pwrIrq PwrIrqStat.sensor
    match r with
    | .failed => if s.sensorGone i then s else bad (s.tempOf i)
    | .value t =>
      if t < -320 ∨ 1200 < t then (if s.sensorGone i then s else bad t)
      else { s.setFld (.thrmSensor i) ThrmSensor.value (unsigned 16 t) with
             pwr := { s.pwr with temps := mset s.pwr.temps i (t :: (mget s.pwr.temps i []).take keep) } }

/-- What a domain's new readings raise: THRM_STATUS, THERM_RISE, THERM_LIMIT, THERM_CRIT, the highest temperature held
(R531, R532, R534, R541). -/
def State.checkDomain (s : State) (d : Nat) : State :=
  let bitNow (f : Fld) : Bool := bitAt (s.fld .thrmStatus f) d
  let put (t : State) (f : Fld) (b : Bool) : State :=
    t.setFld .thrmStatus f (t.fld .thrmStatus f - b2n (bitAt (t.fld .thrmStatus f) d) * 2 ^ d + b2n b * 2 ^ d)
  let temp := match s.domainTemp d with
    | some (t, _) => t
    | none => 0
  let s1 := match s.domainTemp d with
    | some (t, _) => if signed 16 (s.fld (.thrmMaxhold d) ThrmMaxhold.hold) < t then s.setFld (.thrmMaxhold d) ThrmMaxhold.hold (unsigned 16 t) else s
    | none => s
  let s2 := if s.tooFast d ∧ !bitNow ThrmStatus.rising then (s1.log {
      code := 0x4D03, detail := thermDetail d temp, whr := domainWhere d }).pwrIrq PwrIrqStat.rise else s1
  let s3 := if s.atThrottle d ∧ !bitNow ThrmStatus.atLimit then (s2.log {
      code := 0x4D04, detail := thermDetail d temp, whr := domainWhere d }).pwrIrq PwrIrqStat.limit else s2
  let s4 := put (put s3 ThrmStatus.rising (s.tooFast d)) ThrmStatus.atLimit (s.atThrottle d)
  let was := s4.pwr.critOnce.contains d
  let s5 := { s4 with pwr := { s4.pwr with critOnce := (if s.atCritical d then [d] else []) ++ s4.pwr.critOnce.filter (· ≠ d) } }
  if s.atCritical d ∧ was then
    (s5.log { code := 0x3D05, detail := thermDetail d temp, whr := domainWhere d }).noBallast
  else s5

/-! ## Throttling (R534, R535) -/

/-- Whether a down condition is active (R534). -/
def State.downNow (s : State) : Bool :=
  s.fld .thrmStatus ThrmStatus.atLimit ≠ 0 || s.fld .thrmStatus ThrmStatus.rising ≠ 0 || s.pwr.overLimit || s.pwr.overPeak

/-- PWR_STATE.down and the time since which no down and no hold condition has been active. -/
def State.noteDown (s : State) : State :=
  let busy := s.downNow || s.fld .pwrState PwrState.down = 1 || s.fld .pwrState PwrState.sag = 1
  let s1 := s.setFld .pwrState PwrState.down (b2n s.downNow)
  if busy then { s1 with pwr := { s1.pwr with quietNs := s.pkg.uptime.toNat } } else s1

/-- Step 4 of R304 (R527): pending allotments, the throttle step, refill. -/
def State.powerStep (s : State) : State :=
  let s1 := s.noteDown
  let s2 := s1.partNums.foldl (fun t p => t.setFld (.partPwr p) PartPwr.allot (t.fld (.pwrGrant p) PwrGrant.allot)) s1
  let k := s2.capPct
  let s3 :=
    if s2.downNow then (if max 20 (k - 4) = k then s2 else s2.throttleTo (max 20 (k - 4)))
    else if s2.fld .pwrState PwrState.sag = 0 ∧ k < 100
        ∧ s2.fld .pwrCfg PwrCfg.holdUs * 1000 ≤ s2.pkg.uptime.toNat - s2.pwr.quietNs then s2.throttleTo (min 100 (k + 4))
    else s2
  s3.refill

/-- Whether the tokens held and the pool make up the cap (R475). -/
def State.tokensOk (s : State) : Bool :=
  (s.partNums.map s.heldBy).sum + s.fld .pwrState PwrState.pool = s.fld .pwrState PwrState.cap

/-! ## The input (R514 to R518) -/

/-- One of the two power conditions: logged when it becomes active. -/
def State.powerCond (s : State) (was now : Bool) (which mean : Nat) : State :=
  if now ∧ !was then (s.log { code := 0x4D07, detail := det [(1, which), (1, 0), (2, mean)] }).pwrIrq PwrIrqStat.power else s

/-- POWER_SAMPLE (R514, R534): samples, histories, the sums of the stitch, and the two power conditions. Without a POWER
section there is no limit. -/
def execPowerSample (vin iin pin : Nat) (s : State) : Host.Outcome State Fault Refusal :=
  commit s true (
    let w := s.pwr
    let ph := (pin :: w.pinHist).take 1000
    let now := s.pkg.uptime.toNat
    let mean (l : List Nat) : Nat := l.sum / max 1 l.length
    let above (l : List Nat) (lim : Nat) : Bool := s.cap0 ≠ 0 && lim * l.length < l.sum
    let o1 := above ph (s.fld .pwrCfg PwrCfg.limitW)
    let o2 := above (ph.take 10) (s.fld .pwrCfg PwrCfg.peakW)
    let s1 := (((s.setFld .pwrNow PwrNow.vin vin).setFld .pwrNow PwrNow.iin iin).setFld .pwrNow PwrNow.pin pin).liveAdd
      .pwrEnergySnap PwrEnergySnap.energy pin
    let s2 := { s1 with pwr := { w with
      pinHist := ph, vinHist := (vin :: w.vinHist).take 10,
      vinMin := if w.samples = 0 then vin else min w.vinMin vin, vinMax := max w.vinMax vin,
      pinSum := w.pinSum + pin, pinMax := max w.pinMax pin, samples := w.samples + 1,
      overLimit := o1, overPeak := o2, quietNs := if w.overLimit ∨ w.overPeak then now else w.quietNs } }
    ((s2.powerCond w.overLimit o1 0 (mean ph)).powerCond w.overPeak o2 1 (mean (ph.take 10))).noteDown)

/-- SAG_WARN (R516, R517): logged once while it is active; the cut acts at once; the limiter runs no ballast. -/
def execSagWarn (vinMin : Nat) (s : State) : Host.Outcome State Fault Refusal :=
  commit s true (
    if s.fld .pwrState PwrState.sag = 1 then s
    else
      let s1 := ((s.log { code := 0x4D01, detail := det [(2, vinMin)] }).pwrIrq PwrIrqStat.sag).setFld .pwrState PwrState.sag 1
      let s2 := s1.noBallast
      let k := min s2.capPct (s2.fld .pwrSagCtl PwrSagCtl.pct)
      (if s2.fld .pwrSagCtl PwrSagCtl.cut = 1 ∧ s2.cap0 ≠ 0 ∧ k < s2.capPct then s2.throttleTo k else s2).noteDown)

/-- SAG_WARN_END (R518). -/
def execSagWarnEnd (s : State) : Host.Outcome State Fault Refusal :=
  commit s true (if s.fld .pwrState PwrState.sag = 1 then (s.noteDown).setFld .pwrState PwrState.sag 0 else s)

/-! ## What a tick latches (R514, R541) -/

/-- The SNAP registers of power and temperature at a tick. -/
def State.powerSnap (s : State) : State :=
  let w := s.pwr
  let mean := w.pinSum / max 1 w.samples
  let mean1 := w.pinHist.sum / max 1 w.pinHist.length
  let s1 := (s.setReg .pwrVinSnap (BitVec.ofNat 64 (w.vinMin % 65536 + w.vinMax % 65536 * 65536))).setReg .pwrPinSnap
    (BitVec.ofNat 64 (mean % 65536 + w.pinMax % 65536 * 65536 + mean1 % 65536 * 2 ^ 32))
  let s2 := { s1 with pwr := { w with vinMin := 0, vinMax := 0, pinSum := 0, pinMax := 0, samples := 0 } }
  (List.range 23).foldl (fun t d =>
    let (mx, ix) := match s.domainTemp d with
      | some (x, i) => (unsigned 16 x, i - firstSensor d)
      | none => (0x7FFF, 0)
    t.setReg (.thrmDomSnap d) (BitVec.ofNat 64 (mx + ix % 256 * 65536 + unsigned 16 (s.domainRise d) * 2 ^ 32))) s2

end Sys2Proof.Machine
end

