-- ==== Sys2Proof/Machine/Optics.lean ====
section
/-! DEFINITION. The optical ports (R384 to R411, R418): feeds, port states, training, burnish, wrong-wavelength recovery,
retired lines, the slew limiter, disable and loopback, and the repetition of CTRL requests (R400). -/
namespace Sys2Proof.Machine

/-! ## Port states -/

/-- OPT_PORT_DOWN (R396): reason 1 lines, 2 feed, 3 Ethernet link status. -/
def State.portDownEvent (s : State) (k reason : Nat) : State :=
  s.log { code := 0x4906, detail := det [(1, k), (1, reason)], whr := [(6, k)] }

/-- Whether a port carries traffic; an Ethernet port does while it is Up (R418). -/
def State.lit (s : State) (k : Nat) : Bool := s.carrying k || (64 ≤ k && s.portState k = 3)

/-- A port goes to Seek with a new wait (R397). -/
def State.toSeek (s : State) (k : Nat) : State := s.enterSeek k

/-- OPT_DEGRADED of a direction (R407, R421). -/
def State.degraded (s : State) (k : Nat) (rx : Bool) : State :=
  s.log { code := 0x4902, detail := det [(1, k), (1, 0), (1, b2n rx)], whr := [(6, k), (8, b2n rx)] }
/-- Note whether a direction runs on seven lines. -/
def State.setSeven (s : State) (k : Nat) (rx now : Bool) : State :=
  s.modOpt k (fun o => if rx then { o with rxSeven := now } else { o with txSeven := now })
/-- A direction comes to run on seven lines, or no longer does. -/
def State.noteSeven (s : State) (k : Nat) (rx : Bool) : State :=
  let was := if rx then (s.opt k).rxSeven else (s.opt k).txSeven
  let now := s.working k rx = 7
  let s1 := s.setSeven k rx now
  if now ∧ !was then s1.degraded k rx else s1

/-- The state that a carrying fabric port has from its lines (R395, R396): Up, Burnish, Degraded, or Seek below seven. -/
def State.refreshPort (s : State) (k : Nat) : State :=
  if !s.carrying k then s
  else
    let w := min (s.working k true) (s.working k false)
    if w < 7 then (s.portDownEvent k 1).toSeek k
    else
      let s1 := (s.noteSeven k false).noteSeven k true
      let o := s1.opt k
      s1.setPort k (if w = 7 then 5 else if o.txBurn.isSome ∨ o.rxBurn.isSome then 4 else 3)

/-- A port enters Train: its gate opens and its transmit rings sweep (R395, R398). -/
def State.enterTrain (s : State) (k : Nat) : State :=
  (((s.setPort k 2).modLink k Link.stopped).modOpt k (fun _ => { Opt.idle with trainStep := 1 })).putRings k false 1
/-- The rings of a direction that training has found good are locked, the others off (R398). -/
def State.lockRings (s : State) (k : Nat) (rx : Bool) : State :=
  (List.range 9).foldl (fun t l => t.setRing k rx l (if bitAt (t.retiredLines k rx) l then 4 else if (t.usable k rx).contains l then 2 else 0)) s

/-- Ports of a live tree that are not dark enter Seek, at step 6 of a commit or when disable is cleared (R395, R413). -/
def State.wakePort (s : State) (k : Nat) : State :=
  let wanted := if k < 64 then bitsOf (s.staged 7 k) 0 2 ≠ 0 else s.staged 7 k = 1
  if wanted ∧ s.fld (.optPortCtl k) OptPortCtl.disable = 0 ∧ s.portState k = 0 then s.toSeek k else s
/-- A port goes Dark (R395, R413). -/
def State.darken (s : State) (k : Nat) : State :=
  ((if k < 64 then (s.stopPort k 0).modLink k Link.stopped else s.setPort k 0).modOpt k (fun _ => Opt.idle)).ringsOff k

/-! ## Training (R397 to R400) -/

/-- A training fails: to Seek, one more consecutive failure; event and detail as given (R397, R398, R399). -/
def State.trainFail (s : State) (k : Nat) (e : Ev) : State :=
  (((s.toSeek k).satFld (.optPortState k) OptPortState.failures 1).satFld (.optPortStat k) OptPortStat.trainFail 1).log e
/-- OPT_TRAIN_TIMEOUT of a port, with the last step reached. -/
def State.trainEvent (s : State) (k : Nat) : Ev :=
  { code := 0x4903, detail := det [(1, k), (1, (s.opt k).trainStep)], whr := [(6, k)] }

/-- TRAIN_HELLO of a port (R400). -/
def State.helloMsg (s : State) (k : Nat) : Ctrl :=
  ⟨1, 0, 0, 0, BitVec.ofNat 64 (s.ownNode + k * 2 ^ 10 + s.fld (.fabPortState k) FabPortState.role * 2 ^ 16 + s.retiredLines k true * 2 ^ 18)⟩
/-- ECHO_REQ number `n` of a training. -/
def echoMsg (n : Nat) : Ctrl := ⟨3, 0, 0, 0, BitVec.ofNat 64 n⟩
/-- TRAIN_DONE. -/
def doneMsg : Ctrl := ⟨2, 0, 0, 0, 0⟩

/-- Training is complete: the port carries traffic (R398, R341, R387). -/
def State.portUp (s : State) (k : Nat) : State :=
  let s1 := ((s.layLanes k true).layLanes k false).setFld (.optPortState k) OptPortState.failures 0
  (((s1.setPort k 3).startCarrying k).modOpt k (fun o => { Opt.idle with
    lines := o.lines, peerRetired := o.peerRetired, peerPort := o.peerPort })).refreshPort k

/-- SEEK_WAIT_END (R397): the port trains, unless its feed is low or a loopback holds it. -/
def execSeekWaitEnd (port : Nat) (s : State) : Host.Outcome State Fault Refusal :=
  commit s (Instr.wf (.seekWaitEnd port)) (
    if s.portState port ≠ 1 ∨ !(s.opt port).seekWait then s
    else if s.loopHolds port then s
    else if s.feedLow port then s.modOpt port (fun o => { o with seekWait := false })
    else s.enterTrain port)

/-- Whether a tag passes its CRC (R389). -/
def tagValid (tag : List Byte) : Bool := leNat ((tag.drop 6).take 2) = crc16 (tag.take 6)
/-- Whether a tag comes from the partner's node, and from the partner's port once its TRAIN_HELLO has named it (R389, R400). -/
def State.tagMine (s : State) (k : Nat) (tag : List Byte) : Bool :=
  let w := leNat (tag.take 2)
  w % 1024 = s.fld (.fabPortState k) FabPortState.partner && (match (s.opt k).peerPort with
    | none => true
    | some p => w / 1024 = p)

/-- TRAINING_STEP_END (R398): the end of T1, T2 or T5; below seven good lines in a direction the training fails. -/
def execTrainingStepEnd (port : Nat) (ok : Bool) (lines : BitVec 9) (s : State) : Host.Outcome State Fault Refusal :=
  commit s (decide (port < 64)) (
    let st := (s.opt port).trainStep
    if s.portState port ≠ 2 then s
    else
      let s1 := if st = 2 ∨ st = 5 then s.modOpt port (fun o => { o with lines := lines }) else s
      if !ok then s.trainFail port (s.trainEvent port)
      else if st = 1 then (s.modOpt port (fun o => { o with trainStep := 2 })).lockRings port false
      else if st = 2 then
        (if (s1.usable port true).length < 7 then s1.trainFail port (s1.trainEvent port)
         else ((s1.modOpt port (fun o => { o with trainStep := 3 })).lockRings port true).sendReq port (s1.helloMsg port))
      else if st = 5 then
        (if (s1.usable port true).length < 7 then s1.trainFail port (s1.trainEvent port)
         else
          let s2 := (s1.modOpt port (fun o => { o with trainStep := 6, doneSent := true })).sendReq port doneMsg
          if (s2.opt port).doneGot then (s2.answered port (fun m => m.kind = 2)).portUp port else s2)
      else s)

/-- TRAIN_HELLO (R399): the partner is checked and its retired receive lines are noted; a repeated one is answered. -/
def execTrainHello (port : Nat) (v : BitVec 64) (s : State) : Host.Outcome State Fault Refusal :=
  commit s (Instr.wf (.trainHello port v)) (
    let st := (s.opt port).trainStep
    if s.portState port ≠ 2 ∨ st < 3 then s
    else if st > 3 then s.sendCtrl port (s.helloMsg port)
    else if wbits v 0 10 ≠ s.fld (.fabPortState port) FabPortState.partner ∨ wbits v 16 2 ≠ s.fld (.fabPortState port) FabPortState.role then
      s.trainFail port { code := 0x4904, detail := det [(1, port), (1, 0), (2, wbits v 0 10), (1, wbits v 10 6), (1, wbits v 16 2)], whr := [(6, port)] }
    else
      let s1 := (s.answered port (fun m => m.kind = 1)).modOpt port (fun o => { o with
        trainStep := 4, peerRetired := BitVec.ofNat 9 (wbits v 18 9), peerPort := some (wbits v 10 6), echoes := 0, echoSum := 0 })
      if (s1.usable port false).length < 7 then s1.trainFail port (s1.trainEvent port)
      else (s1.sendCtrl port (s1.helloMsg port)).sendReq port (echoMsg 0))

/-- TRAIN_DONE (R398): with the port's own TRAIN_DONE sent, the port is Up; a partner that repeats it is answered. -/
def execTrainDone (port : Nat) (s : State) : Host.Outcome State Fault Refusal :=
  commit s (Instr.wf (.trainDone port)) (
    if s.carrying port then s.sendCtrl port doneMsg
    else if s.portState port ≠ 2 then s
    else
      let s1 := s.modOpt port (fun o => { o with doneGot := true })
      if (s1.opt port).doneSent then ((s1.answered port (fun m => m.kind = 2)).sendCtrl port doneMsg).portUp port else s1)

/-- TRAIN_TIMEOUT (R398). -/
def execTrainTimeout (port : Nat) (s : State) : Host.Outcome State Fault Refusal :=
  commit s (Instr.wf (.trainTimeout port)) (if s.portState port = 2 then s.trainFail port (s.trainEvent port) else s)

/-- ECHO_REQ (R400): answered with its token, in Train and while the port carries traffic. -/
def execEchoReq (port : Nat) (token : BitVec 64) (s : State) : Host.Outcome State Fault Refusal :=
  commit s (Instr.wf (.echoReq port token)) (
    if s.carrying port ∨ s.portState port = 2 then s.sendCtrl port ⟨4, 0, 0, 0, token⟩ else s)

/-- ECHO_RSP (R398, R418): a round trip of T4, the 64th of which gives the one-way delay as half the mean; in loopback
mode 5 the latest round trip. -/
def execEchoRsp (port : Nat) (token : BitVec 64) (rttNs : Nat) (s : State) : Host.Outcome State Fault Refusal :=
  commit s (Instr.wf (.echoRsp port token rttNs)) (
    let o := s.opt port
    if s.portState port = 2 ∧ o.trainStep = 4 ∧ token.toNat = o.echoes then
      let sum := o.echoSum + rttNs
      let s1 := s.answered port (fun m => m.kind = 3)
      if o.echoes + 1 = 64 then
        (s1.modOpt port (fun o => { o with trainStep := 5, echoes := 64, echoSum := sum })).setFld (.optPortState port)
          OptPortState.delayNs (sum / 128)
      else (s1.modOpt port (fun o => { o with echoes := o.echoes + 1, echoSum := sum })).sendReq port (echoMsg (o.echoes + 1))
    else if s.carrying port ∧ s.loopMode port = 5 then
      (s.answered port (fun m => m.kind = 3)).setFld (.optLbRes port) OptLbRes.rttNs rttNs
    else s)

/-! ## Retired lines (R404, R406, R407) -/

/-- Retire a line of a direction: its mark, its ring, OPT_DEGRADED when it leaves seven usable lines, and the state of the port
that is left. -/
def State.retireLine (s : State) (k : Nat) (rx : Bool) (l : Nat) : State :=
  let f := if rx then OptPortState.rxRetired else OptPortState.txRetired
  if bitAt (s.fld (.optPortState k) f) l then s
  else
    let s1 := ((s.setFld (.optPortState k) f (s.fld (.optPortState k) f + 2 ^ l)).setLane k rx l 15).setRing k rx l 4
    let sp := if rx then OptPortState.rxSpare else OptPortState.txSpare
    let s2 := (s1.setFld (.optPortState k) sp 15).modOpt k (fun o => { o with
      recovers := if rx then o.recovers.filter (fun r => r.line ≠ l) else o.recovers,
      txOut := if rx then o.txOut else o.txOut.filter (· ≠ l), sweeps := if rx then o.sweeps else o.sweeps.filter (· ≠ l),
      due := if rx then o.due else [], urgent := if rx then o.urgent else [],
      asked := if rx then o.asked.filter (· ≠ l) else o.asked, burnt := if rx then o.burnt.filter (· ≠ l) else o.burnt,
      moves := o.moves.filter (fun m => !(m.rx = rx && m.line = l)) })
    let s3 := s2.log { code := 0x4901, detail := det [(1, k), (1, l), (1, b2n rx)], whr := [(6, k), (7, l), (8, b2n rx)] }
    (if (s3.usable k rx).length = 7 then (s3.degraded k rx).setSeven k rx true else s3).refreshPort k

/-! ## Lane moves (R403, R406) -/

/-- Move a lane of a direction to a line. -/
def State.moveLane (s : State) (k : Nat) (rx : Bool) (lane line : Nat) : State :=
  ((List.range 9).foldl (fun t l => if t.laneOf k rx l = lane then t.setLane k rx l 15 else t) s).setLane k rx line lane

/-- Index of the first flit that can follow a SWAP sent now, counted since the last MARKER, or since the one that is still to
leave (R403; assumption 76). -/
def State.swapIndex (s : State) (k : Nat) : Nat :=
  (if (s.link k).marker.isSome then 0 else (s.link k).sinceMarker) + (s.link k).ctrl.length + 1

/-- Announce by SWAP the move of a lane of the transmit direction, for a burnish of line `l` (R402, R403). -/
def State.announce (s : State) (k l lane line : Nat) : State :=
  let i := s.swapIndex k
  (s.modOpt k (fun o => { o with moves := o.moves ++ [⟨false, false, lane, line, i⟩] })).sendCtrl k ⟨7, l, lane, line, BitVec.ofNat 64 i⟩

/-- A burnish of a direction ends: the line that an alarm asked for has had it (R392), and a burnish that gave its line another
lane than its own leaves no spare (R405). -/
def State.endBurn (s : State) (k : Nat) (rx : Bool) (b : Burn) (lane : Nat) : State :=
  let s1 := if lane = b.lane then s else s.setFld (.optPortState k) (if rx then OptPortState.rxSpare else OptPortState.txSpare) 15
  if rx then (s1.modOpt k (fun o => { o with
      rxBurn := none, asked := o.asked.filter (· ≠ b.line),
      burnt := if o.asked.contains b.line then o.burnt ++ [b.line] else o.burnt })).refreshPort k
  else ((s1.modOpt k (fun o => { o with txBurn := none })).satFld (.optPortStat k) OptPortStat.burnishes 1).refreshPort k

/-- A lane moves at its flit (R402, R403, R406): for a burnish to the spare, whose line is then swept, or back; for a recovery
off its line, or back. -/
def State.applyMove (s : State) (k : Nat) (m : LaneMove) : State :=
  let from_ := (List.range 9).filter (fun l => s.laneOf k m.rx l = m.lane)
  let s1 := (s.modOpt k (fun o => { o with moves := o.moves.filter (· ≠ m) })).moveLane k m.rx m.lane m.line
  let other : State := (s1.modOpt k (fun o => { o with
    txOut := if m.rx then o.txOut else o.txOut.filter (fun l => l ≠ m.line && !from_.contains l) ++ (if m.off then from_ else []) })).refreshPort k
  match (if m.rx then (s.opt k).rxBurn else (s.opt k).txBurn) with
  | none => other
  | some b =>
    if !m.off ∧ m.line = b.spare ∧ m.lane = b.lane ∧ b.step ≤ 3 then
      ((s1.setRing k m.rx b.line 1).modOpt k (fun o =>
        if m.rx then { o with rxBurn := some { b with step := 4 } } else { o with txBurn := some { b with step := 4 } })).refreshPort k
    else if !m.off ∧ m.line = b.line ∧ b.step = 5 then s1.endBurn k m.rx b m.lane
    else other

/-- Whether the flit of a move has come. -/
def State.moveDue (s : State) (k : Nat) (m : LaneMove) : Bool :=
  if m.rx then m.at_ ≤ (s.link k).rxSince else (s.link k).marker.isNone && m.at_ ≤ (s.link k).sinceMarker
/-- The lane moves whose flit has come take effect, both ends at that index (R403). -/
def State.takeMoves (s : State) (k : Nat) : State :=
  (s.opt k).moves.foldl (fun t m => if t.carrying k ∧ (t.opt k).moves.contains m ∧ t.moveDue k m then t.applyMove k m else t) s

/-- At a tick (R403): a SWAP that has not taken effect is withdrawn, and a burnish resumes with step 1; a LANE_MOVE takes effect
(assumption 76). -/
def State.tickMoves (s : State) (k : Nat) : State :=
  let ms := (s.opt k).moves
  let s1 := s.modOpt k (fun o => { o with moves := [] })
  let s2 := match (s.opt k).txBurn with
    | some b => if b.step = 1 ∧ ms.any (fun m => !m.rx && m.line = b.spare) then s1.sendReq k ⟨5, b.line, b.lane, 0, 0⟩ else s1
    | none => s1
  (ms.filter LaneMove.off).foldl (fun t m => if t.carrying k then t.applyMove k m else t) s2

/-- FLIT_SLOT: a flit boundary of the port's output. -/
def execFlitSlot (port : Nat) (s : State) : Host.Outcome State Fault Refusal :=
  commit s (Instr.wf (.flitSlot port)) ((s.slotFlit port).takeMoves port)
/-- FLIT_RECEIVE. -/
def execFlitReceive (port : Nat) (bytes : List (BitVec 8)) (s : State) : Host.Outcome State Fault Refusal :=
  commit s (Instr.wf (.flitReceive port bytes)) ((s.takeFlit port bytes).takeMoves port)
/-- ACK_TIMER (R331). -/
def execAckTimer (port : Nat) (s : State) : Host.Outcome State Fault Refusal :=
  commit s (Instr.wf (.ackTimer port)) ((s.ackDue port).takeMoves port)

/-! ## Burnish (R401 to R405) -/

/-- Burnishes in progress on the engine of a port. -/
def State.engineBurns (s : State) (k : Nat) : Nat :=
  ((List.range 8).map (fun i => b2n (s.opt (k / 8 * 8 + i)).txBurn.isSome + b2n (s.opt (k / 8 * 8 + i)).rxBurn.isSome)).sum

/-- Step 1, at a tick: start the next burnish of the transmit direction that is due, when the limits of R401 allow it. -/
def State.startBurn (s : State) (k : Nat) : State :=
  let o := s.opt k
  let sp := s.spareNow k false
  match (o.urgent ++ o.due)[0]? with
  | none => s
  | some l =>
    if !s.carrying k ∨ o.txBurn.isSome ∨ sp = 15 ∨ !o.txOut.isEmpty ∨ !o.sweeps.isEmpty ∨ s.engineBurns k ≥ 4 then s
    else
      let lane := s.laneOf k false l
      let s1 := (s.modOpt k (fun o => { o with
        urgent := o.urgent.filter (· ≠ l), due := o.due.filter (· ≠ l),
        txBurn := some ⟨l, lane, sp, if l = sp then 4 else 1, 0⟩ })).sendReq k ⟨5, l, if l = sp then 15 else lane, 0, 0⟩
      (if l = sp then s1.setRing k false l 1 else s1).refreshPort k

/-- BURNISH_DUE (R401): it starts at a tick, when its turn comes. -/
def execBurnishDue (port line : Nat) (s : State) : Host.Outcome State Fault Refusal :=
  commit s (Instr.wf (.burnishDue port line)) (
    if s.carrying port ∧ s.spareNow port false ≠ 15 ∧ (s.usable port false).contains line then
      s.modOpt port (fun o => { o with due := o.due.filter (· ≠ line) ++ [line] })
    else s)

/-- BURNISH_REQ (R402, R404): the receiver aligns the spare with the line, or, for the spare itself, sweeps it. -/
def execBurnishReq (port line : Nat) (s : State) : Host.Outcome State Fault Refusal :=
  commit s (Instr.wf (.burnishReq port line)) (
    if !s.carrying port then s
    else match (s.opt port).rxBurn with
      | some b => if b.line = line ∧ 3 ≤ b.step then s.sendCtrl port ⟨6, line, 0, 0, 0⟩ else s
      | none =>
        let sp := s.spareNow port true
        if sp = line then
          (((s.modOpt port (fun o => { o with rxBurn := some ⟨line, 15, sp, 4, 0⟩ })).setRing port true line 1).sendCtrl port ⟨6, line, 0, 0, 0⟩).refreshPort port
        else (s.modOpt port (fun o => { o with rxBurn := some ⟨line, s.laneOf port true line, sp, 2, 0⟩ })).refreshPort port)

/-- BURNISH_READY (R402): SWAP announces that the lane moves to the spare. -/
def execBurnishReady (port line : Nat) (s : State) : Host.Outcome State Fault Refusal :=
  commit s (Instr.wf (.burnishReady port line)) (match (if s.carrying port then (s.opt port).txBurn else none) with
    | none => s
    | some b =>
      let s1 := s.answered port (fun m => m.kind = 5 && m.line = line)
      if b.line = line ∧ b.step = 1 ∧ !(s.opt port).moves.any (fun m => !m.rx && m.line = b.spare) then
        s1.announce port line b.lane b.spare
      else s1)

/-- SWAP (R402, R403, R406): the partner moves a lane at a flit. For a burnish of the receive direction it goes to the spare, and
back at the end; otherwise the partner ends a recovery, and the lane goes back to its transmit line. -/
def execSwap (port lane line : Nat) (flit : BitVec 64) (s : State) : Host.Outcome State Fault Refusal :=
  commit s (Instr.wf (.swap port lane line flit)) (
    if !s.carrying port then s
    else
      let rx := (s.opt port).rxBurn.any (fun b => (b.lane = lane && line = b.spare && b.step = 3) || (b.line = line && b.step = 5))
      (s.modOpt port (fun o => { o with moves := o.moves ++ [⟨rx, false, lane, line, flit.toNat⟩] })).takeMoves port)

/-- A burnish of the transmit direction is given up. -/
def State.dropBurn (s : State) (k : Nat) : State := (s.modOpt k (fun o => { o with txBurn := none })).refreshPort k

/-- BURNISH_DONE (R402, R404): the lane goes back at the next tick; a burnish of the spare is over. -/
def execBurnishDone (port line : Nat) (s : State) : Host.Outcome State Fault Refusal :=
  commit s (Instr.wf (.burnishDone port line)) (match (if s.carrying port then (s.opt port).txBurn else none) with
    | none => s
    | some b =>
      if b.line = line ∧ b.step = 4 then
        let s1 := (s.answered port (fun m => m.kind = 5 && m.line = line)).setRing port false line 2
        if b.line = b.spare then s1.endBurn port false b b.lane
        else s1.modOpt port (fun o => { o with txBurn := some { b with step := 5 } })
      else s)

/-- Step 5 at a tick (R402, R405): the lane is copied back onto its line and SWAP moves it; a lane that lost its own line takes
the line instead. -/
def State.burnBack (s : State) (k : Nat) : State :=
  match (s.opt k).txBurn with
  | none => s
  | some b =>
    if b.step ≠ 5 ∨ !s.carrying k then s
    else
      let homeless := (List.range 8).find? (fun i => (List.range 9).all (fun l => s.laneOf k false l ≠ i))
      s.announce k b.line (homeless.getD b.lane) b.line

/-- BURNISH_STEP_END (R402, R404): the receiver has aligned the spare, or swept the line; or the sender's own sweep has
run out. A line that fails step 4 three times is retired. -/
def execBurnishStepEnd (port line : Nat) (ok : Bool) (s : State) : Host.Outcome State Fault Refusal :=
  commit s (decide (port < 64) && decide (line < 9)) (
    let o := s.opt port
    if !s.carrying port then s
    else match o.rxBurn.filter (fun b => b.line = line), o.txBurn.filter (fun b => b.line = line) with
      | some b, _ =>
        if b.step = 2 then
          (if ok then (s.modOpt port (fun o => { o with rxBurn := some { b with step := 3 } })).sendCtrl port ⟨6, line, 0, 0, 0⟩
           else (s.modOpt port (fun o => { o with rxBurn := none })).refreshPort port)
        else if b.step = 4 then
          (if ok then
            let s1 := (s.sendCtrl port ⟨8, line, 0, 0, 0⟩).setRing port true line 2
            if b.line = b.spare then s1.endBurn port true b b.lane
            else s1.modOpt port (fun o => { o with rxBurn := some { b with step := 5 } })
          else if b.fails + 1 ≥ 3 then
            ((s.modOpt port (fun o => { o with rxBurn := none })).sendCtrl port ⟨12, line, 0, 0, 0⟩).retireLine port true line
          else s.modOpt port (fun o => { o with rxBurn := some { b with fails := b.fails + 1 } }))
        else s
      | none, some b =>
        if b.step = 4 ∧ !ok then
          (if b.fails + 1 ≥ 3 then (s.modOpt port (fun o => { o with txBurn := none })).retireLine port false line
           else s.modOpt port (fun o => { o with txBurn := some { b with fails := b.fails + 1 } }))
        else s
      | none, none => s)

/-- OPT_RING_ALARM (R392): a transmit line is burnished at the next opportunity, ahead of scheduled ones; for a receive line the
partner's next burnish of it is noted (assumption 76), and a third window beyond 2.4 × 10⁻⁴ in succession after it retires the
line under R406. -/
def execOptRingAlarm (port line : Nat) (side : AlarmSide) (s : State) : Host.Outcome State Fault Refusal :=
  commit s (Instr.wf (.optRingAlarm port line side)) (
    if !s.carrying port then s
    else
      let rx : Bool := decide (side ≠ .tx)
      let s1 := (s.log { code := 0x0902, detail := det [(1, port), (1, line), (1, b2n rx)], whr := [(6, port), (7, line), (8, b2n rx)] }).setRing
        port rx line 3
      match side with
      | .rx windows =>
        if 3 ≤ windows ∧ (s.opt port).burnt.contains line then (s1.sendCtrl port ⟨12, line, 0, 0, 0⟩).retireLine port true line
        else s1.modOpt port (fun o => { o with asked := o.asked.filter (· ≠ line) ++ [line] })
      | .tx =>
        if s.spareNow port false = 15 then s1
        else s1.modOpt port (fun o => { o with urgent := o.urgent.filter (· ≠ line) ++ [line], due := o.due.filter (· ≠ line) }))

/-! ## Wrong-wavelength lock (R406) -/

/-- The start of an attempt at the receiver: its own ring is swept when the line's tag names another line, else the
partner is told. -/
def State.attempt (s : State) (k : Nat) (r : Recover) : State :=
  let s1 := (s.satFld (.optPortStat k) OptPortStat.mislocks 1).log {
    code := 0x0901, detail := det [(1, k), (1, r.line), (1, b2n r.wrong)], whr := [(6, k), (7, r.line), (8, b2n r.wrong)] }
  let put (t : State) (ph : Nat) : State := t.modOpt k (fun o => { o with
    recovers := { r with phase := ph } :: o.recovers.filter (fun x => x.line ≠ r.line) })
  if r.wrong then (put s1 0).setRing k true r.line 1 else (put s1 1).sendReq k ⟨9, r.line, 0, 0, 0⟩

/-- The next attempt, or after the third the line is retired. -/
def State.nextAttempt (s : State) (k : Nat) (r : Recover) : State :=
  let s1 := s.answered k (fun m => m.kind = 9 && m.line = r.line)
  if r.attempt < 3 then s1.attempt k { r with attempt := r.attempt + 1 }
  else (s1.sendCtrl k ⟨12, r.line, 0, 0, 0⟩).retireLine k true r.line

/-- A line is noted as one without a valid tag, or no longer (R390). -/
def State.setNoTag (s : State) (k l : Nat) (none_ : Bool) : State :=
  s.modOpt k (fun o => { o with noTag := if none_ then o.noTag ||| BitVec.ofNat 9 (2 ^ l) else o.noTag &&& ~~~ BitVec.ofNat 9 (2 ^ l) })

/-- The start of a recovery (R406): the line's lane moves to the spare, if one is free, and the first attempt starts. -/
def State.recover (s : State) (k line : Nat) (wrong : Bool) : State :=
  if !s.carrying k ∨ (s.outLines k true).contains line ∨ !(s.usable k true).contains line then s
  else
    let lane := s.laneOf k true line
    let sp := s.spareNow k true
    let free := sp ≠ 15 ∧ sp ≠ line ∧ s.laneOf k true sp = 15 ∧ !(s.outLines k true).contains sp ∧ (s.opt k).rxBurn.isNone
    let s1 := if free ∧ lane ≠ 15 then (s.moveLane k true lane sp).sendCtrl k
        ⟨11, line, lane, sp, BitVec.ofNat 64 ((s.link k).rxSince + (s.link k).ctrl.length + 1)⟩ else s.setLane k true line 15
    (s1.attempt k ⟨line, lane, 1, 0, wrong⟩).refreshPort k

/-- MISLOCK (R406): a line delivers no valid tag for 2 µs, or a valid one that names another line. -/
def execMislock (port line : Nat) (wrongLine : Option Nat) (s : State) : Host.Outcome State Fault Refusal :=
  commit s (Instr.wf (.mislock port line wrongLine)) (
    if !s.carrying port ∨ (s.outLines port true).contains line ∨ !(s.usable port true).contains line then s
    else (if wrongLine.isNone then s.setNoTag port line true else s).recover port line wrongLine.isSome)

/-- LANE_TAG (R389, R397, R406): a valid tag of the partner ends the wait of Seek; on a port that carries traffic a valid tag
that names another line, node or port starts a recovery, and during one it shows which line the ring is locked to. -/
def execLaneTag (port line : Nat) (tag : List (BitVec 8)) (s : State) : Host.Outcome State Fault Refusal :=
  commit s (Instr.wf (.laneTag port line tag)) (
    let named := (tag.getD 2 0).toNat / 16
    if !tagValid tag then s
    else if s.portState port = 1 then
      (if s.tagMine port tag ∧ !s.loopHolds port ∧ !s.feedLow port then s.enterTrain port else s)
    else if !s.carrying port then s
    else
      let s1 := s.setNoTag port line false
      if (s1.opt port).recovers.any (fun r => r.line = line) then
        s1.modOpt port (fun o => { o with recovers := o.recovers.map (fun r => if r.line = line then { r with wrong := named ≠ line } else r) })
      else if named ≠ line ∨ !s.tagMine port tag then s1.recover port line (named ≠ line)
      else s1)

/-- A report that the partner gets no valid tag on a line (R390, R406): the modulator ring is swept. A lane that has no spare to
go to has lost its line (R405, R406). -/
def State.reportedLine (s : State) (k l : Nat) : State :=
  if !s.carrying k ∨ (s.opt k).sweeps.contains l ∨ !(s.usable k false).contains l then s
  else
    let s1 := if s.spareNow k false = 15 ∨ (s.opt k).txBurn.isSome then s.setLane k false l 15 else s
    ((s1.setRing k false l 1).modOpt k (fun o => { o with sweeps := o.sweeps ++ [l] })).refreshPort k
/-- A recovery comes to the reading of the line's tags (R406). -/
def State.readTags (s : State) (k l : Nat) : State :=
  s.modOpt k (fun o => { o with recovers := o.recovers.map (fun x => if x.line = l then { x with phase := 2, wrong := false } else x) })

/-- MISLOCK_REPORT (R406). -/
def execMislockReport (port line : Nat) (s : State) : Host.Outcome State Fault Refusal :=
  commit s (Instr.wf (.mislockReport port line)) (s.reportedLine port line)

/-- MISLOCK_DONE (R406): the tags of the line are read. -/
def execMislockDone (port line : Nat) (failed : Bool) (s : State) : Host.Outcome State Fault Refusal :=
  commit s (Instr.wf (.mislockDone port line failed)) (match (s.opt port).recovers.find? (fun r => r.line = line) with
    | none => s
    | some r => if r.phase = 1 then
        (s.answered port (fun m => m.kind = 9 && m.line = line)).readTags port line
      else s)

/-- MISLOCK_SWEEP_DONE (R406): the receive ring has locked again, or the modulator ring has, which the partner is told. -/
def execMislockSweepDone (port line : Nat) (rx ok : Bool) (s : State) : Host.Outcome State Fault Refusal :=
  commit s (decide (port < 64) && decide (line < 9)) (
    if rx then
      (match (s.opt port).recovers.find? (fun r => r.line = line) with
      | none => s
      | some r => if r.phase = 0 then
          (if ok then (s.setRing port true line 2).readTags port line else (s.nextAttempt port { r with wrong := false }).refreshPort port)
        else s)
    else if (s.opt port).sweeps.contains line then
      (((s.setRing port false line (if ok then 2 else 3)).modOpt port (fun o => { o with sweeps := o.sweeps.filter (· ≠ line) })).sendCtrl
        port ⟨10, line, 0, 0, BitVec.ofNat 64 (b2n (!ok))⟩).refreshPort port
    else s)

/-- MISLOCK_CHECK_END (R406): after good tags the lane goes back at the next tick; otherwise the next attempt; a wait for
MISLOCK_DONE that runs out leads to the reading of tags. -/
def execMislockCheckEnd (port line : Nat) (tagsOk : Bool) (s : State) : Host.Outcome State Fault Refusal :=
  commit s (decide (port < 64) && decide (line < 9)) (match (s.opt port).recovers.find? (fun r => r.line = line) with
    | none => s
    | some r =>
      if r.phase = 1 then (s.answered port (fun m => m.kind = 9 && m.line = line)).readTags port line
      else if r.phase = 2 then
        (if tagsOk then (s.modOpt port (fun o => { o with
            recovers := o.recovers.map (fun x => if x.line = line then { x with phase := 3 } else x) })).setNoTag port line false
         else ((s.setNoTag port line (!r.wrong)).nextAttempt port r).refreshPort port)
      else s)

/-- The end of a recovery at a tick: the lane is moved back by SWAP (R406). -/
def State.recoverBack (s : State) (k : Nat) : State :=
  ((s.opt k).recovers.filter (fun r => r.phase = 3)).foldl (fun t r =>
    let t1 := if r.lane = 15 then t else (t.moveLane k true r.lane r.line).sendCtrl k
      ⟨7, r.line, r.lane, r.line, BitVec.ofNat 64 ((t.link k).ctrl.length + 1)⟩
    (t1.modOpt k (fun o => { o with recovers := o.recovers.filter (fun x => x.line ≠ r.line) })).refreshPort k) s

/-- LANE_MOVE (R406): the partner moves a lane off a transmit line, at a flit and without a copy (R400). -/
def execLaneMove (port lane line : Nat) (flit : BitVec 64) (s : State) : Host.Outcome State Fault Refusal :=
  commit s (Instr.wf (.laneMove port lane line flit)) (
    if !s.carrying port then s
    else (s.modOpt port (fun o => { o with moves := o.moves ++ [⟨false, true, lane, line, flit.toNat⟩] })).takeMoves port)

/-- RETIRE (R406, R407). -/
def execRetire (port line : Nat) (s : State) : Host.Outcome State Fault Refusal :=
  commit s (Instr.wf (.retire port line)) (if s.carrying port then
    (s.modOpt port (fun o => { o with txBurn := o.txBurn.filter (fun b => b.line ≠ line) })).retireLine port false line else s)

/-! ## Feeds (R394) -/

/-- OPT_FEED_LOW (R394): its ports close their gates and go to Seek. -/
def execOptFeedLow (j power : Nat) (s : State) : Host.Outcome State Fault Refusal :=
  commit s (Instr.wf (.optFeedLow j power)) (
    let s1 := ((s.setFld (.optFeed j) OptFeed.power power).setFld (.optFeed j) OptFeed.low 1).log {
      code := 0x4905, detail := det [(1, j), (1, 0), (2, power)] }
    (feedPorts j).foldl (fun t k =>
      if t.lit k then (t.portDownEvent k 2).toSeek k
      else if t.portState k = 2 then t.toSeek k else t) s1)

/-- FEED_RESTORED (R394): ports whose wait has ended meanwhile train. -/
def execFeedRestored (j power : Nat) (s : State) : Host.Outcome State Fault Refusal :=
  commit s (Instr.wf (.feedRestored j power)) (
    let s1 := (s.setFld (.optFeed j) OptFeed.power power).setFld (.optFeed j) OptFeed.low 0
    (feedPorts j).foldl (fun t k =>
      if k < 64 ∧ t.portState k = 1 ∧ !(t.opt k).seekWait ∧ !t.loopHolds k then t.enterTrain k else t) s1)

/-! ## The slew limiter (R408 to R411) -/

/-- Strips of a partition busy with an MMA at some time in this microsecond (R409). -/
def State.mmaStrips (s : State) (p : Nat) : Nat := match mfind s.parts p with
  | none => 0
  | some q => (s.touched p q []).length
/-- The allowance of `t` tokens (R408). -/
def State.slewTokens (s : State) (t : Nat) : Nat := s.fld .optCfg OptCfg.slewW * t * 10000 / (7375 * s.fld .pwrState PwrState.cap)
/-- S_p (R408). -/
def State.slewAllowance (s : State) (p : Nat) : Nat := s.slewTokens (s.heldBy p)
/-- The allowances at a tick: of every partition, and of operator-domain work from the free pool (R408, R411). -/
def State.setAllowances (s : State) : State :=
  let s1 := s.partNums.foldl (fun t p => t.setFld (.optSlewPart p) OptSlewPart.allowance (t.slewAllowance p)) s
  { s1 with pwr := { s1.pwr with awlAllow := s.slewTokens (s.fld .pwrState PwrState.pool) } }

/-- The strips, as 4 * core + strip, that awl kernel `k` keeps busy on a core (R494; assumption 61). -/
def kernelStrips (c k : Nat) : List Nat :=
  let strips : List Nat := if k ≤ 3 then [k] else if k = 4 then [0, 1] else if k = 5 then [2, 3] else if k ≤ 12 ∨ k = 23 then [0, 1, 2, 3] else []
  strips.map (fun x => 4 * c + x)
/-- The strips that awl kernels keep busy now. -/
def State.awlStrips (s : State) : List Nat := s.cores.flatMap (fun (c, k) => match k.awl.bind AwlRun.kernel with
  | none => []
  | some x => kernelStrips c x)
/-- Whether the limiter lets an awl kernel start on some strips (R411). -/
def State.awlMay (s : State) (ids : List Nat) : Bool :=
  let low := if s.pwr.awlHist.length < 100 then 0 else s.pwr.awlHist.foldl min (s.pwr.awlHist.headD 0)
  ids.all s.pwr.awlNow.contains || (uniq (s.pwr.awlNow ++ ids)).length ≤ low + s.pwr.awlAllow
/-- A kernel of a run starts, or waits for the limiter (R411). -/
def State.awlBegin (s : State) (c : Nat) (r : AwlRun) (k : Nat) : State :=
  if s.awlMay (kernelStrips c k) then
    ({ s with pwr := { s.pwr with awlNow := uniq (s.pwr.awlNow ++ kernelStrips c k) } }).modCore c (fun x => { x with
      awl := some { r with kernel := some k, wait := none, first := none } })
  else s.modCore c (fun x => { x with awl := some { r with kernel := none, wait := some k, first := none } })
/-- Nanoseconds until the tick at which a declared run ends. -/
def State.awlLeft (s : State) (p : Nat) : Nat :=
  match mfind s.parts p with
  | none => 0
  | some q => (q.awlEnd - s.count) * (s.fld .stchCtl StchCtl.periodUs * 1000) - (s.pkg.uptime.toNat - (s.reg .stchTickUptime).toNat)
/-- A kernel that waited for the limiter starts, unless 7,800 cc no longer remain to a declared run (R411, R496). -/
def State.awlRetry (s : State) (c : Nat) : State :=
  match (mfind s.cores c).bind (fun k => k.awl) with
  | none => s
  | some r => match r.wait with
    | none => s
    | some k => if r.declared ∧ (s.ownerOf c).all (fun p => s.awlLeft p < 3900) then s.modCore c (fun x => { x with awl := some { r with wait := none } })
        else s.awlBegin c r k
/-- One microsecond of the operator's domain (R411). -/
def State.slewAwl (s : State) : State :=
  let s1 := { s with pwr := { s.pwr with
    awlHist := ((uniq (s.pwr.awlNow ++ s.awlStrips)).length :: s.pwr.awlHist).take 100, awlNow := s.awlStrips } }
  (s1.cores.map Prod.fst).foldl State.awlRetry s1

/-- Strips of a partition that work and that no MMA and no awl kernel uses (R137, R410). -/
def State.idleStrips (s : State) (p : Nat) : Nat :=
  (((s.coresOf p).filter (fun c => !s.isRetired c)).map s.stripsWorking).sum - s.mmaStrips p
    - (s.awlStrips.filter (fun x => s.ownerOf (x / 4) = some p)).length

/-- Whether the limiter may run ballast: not while SAG_WARN is active, nor after THERM_CRIT (R517, R532). -/
def State.ballastOk (s : State) : Bool := s.fld .pwrState PwrState.sag = 0 && !(s.devState = 3 && !s.pwr.critOnce.isEmpty)

/-- One microsecond of one partition (R409, R410). -/
def State.slewOne (s : State) (p : Nat) : State :=
  match mfind s.parts p with
  | none => s
  | some q =>
    let mma := s.mmaStrips p
    let high := q.slewHist.foldl max 0
    let b := if s.ballastOk then min (s.idleStrips p) (high - s.fld (.optSlewPart p) OptSlewPart.allowance - mma) else 0
    let u := mma + b
    (((s.modPart p (fun q => { q with slewHist := (u :: q.slewHist).take 100, busyNow := s.busyStrips p, ballast := b })).setFld (.optSlewPart p)
      OptSlewPart.busy u).wrapFld .optSlewStat OptSlewStat.ballast b).charge p (b * 36875 * 2000)

/-- SLEW_MICROSECOND. -/
def execSlewMicrosecond (s : State) : Host.Outcome State Fault Refusal :=
  commit s (Instr.wf .slewMicrosecond) (s.partNums.foldl State.slewOne s).slewAwl

/-! ## Port control (R395, R418) -/

/-- PORT_DISABLE: accepted in Framed and Armed (R422). -/
def execPortDisable (port : Nat) (off : Bool) (s : State) : Host.Outcome State Fault Refusal :=
  commit s (Instr.wf (.portDisable port off)) (s.pfWrite (
    if s.devState ≠ 1 ∧ s.devState ≠ 2 then s
    else
      let s1 := s.setFld (.optPortCtl port) OptPortCtl.disable (b2n off)
      if off then (if s.portState port = 0 then s1 else s1.darken port) else s1.wakePort port))

/-- OPTICAL_LOOPBACK (R418). -/
def execOpticalLoopback (port : Nat) (mode : Fin 8) (s : State) : Host.Outcome State Fault Refusal :=
  commit s (Instr.wf (.opticalLoopback port mode)) (s.pfWrite (
    let m := mode.val
    let ok := if m = 0 then true else if m = 5 then s.carrying port
      else m ≠ 7 && (s.devState = 1 || s.devState = 2) && !s.lit port
    if !ok then s.setFld (.optLbRes port) OptLbRes.refused 1
    else
      let s1 := (s.setFld (.optPortCtl port) OptPortCtl.loop m).setReg (.optLbRes port) 0
      if m = 5 then s1.sendCtrl port (echoMsg 0)
      else if s.portState port = 2 ∧ m ≠ 0 then s1.toSeek port else s1))

/-! ## CTRL requests (R400) -/

/-- What fails with a request that was sent 100 times. -/
def State.requestFails (s : State) (k : Nat) (m : Ctrl) : State :=
  let s1 := s.answered k (fun x => x = m)
  if 0x20 ≤ m.kind ∧ m.kind ≤ 0x23 then s1.syncFail k (wbits m.value 0 8) (m.kind % 2 = 0) false
  else if m.kind ≤ 3 then (if s1.portState k = 2 then s1.trainFail k (s1.trainEvent k) else s1)
  else if m.kind = 5 then (if ((s1.opt k).txBurn.any (fun b => b.line = m.line)) then s1.dropBurn k else s1)
  else if m.kind = 9 then
    (match (s1.opt k).recovers.find? (fun r => r.line = m.line) with
    | none => s1
    | some r => (s1.nextAttempt k r).refreshPort k)
  else s1

/-- CTRL_RESEND (R400): the request is sent again, or, after 100 sends, its operation has failed. -/
def execCtrlResend (port k : Nat) (s : State) : Host.Outcome State Fault Refusal :=
  commit s (Instr.wf (.ctrlResend port k)) (match (s.link port).reqs[k]? with
    | none => s
    | some r =>
      if r.sends < 100 then
        (s.modLink port (fun l => { l with reqs := l.reqs.zipIdx.map (fun (x, i) => if i = k then { x with sends := x.sends + 1 } else x) })).sendCtrl
          port r.msg
      else s.requestFails port r.msg)

/-! ## The identity in a marker (R390) -/

/-- Bytes 80 to 95 of a marker. -/
def State.portIdentity (s : State) (k : Nat) : List Byte :=
  let map := (List.range 8).map (fun i => ((List.range 9).find? (fun l => s.laneOf k false l = i)).getD 15)
  let word := (map.zipIdx.map (fun (l, i) => l * 2 ^ (4 * i))).sum
  leBytes 2 (s.ownNode + k * 1024) ++ leBytes 4 word
    ++ leBytes 2 (s.retiredLines k false + s.spareNow k false * 2 ^ 9 + b2n (s.opt k).txBurn.isSome * 2 ^ 13)
    ++ leBytes 2 (s.opt k).noTag.toNat ++ [0, 0, 0, 0, 0, 0]

end Sys2Proof.Machine
end

