-- ==== Sys2Proof/Machine/Stitch.lean ====
section
/-! DEFINITION. The stitch (R286 to R307): markers and the tick they steer, segments, slip tokens, the release of cinch lines
(R275 to R277), holds and the re-join. The tick itself is in Tick. -/
namespace Sys2Proof.Machine

/-! ## Facts of the STITCH section -/

/-- State of the tick: 0 Off, 1 Free, 2 Locked, 3 Slew, 4 Holdover (R291). -/
def State.tickState (s : State) : Nat := s.fld .stchStatus StchStatus.state
/-- Enter a state of the tick; entering Locked is logged with the state left (R295, R312, R585). -/
def State.setTickState (s : State) (st : Nat) : State :=
  let s1 := (s.setFld .stchStatus StchStatus.state st).setFld .stchStatus StchStatus.holdover (b2n (st = 4))
  if st = 2 then s1.log { code := 0x4705, detail := det [(1, s.tickState)] } else s1

/-- The configured master. -/
def State.masterNode (s : State) : Nat := bitsOf (s.staged 10 1) 0 10
/-- The standby master, if one is configured. -/
def State.standbyNode (s : State) : Option Nat := if bitAt (s.staged 10 3) 10 then some (bitsOf (s.staged 10 3) 0 10) else none
/-- Input port `i`, if the section names one. -/
def State.inputPort (s : State) (i : Nat) : Option Nat :=
  let k := bitsOf (s.staged 10 2) (8 * i) 8
  if k < 64 then some k else none
/-- The period in nanoseconds. -/
def State.periodNs (s : State) : Nat := 1000 * s.fld .stchCtl StchCtl.periodUs
/-- The role: 0 follower, 1 master, 2 standby master. -/
def State.tickRole (s : State) : Nat := s.fld .stchCtl StchCtl.role
/-- Whether the device acts as master in the master's place. -/
def State.acting (s : State) : Bool := s.fld .stchStatus StchStatus.actingMaster = 1
/-- The input in use, 7 for none. -/
def State.tickInput (s : State) : Nat := s.fld .stchStatus StchStatus.input
/-- Change the stitch's own state. -/
def State.modStitch (s : State) (f : Stitch → Stitch) : State := { s with stitch := f s.stitch }

/-- Word 4 + 2p of the STITCH section. -/
def State.stchEntry (s : State) (p : Nat) : Nat := s.fld (.stchPart p) StchPart.entry
/-- Word 5 + 2p: the job's rectangle. -/
def State.stchRect (s : State) (p : Nat) : Nat := s.fld (.stchPart p) StchPart.rect
/-- The job of a partition. -/
def State.jobOf (s : State) (p : Nat) : Nat := bitsOf (s.stchEntry p) 0 16
/-- The tick tack of a partition. -/
def State.tickTack (s : State) (p : Nat) : Nat := bitsOf (s.stchEntry p) 16 5
/-- Whether a partition runs in segments. -/
def State.segmented (s : State) (p : Nat) : Bool := bitAt (s.stchEntry p) 21
/-- The granted partition of a job. -/
def State.jobPart (s : State) (job : Nat) : Option Nat := s.partNums.find? (fun p => s.jobOf p = job)
/-- Whether a job spans more than one device. -/
def State.spans (s : State) (p : Nat) : Bool := 1 < bitsOf (s.stchRect p) 10 6 * bitsOf (s.stchRect p) 16 6
/-- The other devices of a job as (logical, physical) nodes: the nodes of its rectangle that XLATE maps (assumption 44). -/
def State.jobMembers (s : State) (p : Nat) : List (Nat × Nat) :=
  (List.range 1024).filterMap (fun n => if inRect (s.stchRect p) n then (match s.xlate n with
    | some ph => if ph = s.ownNode then none else some (n, ph)
    | none => none) else none)
/-- Whether a partition is held: its hold is set, or a write cleared it and no deadline has followed (R303). -/
def State.isHeld (s : State) (p : Nat) : Bool := s.fld (.partStchCtl p) PartStchCtl.hold = 1 || s.stitch.unhold.contains p

/-! ## VC0 messages (R299, R337, R474) -/

/-- The packet of a VC0 message. -/
def State.vc0Pkt (s : State) (op phys : Nat) (data : List Byte) : Pkt :=
  { op := op, dstNode := phys, dstPart := 0, space := 0, offset := 0, srcNode := s.ownNode, srcLnode := s.ownLnode, srcPart := 0,
    core := 0, thread := 0, tag := 0, flagged := false, rx := 0, flagCount := 0, chk := false, valid := false, check := 0,
    route := 0, hops := 0, aux := 0, length := 16, data := data }

/-- A VC0 message to one member: on the port whose partner it is when that port carries traffic, else by its route. -/
def State.sendVc0 (s : State) (op phys : Nat) (data : List Byte) : State :=
  let pkt := s.vc0Pkt op phys data
  match (List.range 64).find? (fun k => s.carrying k && s.fld (.fabPortState k) FabPortState.partner = phys) with
  | some k => s.queueOut k ⟨none, none, 0, 0, 1, 1, 0, pkt⟩
  | none => s.dispatch 0 none pkt

/-- A message to the job's devices in the own logical row and column, or as a relay in the own column alone (R299). -/
def State.spread (s : State) (p op : Nat) (data : List Byte) (colOnly : Bool) : State :=
  let own := s.ownLnode
  ((s.jobMembers p).filter (fun (n, _) => n % 32 = own % 32 || (!colOnly && n / 32 = own / 32))).foldl
    (fun t (_, ph) => t.sendVc0 op ph data) s

/-- Payload of a slip token. -/
def tokenData (job tick origin relayed : Nat) : List Byte := det [(2, job), (6, tick), (2, origin), (1, relayed), (5, 0)]
/-- Payload of a cinch note. -/
def noteData (job line origin count relayed : Nat) : List Byte := det [(2, job), (1, line), (2, origin), (6, count), (1, relayed), (4, 0)]

/-- A row member relays a message that has not been relayed (R299). -/
def State.relay (s : State) (job op origin relayed : Nat) (data : List Byte) : State :=
  match s.jobPart job, s.logicalOf origin with
  | some p, some o => if relayed = 0 ∧ o / 32 = s.ownLnode / 32 then s.spread p op data true else s
  | _, _ => s

/-! ## Cinch lines (R275, R277) -/

/-- Whether every other device of the job has sent its note for the line's round. -/
def State.notesIn (s : State) (p l : Nat) : Bool := (s.jobMembers p).all (fun (_, ph) => (s.cinch l).notes.contains ph)

/-- The release of a grid-scope line; notes for its next round stay. -/
def State.gridRelease (s : State) (p l : Nat) : State :=
  let rest := (s.jobMembers p).foldl (fun (ns : List Nat) (_, ph) => ns.erase ph) (s.cinch l).notes
  let s1 := s.releaseLine l
  if rest.isEmpty then s1 else { s1 with cinches := mset s1.cinches l ⟨[], false, rest⟩ }

/-- CINCH_RELEASE: a line whose participants have all arrived releases; a grid-scope line releases locally and tells the
job's devices, and releases when every one of them has. -/
def execCinchRelease (line : Fin 64) (s : State) : Host.Outcome State Fault Refusal :=
  commit s (Instr.wf (.cinchRelease line)) (match s.linePart line with
    | none => s
    | some (p, u) =>
      if u.cores.isEmpty ∨ !s.allArrived u then s
      else if !u.grid then s.releaseLine line
      else if (s.cinch line).localDone then s
      else
        let s1 := { s with cinches := mset s.cinches line { s.cinch line with localDone := true } }
        let s2 := (s1.modStitch (fun t => { t with seen := (0x31, s.jobOf p, s.ownNode, s.count, line.val) :: t.seen })).spread p 0x31
          (noteData (s.jobOf p) line s.ownNode s.count 0) false
        if s2.notesIn p line then s2.gridRelease p line else s2)

/-- CINCH_NOTE (R277, R337): applied once, relayed by a row member. -/
def execCinchNote (i : Nat) (s : State) : Host.Outcome State Fault Refusal :=
  commit s (Instr.wf (.cinchNote i)) (match s.waitingPkt i (fun p => p.op = 0x31) with
    | none => s
    | some w =>
      let d := leNat w.pkt.data
      let job := bitsOf d 0 16
      let line := bitsOf d 16 6
      let origin := bitsOf d 24 10
      let count := bitsOf d 40 48
      let key := (0x31, job, origin, count, line)
      let s1 := (s.dropWaiting i).doneWith w
      if s.stitch.seen.contains key then s1
      else
        let s2 := (s1.modStitch (fun t => { t with seen := key :: t.seen })).relay job 0x31 origin (bitsOf d 88 1)
          (noteData job line origin count 1)
        match s2.jobPart job with
        | none => s2
        | some p => match s2.lineUse p line with
          | none => s2
          | some u =>
            if !u.grid then s2
            else
              let s3 := { s2 with cinches := mset s2.cinches line { s2.cinch line with notes := (s2.cinch line).notes ++ [origin] } }
              if (s3.cinch line).localDone ∧ s3.notesIn p line then s3.gridRelease p line else s3)

/-! ## Segments (R296 to R303) -/

/-- Whether a core has finished its segment (R297, R496). -/
def State.finishedCore (s : State) (tack c : Nat) : Bool :=
  match mfind s.cores c with
  | none => true
  | some k => k.awl.isSome || (k.active.isEmpty && k.queues.all (fun (_, q) => q.isEmpty)
      && k.threads.all (fun (_, th) => th.stat = .stopped || th.stat = .parked (.tack tack true) || th.stat = .parked (.tack tack false)))

/-- The cores of a partition that have not finished. -/
def State.unfinished (s : State) (p : Nat) : List Nat := (s.coresOf p).filter (fun c => !s.finishedCore (s.tickTack p) c)

/-- SEGMENT_DEADLINE (R298, R299, R303): at most one OVERRUN of a partition per stitch. -/
def execSegmentDeadline (p : Nat) (s : State) : Host.Outcome State Fault Refusal :=
  commit s (Instr.wf (.segmentDeadline p)) (
    if s.tickState = 0 ∨ !s.segmented p then s
    else
      let s1 := s.modStitch (fun t => { t with unhold := t.unhold.filter (· ≠ p), finished := t.finished.filter (· ≠ p) })
      if s1.partState p ≠ 2 then s1
      else
        let un := s1.unfinished p
        if un.isEmpty then s1.modStitch (fun t => { t with finished := p :: t.finished })
        else if s1.isHeld p ∨ s1.stitch.overran.contains p then s1
        else
          let next := (s1.count + 1) % 2 ^ 48
          let job := s1.jobOf p
          let s2 := (s1.log { code := 0x4701, part := some p, detail := det [(2, job), (6, next), (2, un.length), (2, un.headD 0)] }).satFld
            (.partStchSlip p) PartStchSlip.overruns 1
          (s2.modStitch (fun t => { t with
            overran := p :: t.overran, withheld := (p, next) :: t.withheld.filter (· ≠ (p, next)),
            seen := (0x30, job, s1.ownNode, next, 0) :: t.seen })).spread p 0x30 (tokenData job next s1.ownNode 0) false)

/-- A slip token reaches the partition of its job: ignored, late or out of range, or noted (R300, R301). -/
def State.applyToken (s : State) (job tick origin : Nat) : State :=
  let ignore (t : State) : State := t.satFld .stchStat StchStat.tokensIgnored 1
  match s.jobPart job with
  | none => ignore s
  | some p =>
    let d := (tick + 2 ^ 48 - s.count) % 2 ^ 48
    if !s.segmented p ∨ s.partState p ≠ 2 ∨ s.isHeld p then ignore s
    else if d = 1 ∨ d = 2 then s.modStitch (fun t => { t with withheld := (p, tick) :: t.withheld.filter (· ≠ (p, tick)) })
    else (ignore s).log { code := 0x1701, part := some p, detail := det [(2, job), (6, tick), (2, origin), (6, s.count)] }

/-- SLIP_TOKEN (R299 to R301): applied once, relayed by a row member. -/
def execSlipToken (i : Nat) (s : State) : Host.Outcome State Fault Refusal :=
  commit s (Instr.wf (.slipToken i)) (match s.waitingPkt i (fun p => p.op = 0x30) with
    | none => s
    | some w =>
      let d := leNat w.pkt.data
      let job := bitsOf d 0 16
      let tick := bitsOf d 16 48
      let origin := bitsOf d 64 10
      let key := (0x30, job, origin, tick, 0)
      let s1 := (s.dropWaiting i).doneWith w
      if s.stitch.seen.contains key then s1
      else ((s1.modStitch (fun t => { t with seen := key :: t.seen })).relay job 0x30 origin (bitsOf d 80 1)
          (tokenData job tick origin 1)).applyToken job tick origin)

/-- The release of a segment (R300). -/
def State.releaseSegment (s : State) (p : Nat) : State :=
  if s.stitch.withheld.contains (p, s.count) then s.satFld (.partStchSlip p) PartStchSlip.slips 1
  else
    let t := s.tickTack p
    let cs := (s.coresOf p).filter (fun c => (List.range 8).any (fun i =>
      (s.thread c i).stat = .parked (.tack t true) || (s.thread c i).stat = .parked (.tack t false)))
    (cs.foldl (fun u c => u.setTack c t) s).wrapFld (.partStchSeg p) PartStchSeg.releases 1

/-- Step 2 of R304 for a partition: the end of its hold, and its release (R300, R303). -/
def State.tickPart (s : State) (p : Nat) : State :=
  let live := s.segmented p ∧ s.partState p = 2
  if s.fld (.partStchCtl p) PartStchCtl.hold = 1 ∧ s.fld (.partStchCtl p) PartStchCtl.resumeCount = s.count then
    let s1 := s.setFld (.partStchCtl p) PartStchCtl.hold 0
    if live ∧ s.stitch.finished.contains p then s1.releaseSegment p else s1
  else if live ∧ !s.isHeld p then s.releaseSegment p
  else s

/-- The entry threads of a core start (R70, R106). -/
def State.startCore (s : State) (c : Nat) : State :=
  match mfind s.cores c with
  | none => s
  | some k =>
    if k.entries.isEmpty then s
    else (((k.entries.zipIdx.foldl (fun t (e, i) => match e with
        | none => t
        | some off => t.modThread c i (fun _ => ⟨.ready, off, [], k.progEnv, 0⟩)) s).modCore c (fun k => { k with entries := [] })).wakeIdle
          c).settleEnds c

/-- The starts of R70: cores of Armed partitions. -/
def State.startCores (s : State) : State :=
  ((s.cores.map Prod.fst).filter (fun c => match s.ownerOf c with
    | none => false
    | some p => s.partState p = 2)).foldl State.startCore s

/-- PART_STCH_CTL_WRITE (R303, R314): a write that clears hold ends it at the next deadline. -/
def execPartStchCtlWrite (p : Nat) (v : BitVec 64) (s : State) : Host.Outcome State Fault Refusal :=
  commit s (Instr.wf (.partStchCtlWrite p v)) (s.vfWrite p (
    let was := s.fld (.partStchCtl p) PartStchCtl.hold
    let now := PartStchCtl.hold.get v
    ((s.setFld (.partStchCtl p) PartStchCtl.hold now).setFld (.partStchCtl p) PartStchCtl.resumeCount
      (PartStchCtl.resumeCount.get v)).modStitch (fun t => { t with
        unhold := if now = 1 then t.unhold.filter (· ≠ p) else if was = 1 then p :: t.unhold.filter (· ≠ p) else t.unhold })))

/-- REJOIN (R307). -/
def execRejoin (s : State) : Host.Outcome State Fault Refusal :=
  commit s (Instr.wf .rejoin) (s.pfWrite (
    let ok := s.tickState = 2 ∧ s.partNums.all (fun p => s.partState p ≠ 2 || !s.segmented p || !s.spans p || s.isHeld p)
    if ok then (s.setFld .stchStatus StchStatus.rejoinPending 1).setFld .stchStatus StchStatus.rejoinRefused 0
    else s.setFld .stchStatus StchStatus.rejoinRefused 1))

/-! ## Inputs and lock (R289 to R295, R305) -/

/-- The input that a device follows (R289, R293): the first that is not lost and names the configured master, else the first
that is not lost. -/
def State.pickInput (s : State) : Nat :=
  let live (i : Nat) (any : Bool) : Bool := match mfind s.stitch.inputs i with
    | none => false
    | some x => !x.lost && (any || !x.standby)
  match (List.range 4).find? (live · false) with
  | some i => i
  | none => ((List.range 4).find? (live · true)).getD 7

/-- A change of the input in use is logged and counted (R293, R312). -/
def State.inputEvent (s : State) (lost now : Nat) : State :=
  ((s.setFld .stchStatus StchStatus.input now).log {
    code := 0x4704, detail := det [(1, lost), (1, now), (1, if now = 7 then 0xFF else (s.inputPort now).getD 0xFF)] }).satFld
    .stchStat StchStat.inputChanges 1

/-- An input is lost (R289, R293, R294). -/
def State.loseInput (s : State) (i : Nat) : State :=
  match mfind s.stitch.inputs i with
  | none => s
  | some x =>
    if x.lost then s
    else
      let s1 := s.modStitch (fun t => { t with inputs := mset t.inputs i { x with lost := true } })
      if s.tickInput ≠ i then s1
      else
        let j := s1.pickInput
        let s2 := s1.inputEvent i j
        if j = 7 ∧ (s.tickState = 2 ∨ s.tickState = 3) then
          (((s2.setTickState 4).modStitch (fun t => { t with holdTicks := 0 })).satFld .stchStat StchStat.holdovers 1).log {
            code := 0x4702, detail := det [(1, i)] }
        else s2

/-- INPUT_LOST. -/
def execInputLost (i : Nat) (s : State) : Host.Outcome State Fault Refusal :=
  commit s (Instr.wf (.inputLost i)) (s.loseInput i)

/-- STANDBY_TAKEOVER (R295). -/
def execStandbyTakeover (s : State) : Host.Outcome State Fault Refusal :=
  commit s (Instr.wf .standbyTakeover) (
    if s.tickRole = 2 ∧ s.tickState = 4 ∧ s.staged 10 1 / 65536 ≤ s.stitch.holdTicks then
      (s.setFld .stchStatus StchStatus.actingMaster 1).setTickState 2
    else s)

/-- The phase error in (-P/2, P/2] (R290). -/
def phaseError (raw : Int) (period : Nat) : Int := (raw + period / 2 - 1) % period - period / 2 + 1

/-- The difference of two counts of 48 bits, signed. -/
def countDiff (a b : Nat) : Int := signed 48 ((a + 2 ^ 48 - b % 2 ^ 48) % 2 ^ 48)

/-- The phase error of a marker before its reduction (R290): when it arrived after the latest local tick, less the one-way delay
of its link, less the time of the local tick with its count, which lies as many periods before the latest one as the own count
is ahead. -/
def State.rawError (s : State) (port count : Nat) (sinceNs : Int) : Int :=
  sinceNs - s.fld (.optPortState port) OptPortState.delayNs + countDiff s.count count * s.periodNs

/-- A valid marker of the input in use (R290 to R292, R305): its count, the hops of its sender and its phase error before the
reduction. `first` tells that the tick has come to follow this input with it, when the counts are compared. -/
def State.followMarker (s : State) (count hops : Nat) (errNs : Int) (first : Bool) : State :=
  let err := phaseError errNs s.periodNs
  let ahead := if s.periodNs = 0 then 0 else (errNs - err) / s.periodNs
  let s1 := s.modStitch (fun t => { t with hops := min 3 (hops + 1) })
  let put (t : State) (c : Nat) (e : Int) : State :=
    ((t.setFld .stchMasterCount StchMasterCount.count c).setFld .stchMasterCount StchMasterCount.valid 1).setFld .stchPhase
      StchPhase.errorNs (unsigned 32 e)
  if s.tickState = 1 then (put (s1.setFld .stchCount StchCount.count count) count 0).setTickState 2
  else
    let s2 := put s1 (unsigned 48 (s.count - ahead)) err
    let s3 := if ahead ≠ 0 ∧ (first ∨ s.tickState = 4 ∨ s.fld .stchStatus StchStatus.countSplit = 0) then
        ((s2.setFld .stchStatus StchStatus.countSplit 1).log { code := 0x4703, detail := det [(8, unsigned 64 ahead)] }).satFld
          .stchStat StchStat.splits 1 else s2
    let near := -16 ≤ err ∧ err ≤ 16
    if s.tickState = 2 then (if near then s3 else s3.setTickState 3)
    else if s.tickState = 4 then (if near then (s3.setTickState 3).setTickState 2 else s3.setTickState 3)
    else if near then s3.setTickState 2
    else s3

/-- A marker on an input (R289, R293, R295). -/
def State.stitchMarker (s : State) (i port : Nat) (payload : List Byte) (sinceNs : Int) : State :=
  let w (o n : Nat) : Nat := leNat ((payload.drop o).take n)
  let status := w 7 1
  let master := w 8 2 % 1024
  let isStandby := master ≠ s.masterNode
  if w 6 1 ≠ s.fld .stchCtl StchCtl.periodUs then (s.setFld .stchStatus StchStatus.periodMismatch 1).loseInput i
  else if (isStandby ∧ s.standbyNode ≠ some master) ∨ bitAt status 2 ∨ bitAt status 3 then s
  else
    let s1 := (s.setFld .stchStatus StchStatus.periodMismatch 0).modStitch (fun t => { t with inputs := mset t.inputs i ⟨false, isStandby⟩ })
    if s.acting ∧ isStandby then s1
    else
      let s2 := if s.acting then (s1.setFld .stchStatus StchStatus.actingMaster 0).setTickState 3 else s1
      if s2.pickInput ≠ i then (if s2.tickInput = i then s2.inputEvent 7 s2.pickInput else s2)
      else
        let s3 := if s2.tickInput = i then s2 else if s2.tickInput = 7 then s2.setFld .stchStatus StchStatus.input i
          else s2.inputEvent 7 i
        s3.followMarker (w 0 6) (status % 4) (s3.rawError port (w 0 6) sinceNs) (s2.tickInput ≠ i || s.acting)

/-- MARKER: a marker that fails its CRC is lost; else its totals are audited, its lane identity read, and an input's marker
steers the tick (R289, R336, R390, R464). -/
def execMarker (port : Nat) (payload : List (BitVec 8)) (crcOk : Bool) (sinceNs : Int) (s : State) : Host.Outcome State Fault Refusal :=
  commit s (Instr.wf (.marker port payload crcOk sinceNs)) (
    if !s.carrying port then s
    else if !crcOk then s.satFld (.fabConsStat port) FabConsStat.skipped 1
    else
      let noTag := leNat ((payload.drop 88).take 2)
      let s1 := (((List.range 9).filter (bitAt noTag)).foldl (fun t l => t.reportedLine port l) (s.auditMarker port payload))
      match (List.range 4).find? (fun i => s.inputPort i = some port) with
      | none => s1
      | some i => if s.tickState = 0 ∨ s.tickRole = 1 then s1 else s1.stitchMarker i port payload sinceNs)

/-! ## What a marker carries (R288) -/

/-- Bytes 0 to 15 of a marker. -/
def State.stitchFields (s : State) : List Byte :=
  let own := s.tickRole = 1 ∨ s.acting
  let hops := if own then 0 else if s.tickInput = 7 then 3 else s.stitch.hops
  let usesStandby := match mfind s.stitch.inputs s.tickInput with
    | none => false
    | some x => x.standby
  let master := if own then s.ownNode else if usesStandby then s.standbyNode.getD 0 else s.masterNode
  det [(6, s.count), (1, s.fld .stchCtl StchCtl.periodUs),
       (1, hops + b2n (s.tickState = 4) * 4 + b2n (s.tickState = 1) * 8 + b2n s.acting * 16), (2, master), (6, 0)]

/-- Markers to every port that carries traffic, their totals to be filled in at the cut (R288, R336, R463). -/
def State.sendMarkers (s : State) : State :=
  ((List.range 64).filter s.carrying).foldl (fun t k => t.modLink k (fun l => { l with
    marker := some (s.stitchFields ++ s.portIdentity k ++ List.replicate 16 0) })) s

end Sys2Proof.Machine
end

