-- ==== Sys2Proof/Machine/Ethernet.lean ====
section
/-! DEFINITION. The Ethernet ports (R412 to R417): link states, received frames, encapsulation peers; and the queues of the
partitions (R437 to R443). -/
namespace Sys2Proof.Machine

/-! ## Frames -/

/-- Whether a frame has a length and an FCS that the MAC accepts (R412). -/
def frameOk (f : List Byte) : Bool :=
  64 ≤ f.length && f.length ≤ 9216 && leNat (f.drop (f.length - 4)) = crc32 (f.take (f.length - 4))

/-- The EtherType of a frame. -/
def etherType (f : List Byte) : Nat := beNat ((f.drop 12).take 2)
/-- Bytes of the IPv6 packet in a frame, from an offset. -/
def ipBytes (f : List Byte) (o n : Nat) : List Byte := (f.drop (14 + o)).take n

/-- The key that selects a queue (R414). -/
def queueKey (f : List Byte) : List Byte :=
  if etherType f = 0x86DD then
    let next := ((ipBytes f 6 1).headD 0).toNat
    ipBytes f 8 32 ++ (if next = 6 ∨ next = 17 then ipBytes f 40 4 else [])
  else f.take 14

/-! ## Queues (R437 to R443) -/

/-- ETHQ_IRQ_GAP (R442). -/
def execEthqIrqGap (p i : Nat) (s : State) : Host.Outcome State Fault Refusal :=
  commit s (Instr.wf (.ethqIrqGap p i)) (
    let q := s.ethFirst p + i
    if s.eth.deferred.contains q then
      ({ s with eth := { s.eth with deferred := s.eth.deferred.filter (· ≠ q) } }).sendMsix (p + 1)
        (s.fld (.partEthqCtl p i) PartEthqCtl.vector)
    else { s with eth := { s.eth with gapRuns := s.eth.gapRuns.filter (· ≠ q) } })

/-- The entry of a transmit queue has been read (R440): a length outside 60 to 9,212 is written back as bad; else the frame is
read, at most 512 bytes at a time (R433). A queue that has been stopped meanwhile had no frame in progress (R443). -/
def State.txEntryRead (s : State) (p i ent : Nat) : State :=
  let d := s.ethFirst p + i
  match mfind s.eth.tx d with
  | none => s
  | some t =>
    let len := bitsOf ent 64 14
    let t1 := { t with ent := some ent, left := (len + 511) / 512 }
    if !s.queueRuns p i ∨ t.stale then ({ s with eth := { s.eth with tx := mdel s.eth.tx d } }).txNext p i
    else if len < 60 ∨ 9212 < len then s.txDone t1 true
    else if !s.host.busMaster.getLsbD (p + 1) then s.queueHostFail p i 0 (bitsOf ent 0 64)
    else (List.range t1.left).foldl (fun u k =>
        u.hostAsk (p + 1) (bitsOf ent 0 64 + 512 * k) (min 512 (len - 512 * k)) (.txFrame p i (512 * k)))
      { s with eth := { s.eth with tx := mset s.eth.tx d t1 } }

/-- Part of a frame has been read; the whole frame waits for its turn on the port (R415). -/
def State.txFrameRead (s : State) (p i off : Nat) (data : List Byte) : State :=
  let d := s.ethFirst p + i
  match mfind s.eth.tx d with
  | none => s
  | some t => ({ s with eth := { s.eth with
      tx := mset s.eth.tx d { t with left := t.left - 1, chunks := mset t.chunks off data } } }).serve (s.queuePort p i)

/-- ETH_TX_COMPLETE (R440): the last byte of a queue's frame has left the MAC. The port goes on with its next turn. -/
def execEthTxComplete (p i e : Nat) (s : State) : Host.Outcome State Fault Refusal :=
  commit s (Instr.wf (.ethTxComplete p i e)) (
    let d := s.ethFirst p + i
    if s.ethCount p ≤ i ∨ mfind s.eth.sending e ≠ some d then s
    else
      let s1 := { s with eth := { s.eth with sending := mdel s.eth.sending e } }
      (match mfind s1.eth.tx d with
        | none => s1
        | some t => s1.txDone t false).serve e)

/-- The first frame of a receive queue is dropped, and those behind it with it when the queue offers no entry or has stopped
(R441); otherwise the entry at head is read for it. -/
def State.rxNext (s : State) (p i : Nat) : State :=
  let d := s.ethFirst p + i
  match mfind s.eth.rx d with
  | none => s
  | some r =>
    let head := s.fld (.partEthqRxHead p i) PartEthqRxHead.index
    let ring := ringAt (s.reg (.partEthqRxBase p i)).toNat (s.fld (.partEthqCtl p i) PartEthqCtl.rxLog2) head
    let clear : State := { s with eth := { s.eth with rx := mdel s.eth.rx d } }
    if r.frames.isEmpty then clear
    else if !s.queueRuns p i ∨ head = s.fld (.partEthqRxTail p i) PartEthqRxTail.index then
      clear.satFld (.partEthStat p) PartEthStat.droppedFull r.frames.length
    else if !s.host.busMaster.getLsbD (p + 1) then s.queueHostFail p i 0 ring
    else ({ s with eth := { s.eth with rx := mset s.eth.rx d { r with ring := ring, stale := false } } }).hostAsk (p + 1) ring 16 (.rxEntry p i)

/-- A frame (without FCS) reaches a queue of an Armed partition (R441); it waits while the entry of an earlier one is read. -/
def State.queueReceive (s : State) (p i : Nat) (frame : List Byte) : State :=
  let d := s.ethFirst p + i
  match mfind s.eth.rx d with
  | some r => { s with eth := { s.eth with rx := mset s.eth.rx d { r with frames := r.frames ++ [frame] } } }
  | none => ({ s with eth := { s.eth with rx := mset s.eth.rx d ⟨p, i, 0, [frame], false⟩ } }).rxNext p i

/-- The entry for the first frame of a receive queue has been read (R441): the frame is written to the buffer and the entry
written back with its length and done, and head advances; a frame longer than the buffer is dropped and the entry stays. -/
def State.rxEntryRead (s : State) (p i ent : Nat) : State :=
  let d := s.ethFirst p + i
  match mfind s.eth.rx d with
  | none => s
  | some r =>
    match r.frames with
    | [] => s.rxNext p i
    | frame :: rest =>
      let s1 := { s with eth := { s.eth with rx := mset s.eth.rx d { r with frames := rest } } }
      if bitsOf ent 64 14 < frame.length then (s1.satFld (.partEthqStat p i) PartEthqStat.oversize 1).rxNext p i
      else if !s.host.busMaster.getLsbD (p + 1) then s.queueHostFail p i 0 (bitsOf ent 0 64)
      else
        let s2 := (s1.hostPut (p + 1) (bitsOf ent 0 64) frame).writeEntry p r.ring ent frame.length false
        let s3 := if r.stale then s2 else s2.setFld (.partEthqRxHead p i) PartEthqRxHead.index (s2.fld (.partEthqRxHead p i) PartEthqRxHead.index + 1)
        (s3.queueIrq p i).rxNext p i

/-- A frame for a partition, to the queue that its key selects (R414). -/
def State.partReceive (s : State) (p e : Nat) (frame : List Byte) : State :=
  let qs := s.queuesOn p e
  if s.partState p ≠ 2 ∨ qs.isEmpty then s.satFld (.partEthStat p) PartEthStat.droppedUnready 1
  else s.queueReceive p (qs.getD (crc32c (queueKey frame) % qs.length) 0) frame

/-- A queue is enabled anew: what it still has under way keeps its entry and leaves the new heads alone (R443). -/
def State.staleQueue (s : State) (p i : Nat) : State :=
  let d := s.ethFirst p + i
  { s with eth := { s.eth with
      tx := mmod s.eth.tx d (fun t => { t with stale := true }), rx := mmod s.eth.rx d (fun r => { r with stale := true }) } }

/-- What enabling a queue checks: its vector and its bases. -/
def State.queueChecks (s : State) (p i : Nat) : State :=
  if s.fld (.partEthqCtl p i) PartEthqCtl.enable = 1 ∧ s.fld (.partEthqStat p i) PartEthqStat.error = 0
      ∧ (s.fld (.partEthqCtl p i) PartEthqCtl.vector < 3 ∨ (s.reg (.partEthqTxBase p i)).toNat % 4096 ≠ 0
        ∨ (s.reg (.partEthqRxBase p i)).toNat % 4096 ≠ 0) then s.queueError p i 2 else s

/-- PART_ETHQ_CTL_WRITE (R443, R453). -/
def execPartEthqCtlWrite (p i : Nat) (v : BitVec 64) (s : State) : Host.Outcome State Fault Refusal :=
  commit s (Instr.wf (.partEthqCtlWrite p i v)) (s.vfWrite p (
    if s.ethCount p ≤ i then s
    else
      let r : Reg := .partEthqCtl p i
      let was := s.fld r PartEthqCtl.enable = 1
      let now := PartEthqCtl.enable.get v = 1
      let keep (f : Fld) : Nat := if was then s.fld r f else f.get v
      let s1 := (((((s.setFld r PartEthqCtl.txLog2 (keep PartEthqCtl.txLog2)).setFld r PartEthqCtl.rxLog2 (keep PartEthqCtl.rxLog2)).setFld
        r PartEthqCtl.irq (PartEthqCtl.irq.get v)).setFld r PartEthqCtl.vector (PartEthqCtl.vector.get v)).setFld
        r PartEthqCtl.gapUs (PartEthqCtl.gapUs.get v)).setFld r PartEthqCtl.enable (b2n now)
      let s2 := if now ∧ !was then
          ((((s1.staleQueue p i).setReg (.partEthqTxHead p i) 0).setReg (.partEthqRxHead p i) 0).setFld (.partEthqStat p i) PartEthqStat.error 0).setFld
            (.partEthqStat p i) PartEthqStat.cause 0 else s1
      (s2.queueChecks p i).txNext p i))

/-- A tail write: an index more than the ring's size ahead of the head stops the queue (R439). -/
def State.tailWrite (s : State) (p i log2 head tail : Nat) : State :=
  if s.queueRuns p i ∧ 2 ^ log2 < (tail + 65536 - head) % 65536 then s.queueError p i 1 else s

/-- ETHQ_TX_TAIL_WRITE (R439, R440). -/
def execEthqTxTailWrite (p i : Nat) (v : BitVec 64) (s : State) : Host.Outcome State Fault Refusal :=
  commit s (Instr.wf (.ethqTxTailWrite p i v)) (s.vfWrite p (
    if s.ethCount p ≤ i then s
    else ((s.setFld (.partEthqTxTail p i) PartEthqTxTail.index (v.toNat % 65536)).tailWrite p i
      (s.fld (.partEthqCtl p i) PartEthqCtl.txLog2) (s.fld (.partEthqTxHead p i) PartEthqTxHead.index) (v.toNat % 65536)).txNext p i))

/-- ETHQ_RX_TAIL_WRITE. -/
def execEthqRxTailWrite (p i : Nat) (v : BitVec 64) (s : State) : Host.Outcome State Fault Refusal :=
  commit s (Instr.wf (.ethqRxTailWrite p i v)) (s.vfWrite p (
    if s.ethCount p ≤ i then s
    else (s.setFld (.partEthqRxTail p i) PartEthqRxTail.index (v.toNat % 65536)).tailWrite p i
      (s.fld (.partEthqCtl p i) PartEthqCtl.rxLog2) (s.fld (.partEthqRxHead p i) PartEthqRxHead.index) (v.toNat % 65536)))

/-! ## Encapsulation (R416, R417) -/

/-- What has been given to a peer and will not be answered: the packets of the device's own transactions are found by the
transaction, the others are answered in its place (R322, R417). -/
def State.peerLost (s : State) (l : List PeerPkt) : State :=
  l.foldl (fun t k =>
    let p := Pkt.ofBytes k.bytes
    if p.srcNode = t.ownNode ∧ isRequest p.op then t else t.answerLost { p with data := (k.bytes.drop 32).take p.length }) s

/-- A peer is down (R417): its unanswered transactions are answered NODE_UNREACHABLE. -/
def State.peerDown (s : State) (i : Nat) (r : Peer) : State :=
  let s1 := (s.modPeer i (fun r => { r with down := true, unacked := [], resend := 0, wait := [], nakDue := false, ackDue := false })).log {
    code := 0x4907, detail := det [(2, r.lnode), (1, r.port)] }
  (s1.fab.xfers.filter (fun (_, x) => x.node = r.lnode)).foldl (fun t (tag, x) => t.faultArrives tag cNode x.left)
    (s1.peerLost (r.unacked ++ r.wait))

/-- Every unacknowledged packet to a peer is sent again, in order; the eighth time in succession the peer is down (R417,
R332). -/
def State.peerReplay (s : State) (i : Nat) (r : Peer) : State :=
  if r.down ∨ r.unacked.isEmpty then s
  else if r.replays + 1 ≥ 8 then s.peerDown i r
  else (s.modPeer i (fun r => { r with replays := r.replays + 1, resend := r.unacked.length })).serve r.port

/-- ETH_PEER_REPLAY_TIMEOUT. -/
def execEthPeerReplayTimeout (n : Nat) (s : State) : Host.Outcome State Fault Refusal :=
  commit s (Instr.wf (.ethPeerReplayTimeout n)) (match s.peerOf n with
    | none => s
    | some (r, i) => s.peerReplay i r)

/-- A packet from its bytes: header and data. -/
def pktOfBytes (bs : List Byte) : Pkt :=
  let p := Pkt.ofBytes bs
  { p with data := (bs.drop 32).take p.length }

/-- Whether a frame is an encapsulation frame that R416 accepts from a peer: IPv6 to the own address, UDP to the own port with a
correct checksum. -/
def Eth.accepts (e : Eth) (f : List Byte) : Bool :=
  let udp := f.drop 54
  etherType f = 0x86DD && (ipBytes f 0 1).all (fun b => b.toNat / 16 = 6) && ipBytes f 24 16 = e.ip
    && ipBytes f 6 1 = [17] && beNat ((udp.drop 2).take 2) = e.udpPort
    && (let len := beNat ((udp.drop 4).take 2)
        8 ≤ len && len ≤ udp.length && beNat ((udp.drop 6).take 2) ≠ 0
          && inetFold (inetSum (ipBytes f 8 32) + len + 17 + inetSum (udp.take len)) = 65535)

/-- The window after an acknowledgement up to `ack` (R417). -/
def Peer.acked (r : Peer) (ack : Nat) : Peer :=
  match r.unacked.findIdx? (fun k => k.seq = ack) with
  | none => r
  | some j => { r with unacked := r.unacked.drop (j + 1), resend := min r.resend (r.unacked.length - (j + 1)), replays := 0 }

/-- An encapsulation frame of a peer (R416, R417): acknowledgement and nak, then its packet when its sequence number is the
next. A frame of eight bytes, the shim alone, carries no packet. -/
def State.peerReceive (s : State) (i : Nat) (r : Peer) (udp : List Byte) : State :=
  let pay := (udp.take (beNat ((udp.drop 4).take 2))).drop 8
  let seq := leNat (pay.take 2)
  let flags := ((pay.drop 4).headD 0).toNat
  let s1 := s.modPeer i (fun r => r.acked (leNat ((pay.drop 2).take 2)))
  let s2 := (if flags / 8 % 2 = 1 then s1.peerReplay i (r.acked (leNat ((pay.drop 2).take 2))) else s1).servePeer i
  if pay.length ≤ 8 then s2
  else if seq ≠ (r.lastRx + 1) % 65536 then (s2.modPeer i (fun r => { r with gap := true, nakDue := r.nakDue || !r.gap })).ackPeer i
  else (((s2.modPeer i (fun r => { r with lastRx := seq, gap := false, nakDue := false })).ackPeer i)).arriveOwn (flags % 8) (pktOfBytes (pay.drop 8))

/-- A frame that the port drops (R414, R416). -/
def State.ethDrop (s : State) (e : Nat) : State := s.satFld (.optPortStat (64 + e)) OptPortStat.ethDropped 1

/-- ETH_FRAME_RECEIVE (R412, R414). -/
def execEthFrameReceive (e : Nat) (f : List (BitVec 8)) (fcs : BitVec 32) (s : State) : Host.Outcome State Fault Refusal :=
  commit s (Instr.wf (.ethFrameReceive e f fcs)) (
    let dst := f.take 6
    if s.portState (64 + e) ≠ 3 then s
    else if !frameOk (f ++ leBytes 4 fcs.toNat) ∨ !s.eth.present ∨ etherType f = 0x8808 then s.ethDrop e
    else if dst = s.eth.devMac then
      (if s.eth.accepts f then (match s.eth.peers.zipIdx.find? (fun (r, _) => r.ip = ipBytes f 8 16) with
        | some (r, i) => s.peerReceive i r (f.drop 54)
        | none => s.ethDrop e) else s.ethDrop e)
    else if (dst.headD 0).toNat % 2 = 1 then
      (s.partNums.filter (fun p => s.partState p = 2 && !(s.queuesOn p e).isEmpty)).foldl (fun t p => t.partReceive p e f) s
    else match s.partNums.find? (fun p => s.eth.partMac.getD p [] = dst) with
      | some p => s.partReceive p e f
      | none => s.ethDrop e)

/-! ## Link states (R413) -/

/-- ETH_LINK_UP. -/
def execEthLinkUp (e : Nat) (s : State) : Host.Outcome State Fault Refusal :=
  commit s (Instr.wf (.ethLinkUp e)) (
    if s.portState (64 + e) = 1 ∧ !s.feedLow (64 + e) ∧ !s.loopHolds (64 + e) then ((s.setPort (64 + e) 3).ethLanes (64 + e)).serve e else s)

/-- ETH_LINK_FAIL. -/
def execEthLinkFail (e : Nat) (s : State) : Host.Outcome State Fault Refusal :=
  commit s (Instr.wf (.ethLinkFail e)) (
    if s.portState (64 + e) = 3 then (s.portDownEvent (64 + e) 3).toSeek (64 + e) else s)

end Sys2Proof.Machine
end

