-- ==== Sys2Proof/Machine/HbmOps.lean ====
section
/-! DEFINITION. What happens to HBM by itself: the write-back of a pending block (R237), patrol scrub (R242 to R244), lost
channels and stacks (R250, R251), margining (R253); and when a device is drained (R61). -/
namespace Sys2Proof.Machine

/-- HARN_STATE.drained (R61): Framed, no partition Armed, nothing outstanding, no flit of the device under way or in a
buffer of a port, and every credit that a port has granted returned: the device holds as many as it ever held (assumption 36). -/
def State.drained (s : State) : Bool :=
  s.devState = 1 && s.partNums.all (fun p => s.partState p ≠ 2) && s.fab.xfers.isEmpty && s.fab.inject.isEmpty && s.fab.acks.isEmpty
    && s.fab.waiting.isEmpty && s.parts.all (fun (_, q) => q.held.isEmpty)
    && s.cores.all (fun (_, k) => k.active.all (fun a => a.eng ≠ 2))
    && ((List.range 64).filter s.carrying).all (fun k =>
      (s.link k).out.isEmpty && (s.link k).unacked.isEmpty && (s.link k).occ.all (fun (_, n) => n = 0)
        && (s.link k).top.all (fun (j, n) => (s.link k).held j = n))

/-- PENDING_BLOCK_WRITEBACK (R237): a write waits for an entry of a store that is full. -/
def execPendingBlockWriteback (d p : Nat) (s : State) : Host.Outcome State Fault Refusal :=
  commit s (Instr.wf (.pendingBlockWriteback d p)) (
    if s.llsCache d p ∧ 1536 * s.llsWays d p ≤ (s.slice d p).pend.length then s.flushOldest d p else s)

/-! ## Scrub -/

/-- Whether a channel works: trained, not lost in the field (R244, R250). -/
def State.chWorks (s : State) (k c : Nat) : Bool := bitAt (mget s.hbm.trained k 0) c && !s.chLost (k * 32 + c)

/-- HBM_SCRUB_STAT of a stack after a scrub read (R254), and HBM_SCRUB_PASS when every working channel has been through. -/
def State.scrubNote (s : State) (k : Nat) : State :=
  let ats := ((List.range 32).filter (s.chWorks k)).map (fun c => mget s.hbm.scrubAt (k * 32 + c) 0)
  let low := ats.foldl min (ats.headD 0)
  let was := HbmScrubStat.passes.get (regGet s.live (.hbmScrubStat k))
  let w := BitVec.ofNat 64 (low / 2 ^ 31 % 2 ^ 32 + low / 4096 % 524288 * 2 ^ 32)
  let s1 := { s with live := regSet s.live (.hbmScrubStat k) w }
  if was < low / 2 ^ 31 then s1.log { code := 0x4503, unit := k, detail := det [(1, k), (3, 0), (4, low / 2 ^ 31)], whr := [(3, k)] } else s1

/-- The end of a block: a VALID one is compared with its check value (R244). -/
def State.scrubBlock (s : State) (k c byte : Nat) : State :=
  let addr := hbmAddr (k * 32 + c) (byte / 4096 * 4096)
  let h := s.hblk addr
  if h.opens = 0 ∧ h.poison = 0 ∧ crc32c (memRead s.hbm.mem addr 4096) ≠ h.check.toNat then
    s.log { code := 0x1502, unit := k, detail := det [(1, k), (1, c), (2, 0), (8, byte / 4096 * 4096)], whr := [(3, k), (4, c)] }
  else s

/-- SCRUB_READ (R242, R243): one transfer of a working channel. -/
def execScrubRead (k ch : Nat) (r : ScrubReport) (s : State) : Host.Outcome State Fault Refusal :=
  commit s (Instr.wf (.scrubRead k ch r)) (
    let key := k * 32 + ch
    let at_ := mget s.hbm.scrubAt key 0
    let byte := at_ % 2 ^ 31
    if s.fld .hbmScrubCtl HbmScrubCtl.enable = 0 ∨ !s.chWorks k ch ∨ s.hbm.margin = some key then s
    else
      let s1 := match r with
        | .clean => s
        | .fixed lane => if lane < 68 then s.hbmCorrected k ch lane else s
        | .lost => s.hbmLost k ch byte none
      let s2 := if byte % 4096 = 4032 then s1.scrubBlock k ch byte else s1
      ({ s2 with hbm := { s2.hbm with scrubAt := mset s2.hbm.scrubAt key (at_ + 64) } }).scrubNote k)

/-! ## Losses -/

/-- Dirty LLS lines of channels are lost (R250). -/
def State.dropDirty (s : State) (q : Nat → Bool) : State :=
  s.lls.foldl (fun t (key, x) =>
    let d := key / 32
    let p := key % 32
    let gone := x.lines.filter (fun l => l.dirty && (match t.hbmPlace p (128 * l.idx) with
      | none => false
      | some (ch, _) => q ch))
    let t1 := t.modSlice d p (fun y => { y with lines := y.lines.filter (fun l => !gone.contains l) })
    (uniq (gone.map (fun l => l.idx / 32))).foldl (fun u b => u.releasePend d p b) t1) s

/-- Partitions whose region names a stack. -/
def State.partsOnStack (s : State) (k : Nat) : List Nat :=
  s.partNums.filter (fun p => match s.regionOf p with
    | none => false
    | some i => bitAt (s.fld (.hbmRegion i) HbmRegion.stacks) k)

/-- The event of a loss fences every partition on the stack; without one it is logged for the device. -/
def State.fenceStack (s : State) (k code : Nat) (detail : List Byte) (whr : List (Nat × Nat)) : State :=
  let ps := s.partsOnStack k
  if ps.isEmpty then s.log { code := code, unit := k, detail := detail, whr := whr }
  else ps.foldl (fun t p => t.log { code := code, part := some p, unit := k, detail := detail, whr := whr }) s

/-- A stack is lost (R251). -/
def State.stackLost (s : State) (k : Nat) : State :=
  if s.fld (.hbmStackState k) HbmStackState.state = 0 ∨ s.fld (.hbmStackState k) HbmStackState.state = 3 then s
  else
    let s1 := ((List.range 32).filter (s.chWorks k)).foldl (fun t c => t.setFld (.hbmChState k c) HbmChState.state 2) s
    ((((s1.setFld (.hbmStackState k) HbmStackState.state 3).setFld (.hbmStackState k) HbmStackState.working 0).setFld
      (.hbmStackState k) HbmStackState.chOk 0).dropDirty (fun ch => ch / 32 = k)).fenceStack k 0x2502 (det [(1, k)]) [(3, k)]

/-- HBM_STACK_LOST. -/
def execHbmStackLost (k : Nat) (s : State) : Host.Outcome State Fault Refusal :=
  commit s (Instr.wf (.hbmStackLost k)) (s.stackLost k)

/-- HBM_CHANNEL_LOST (R250); with the last working channel goes the stack (R251). -/
def execHbmChannelLost (k ch : Nat) (s : State) : Host.Outcome State Fault Refusal :=
  commit s (Instr.wf (.hbmChannelLost k ch)) (
    if s.fld (.hbmStackState k) HbmStackState.state = 0 ∨ !s.chWorks k ch then s
    else
      let ok := s.fld (.hbmStackState k) HbmStackState.chOk
      let s1 := ((((s.setFld (.hbmChState k ch) HbmChState.state 2).setFld (.hbmStackState k) HbmStackState.state 2).setFld
        (.hbmStackState k) HbmStackState.working (s.fld (.hbmStackState k) HbmStackState.working - 1)).setFld
        (.hbmStackState k) HbmStackState.chOk (ok - b2n (bitAt ok ch) * 2 ^ ch)).dropDirty (fun x => x = k * 32 + ch)
      let s2 := s1.fenceStack k 0x2501 (det [(1, k), (1, ch)]) [(3, k), (4, ch)]
      if (List.range 32).any (s2.chWorks k) then s2 else s2.stackLost k)

/-! ## Margining (R253) -/

/-- MARGIN_START: the fields are written; a start outside a drained Framed device, or of a lane above 67, is refused. -/
def execMarginStart (v : BitVec 64) (s : State) : Host.Outcome State Fault Refusal :=
  commit s (Instr.wf (.marginStart v)) (s.pfWrite (
    let ok := s.drained ∧ HbmMarginCtl.lane.get v ≤ 67 ∧ s.hbm.margin = none
    let r : Reg := .hbmMarginCtl
    let s1 := (((s.setFld r HbmMarginCtl.stack (HbmMarginCtl.stack.get v)).setFld r HbmMarginCtl.channel (HbmMarginCtl.channel.get v)).setFld r
        HbmMarginCtl.lane (HbmMarginCtl.lane.get v)).setFld r HbmMarginCtl.axis (HbmMarginCtl.axis.get v)
    if HbmMarginCtl.start.get v = 0 then s1
    else if ok then
      { (s1.setFld .hbmMarginRes HbmMarginRes.done 0).setFld .hbmMarginRes HbmMarginRes.refused 0 with
        hbm := { s1.hbm with margin := some (HbmMarginCtl.stack.get v * 32 + HbmMarginCtl.channel.get v) } }
    else s1.setFld .hbmMarginRes HbmMarginRes.refused 1))

/-- MARGIN_DONE. -/
def execMarginDone (low high : BitVec 8) (s : State) : Host.Outcome State Fault Refusal :=
  commit s (Instr.wf (.marginDone low high)) (
    if s.hbm.margin = none then s
    else { ((s.setFld .hbmMarginRes HbmMarginRes.low low.toNat).setFld .hbmMarginRes HbmMarginRes.high high.toNat).setFld
            .hbmMarginRes HbmMarginRes.done 1 with hbm := { s.hbm with margin := none } })

end Sys2Proof.Machine
end

