-- ==== Sys2Proof/Machine/Structure.lean ====
section
/-! DEFINITION. What a committed tree image makes of the block (R46, R47, R581): the registers that a reset, the way to Bare
and a tree commit keep, and the structure that step 6 of a tree commit sets live. -/
namespace Sys2Proof.Machine

/-! ## Which registers are kept (R551, R552, R581) -/

/-- A register word with every field but those named at its reset value. -/
def Reg.keepOnly (r : Reg) (fs : List Fld) (v : BitVec 64) : BitVec 64 := fs.foldl (fun w f => f.put w (f.get v)) r.resetWord

/-- Reset registers: `keep` names the fields that stay, or none for a register that stays whole. -/
def State.resetTo (s : State) (keep : Reg → Option (List Fld)) : State :=
  { s with regs := s.regs.filterMap (fun (r, v) => match keep r with
      | none => some (r, v)
      | some fs => if r.keepOnly fs v = r.resetWord then none else some (r, r.keepOnly fs v)) }

/-- Registers of the OTP, which nothing resets. -/
def Reg.fusedKeep : Reg → Option (List Fld)
  | .harnFuse | .devCoreGood _ | .devId => none
  | .devD2d _ => some [DevD2d.fusedRepairs]
  | .devFw => some [DevFw.fwMin]
  | _ => some []

/-- What a reset that leaves the standby domain powered keeps (R552). -/
def Reg.resetKeep : Reg → Option (List Fld)
  | .errRingHead | .errRingRead | .errEventsLostOldest | .errPath | .errSigStat | .errCapCtl _ | .errFirst _ _ | .errNext _ _
  | .errRing _ _ | .errSig _ _ | .hbmChState _ _ | .stchBootId | .stchTickCount | .stchTickUptime | .pwrEnergySnap | .pwrLastgasp _ => none
  | .errIntake => some [ErrIntake.coalesced]
  | .optPortState _ => some [OptPortState.txRetired, OptPortState.rxRetired]
  | .devBoot => some [DevBoot.causes]
  | .devClk => some [DevClk.refGaps]
  | r => r.fusedKeep

/-- What a tree commit keeps beyond that (R581): the DEV block, which records the boot, the HARN block, which records the
operation, and what the training of step 4 has written (assumption 47). -/
def Reg.commitKeep : Reg → Option (List Fld)
  | .devCtl | .devBoot | .devDie | .devClk | .devFw | .devStrap | .devIrqStat | .devD2d _ | .devLoopCtl | .devLoopRes
  | .harnState | .harnCtl | .harnStatus | .harnPushAddr | .harnPushLen | .harnBoot | .harnDigest _
  | .hbmStackState _ | .hbmChEcc _ _ => none
  | .optPortState _ => some []
  | r => r.resetKeep

/-- What going Bare for a tree commit keeps: the retired lines too, which only the commit frees (R407). -/
def Reg.bareKeep : Reg → Option (List Fld)
  | .optPortState k => (Reg.optPortState k).resetKeep
  | r => r.commitKeep

/-! ## No structure -/

/-- The X-die without traffic. -/
def Fab.idle : Fab :=
  ⟨[], [], [], 0, [], [], 0, [], [], [], [], []⟩
/-- No ETHERNET section. -/
def Eth.none : Eth := ⟨false, 0, [], [], [], [], [], [], [], [], [], [], []⟩
/-- The stitch in Bare. -/
def Stitch.off : Stitch := ⟨[], 0, 0, [], [], [], [], []⟩

/-- Everything that a tree image gives is gone (R21, R51): cores, partitions, tacks, lines, slices, fabric, Ethernet, tick. -/
def State.noStructure (s : State) (keep : Reg → Option (List Fld)) : State :=
  { s.resetTo keep with
    live := s.live.filter (fun p => p.1 = .pwrEnergySnap), cores := [], parts := [], gtacks := 0, cinches := [], lls := [],
    fab := Fab.idle, eth := Eth.none, stitch := Stitch.off, hbm := { s.hbm with margin := none } }

/-- The way from Framed to Bare that a tree commit takes first (R63): every port Dark, then no structure. -/
def State.goBare (s : State) : State :=
  let s1 := ((List.range 68).foldl State.darken s).setDevState 0
  let s2 := s1.noStructure Reg.bareKeep
  let s3 := (List.range 8).foldl (fun t l => t.setFld (.devD2d l) DevD2d.roles 0) { s2 with host := { s2.host with reqs := [] } }
  (s3.setFld .harnState HarnState.source 0).setRegs (.harnDigest ·) (List.replicate 6 0)

/-! ## The structure of an image (step 6 of R42) -/

/-- A core as framed: nothing started, scratchpad zero and VALID, its STRIP_SHAPE strips (R42, R71, R216). -/
def Core.fresh (phys : Nat) : Core :=
  ⟨phys, false, [], [], [], none, false, false, [], [], 0, ⟨[], [], [], []⟩, [], [], [], 0, 0, none⟩
/-- A partition as granted. -/
def Part.fresh (g : List Nat) : Part :=
  ⟨g.map (BitVec.ofNat 32), none, 0, 0, 0, [], 0, [], [], 0, [], 0, [], 0, (0, 0), (0, 0)⟩

/-- A word at bit `lo` of a register. -/
def word64 (fs : List (Fld × Nat)) : BitVec 64 := fs.foldl (fun w (f, x) => f.put w x) 0

/-- Identity and shape registers of a core (R112, R138, R139). -/
def coreRegs (img : List Nat) (c phys : Nat) : List (Reg × BitVec 64) :=
  let own := (grantRecords img).find? (fun g => grantCore g c)
  let sh := wordAt (sec img 2) phys
  let off := bitsOf sh 0 4
  let ok := 15 - off
  let pair (i : Nat) : Nat := b2n (bitsOf off (2 * i) 2 = 0 && !bitAt sh 4)
  let quad := b2n (off = 0 && !bitAt sh 5)
  let cube := b2n (off = 0 && !bitAt sh 6)
  [(.coreId c, word64 [(CoreId.logical, c), (CoreId.die, dieOf phys), (CoreId.partition, wordAt (own.getD []) 0), (CoreId.granted, b2n own.isSome)]),
   (.corePhys c, word64 [(CorePhys.physical, phys)]),
   (.coreCap c, CoreCap.cube.put (CoreCap.strips.put (Reg.coreCap c).resetWord (popcount 4 ok)) cube),
   (.coreMxState c, word64 [(CoreMxState.stripOk, ok), (CoreMxState.pairOk, pair 0 + 2 * pair 1), (CoreMxState.quadOk, quad), (CoreMxState.cubeOk, cube)])]

/-- A retired core that a tree commit leaves out of CORE_MAP is no longer retired (R204). -/
def State.keepRetired (s : State) (map : List (Nat × Nat)) : State :=
  { s with pkg := { s.pkg with retired := s.pkg.retired.filter (fun x => map.any (fun m => m.2 = x)) } }
/-- A core that a tree commit leaves with two working strips or fewer is retired (R137). -/
def State.retireShort (s : State) : State :=
  (s.cores.map Prod.fst).foldl (fun t c => if t.stripsWorking c ≤ 2 ∧ !t.isRetired c then t.retireCore c else t) s

/-- LLS_SLICE of a grant on a die: ways lie in ascending partition order (R206, R225). -/
def sliceReg (img : List Nat) (d p : Nat) : Reg × BitVec 64 :=
  let first := (((grantRecords img).filter (fun g => wordAt g 0 < p)).map (fun g => grantWays g d)).sum
  (.llsSlice d p, word64 [(LlsSlice.mode, wordAt (sec img 4) (32 * d + p)), (LlsSlice.firstWay, first), (LlsSlice.ways, grantWays ((grantOf? img p).getD []) d)])

/-- Registers of the fabric (R344, R350). -/
def fabRegs (img : List Nat) : List (Reg × BitVec 64) :=
  let r := routeWords img
  let port (k : Nat) : Nat := wordAt (sec img 7) k
  [(.fabNode, word64 [(FabNode.physical, imgOwn img), (FabNode.logical, imgOwnLogical img)]),
   (.fabVcCfg, BitVec.ofNat 64 (wordAt r 1 + wordAt r 2 * 2 ^ 32)),
   (.fabCreditCfg 0, BitVec.ofNat 64 (wordAt r 3 + wordAt r 4 * 2 ^ 32)),
   (.fabCreditCfg 1, BitVec.ofNat 64 (wordAt r 5 + wordAt r 6 * 2 ^ 32))]
    ++ (List.range 1024).map (fun n => (.fabRoute n, gfPair (wordAt r (7 + n))))
    ++ (List.range 1024).map (fun n => (.fabXlate n, gfPair (wordAt (sec img 9) n)))
    ++ (List.range 32).flatMap (fun p => (List.range 18).map (fun i => (.fabReach p i, gfPair (wordAt r (1031 + 18 * p + i)))))
    ++ (List.range 32).map (fun p => (.fabTransit p, BitVec.ofNat 64 (wordAt r (1607 + 2 * p) + wordAt r (1608 + 2 * p) * 2 ^ 32)))
    ++ (List.range 64).map (fun k => (.fabPortState k, word64 [(FabPortState.role, bitsOf (port k) 0 2), (FabPortState.partner, bitsOf (port k) 2 10)]))
    ++ (List.range 64).map (fun k => (.optPortState k, word64 [(OptPortState.txSpare, bitsOf (port k) 12 4), (OptPortState.rxSpare, bitsOf (port k) 12 4)]))

/-- Registers of power and temperature, and OPT_CFG (R422, R540, R541). -/
def powerRegs (img : List Nat) : List (Reg × BitVec 64) :=
  let w := powerWords (sec img 11)
  let o := wordAt (portWords img) 68
  [(.optCfg, word64 [(OptCfg.burnishMs, bitsOf o 0 16), (OptCfg.slewW, 10 * bitsOf o 16 8)]),
   (.pwrCfg, BitVec.ofNat 64 (wordAt w 0 + wordAt w 1 * 2 ^ 32)),
   (.pwrSagCtl, word64 [(PwrSagCtl.threshold, bitsOf (wordAt w 2) 0 9), (PwrSagCtl.pct, bitsOf (wordAt w 2) 9 7), (PwrSagCtl.cut, 1 - bitsOf (wordAt w 2) 16 1)])]
    ++ (thermalWords img).zipIdx.map (fun (x, c) => (.thrmClass c, BitVec.ofNat 64 x))

/-- Registers of the regions, the links and the tick (R254, R313, R562). -/
def restRegs (img : List Nat) : List (Reg × BitVec 64) :=
  let st := sec img 10
  [(.stchCtl, word64 [(StchCtl.periodUs, bitsOf (wordAt st 0) 0 7), (StchCtl.role, bitsOf (wordAt st 0) 8 2)])]
    ++ (List.range 32).map (fun p => (.stchPart p, BitVec.ofNat 64 (wordAt st (4 + 2 * p) + wordAt st (5 + 2 * p) * 2 ^ 32)))
    ++ (List.range 32).map (fun i => (.hbmRegion i, BitVec.ofNat 64 (hbmRegionReg img i)))

/-- Registers of a grant (R526, R542). -/
def grantRegs (g : List Nat) : List (Reg × BitVec 64) :=
  [(.pwrGrant (wordAt g 0), gfPair (wordAt g 26)), (.partPwr (wordAt g 0), word64 [(PartPwr.allot, wordAt g 26)])]

/-- The die that an event of a die-to-die link names (R583): of a spoke its compute die, of a ring link the lower-numbered
die. -/
def linkDie (l : Nat) : Nat := if l = 3 then 0 else if l < 4 then l else l - 4

/-- Store a list of registers. -/
def State.setAll (s : State) (l : List (Reg × BitVec 64)) : State := l.foldl (fun t (r, v) => t.setReg r v) s

/-- The six bytes of a MAC address in two words. -/
def macBytes (a b : Nat) : List Byte := leBytes 4 a ++ leBytes 2 b
/-- The ETHERNET section (R416, R417, R420). -/
def ethOf (img : List Nat) : Eth :=
  match sec? img 13 with
  | .none => Eth.none
  | some w =>
    let peer (i : Nat) : Peer :=
      let o := 88 + 7 * i
      ⟨bitsOf (wordAt w o) 0 10, bitsOf (wordAt w o) 10 2, wordBytes ((w.drop (o + 1)).take 4), macBytes (wordAt w (o + 5)) (wordAt w (o + 6)),
       0, [], 0, [], 0, 65535, false, false, false, false⟩
    ⟨true, bitsOf (wordAt w 0) 0 16, wordBytes ((w.drop 1).take 4),
     (List.range 256).map (fun q => bitsOf (wordAt w (5 + q / 16)) (2 * (q % 16)) 2),
     (List.range 32).map (fun p => macBytes (wordAt w (21 + 2 * p)) (wordAt w (22 + 2 * p))),
     macBytes (wordAt w 85) (wordAt w 86), (List.range (wordAt w 87)).map peer, [], [], [], [], [], []⟩

/-- The tick starts (R287, R291): count 0, Locked for the master and Free for the others. -/
def State.startTick (s : State) : State :=
  s.setFld .stchStatus StchStatus.state (if s.tickRole = 1 then 2 else 1)

/-- Step 6 of a tree commit passes (R46, R47): the image in the staging store becomes live. -/
def State.goLive (s : State) (src : Nat) : State :=
  let img := grains s.harn.staging
  let gs := grantRecords img
  let s1 := s.noStructure Reg.commitKeep
  let s2 := { s1 with
    cores := (coreMap img).foldl (fun m (c, i) => mset m c (Core.fresh i)) [],
    parts := gs.foldl (fun m g => mset m (wordAt g 0) (Part.fresh g)) [],
    eth := ethOf img }
  let s3 := (((s2.setAll (fabRegs img)).setAll (powerRegs img)).setAll (restRegs img)).setAll (gs.flatMap grantRegs)
  let s4 := (s3.setAll ((coreMap img).flatMap (fun (c, i) => coreRegs img c i))).setAll
    ((List.range 4).flatMap (fun d => gs.map (fun g => sliceReg img d (wordAt g 0))))
  let s5 := (d2dRoles img).zipIdx.foldl (fun t (w, l) => t.setFld (.devD2d l) DevD2d.roles w) s4
  let s6 := (s5.setRegs (.harnDigest ·) (toWords 6 (sha384 (imageBytes s.harn.staging)))).setFld .harnState HarnState.source src
  let s7 := (s6.setCap 100).refill.startTick
  let s8 := gs.foldl (fun t g => t.setPartState (wordAt g 0) 1) (s7.setDevState 1)
  let s9 := (s8.keepRetired (coreMap img)).retireShort
  (List.range 68).foldl State.wakePort s9

end Sys2Proof.Machine
end

