-- ==== Sys2Proof/Machine/Harness.lean ====
section
/-! DEFINITION. The Harness (R32 to R64, R446): the image loader, tree and strap commits, ARM and DRAIN, slot writes, the slot
control block, UNLOAD and RELEASE. -/
namespace Sys2Proof.Machine

/-! ## Operations -/

/-- Change the Harness's own state. -/
def State.modHarn (s : State) (f : Harn → Harn) : State := { s with harn := f s.harn }
/-- Whether an operation runs, or requests that R64 lets wait have not started yet. -/
def State.harnBusy (s : State) : Bool := s.harn.op.isSome || !s.harn.queue.isEmpty
/-- Strap commit requests that wait. -/
def State.queuedStraps (s : State) : Nat := s.harn.queue.countP Option.isSome

/-- HARN_STATUS, and PART_STRAP_STATUS of a strap commit, show the step under way (R68). -/
def State.showStep (s : State) (op : HarnOp) : State :=
  let s1 := s.setFld .harnStatus HarnStatus.step op.stepNo
  match op with
  | .strap r _ => s1.setFld (.partStrapStatus r.part) HarnStatus.step 7
  | _ => s1

/-- An operation starts (R68). -/
def State.harnBegin (s : State) (op : HarnOp) : State :=
  let s1 := ((s.modHarn (fun h => { h with op := some op, startNs := s.pkg.uptime.toNat, loader := Loader.idle })).setFld
    .harnState HarnState.busy 1).putStatus .harnStatus 0 0 0 0 0
  (match op with
   | .strap r _ => s1.putStatus (.partStrapStatus r.part) 0 0 0 0 0
   | _ => s1).showStep op

/-- The next step of the running operation. -/
def State.harnStep (s : State) (op : HarnOp) : State := (s.modHarn (fun h => { h with op := some op })).showStep op

/-- A command that is done at once: result 1, PF vector 1 (R68, R435). -/
def State.harnDone (s : State) (vf : Option Nat) : State :=
  let s1 := s.putStatus .harnStatus 0 1 0 0 0
  (match vf with
   | none => s1
   | some p => s1.putStatus (.partStrapStatus p) 0 1 0 0 0).devIrq DevIrqStat.harness

/-- Whether a test instruction is in effect: EXTEST, EXTEST_PULSE, EXTEST_TRAIN, CLAMP or HIGHZ in Bare (R568, R569). -/
def State.tapHolds (s : State) : Bool := s.devState = 0 && 3 ≤ s.pkg.tapInstr && s.pkg.tapInstr ≤ 7
/-- A Harness command: nothing reaches a device in reset; one that has not finished booting, or that a test instruction
holds, refuses it (R555, R569). -/
def State.harnCommand (s : State) (cmd : Nat) (vf : Option Nat) (eff : State) : State :=
  if !s.pkg.booted then s else if !s.pkg.bootDone ∨ s.tapHolds then s.harnRefuse cmd vf else eff

/-! ## The slot control block (R35, R40) -/

/-- Whether update count `a` is higher than `b`. -/
def countHigher (a b : Nat) : Bool := let d := (a + 2 ^ 32 - b % 2 ^ 32) % 2 ^ 32; 1 ≤ d && d < 2 ^ 31
/-- A copy as it is written: the update count, the flags and a valid word of 1 or 0 for each slot, and their CRC (assumption
64). -/
def SlotCtl.copy (c : SlotCtl) : SlotCopy :=
  let ws := [gfPair c.count, gfPair (b2n c.autoload), gfPair (b2n c.preferred), gfPair (b2n c.validA), gfPair (b2n c.validB)]
  ⟨ws, BitVec.ofNat 32 (crc32c (imageBytes ws))⟩
/-- Whether every pair of a copy complements and its CRC matches. -/
def SlotCopy.good (c : SlotCopy) : Bool := c.words.length = 5 && c.words.all gfOk && c.crc = BitVec.ofNat 32 (crc32c (imageBytes c.words))
/-- What a copy says. -/
def SlotCopy.read (c : SlotCopy) : SlotCtl :=
  let w (i : Nat) : Nat := wordAt (grains c.words) i
  ⟨w 0, w 1 = 1, w 2 = 1, w 3 = 1, w 4 = 1⟩
/-- The copy in force: false for the first, true for the second, none when neither is valid. -/
def Flash.current (f : Flash) : Option Bool :=
  if f.ctl0.good && f.ctl1.good then some (countHigher f.ctl1.read.count f.ctl0.read.count)
  else if f.ctl0.good then some false
  else if f.ctl1.good then some true
  else none
/-- The contents in force; without a valid copy autoload is clear and both slots are invalid. -/
def Flash.ctl (f : Flash) : SlotCtl :=
  match f.current with
  | some false => f.ctl0.read
  | some true => f.ctl1.read
  | none => ⟨0, false, false, false, false⟩
/-- An update rewrites the copy that was not written last. -/
def Flash.update (f : Flash) (g : SlotCtl → SlotCtl) : Flash :=
  let c := { g f.ctl with count := (f.ctl.count + 1) % 2 ^ 32 }.copy
  if f.current = some false then { f with ctl1 := c } else { f with ctl0 := c }
/-- The image of a slot: 0 for A, 1 for B. -/
def Flash.slot (f : Flash) (i : Nat) : List (BitVec 64) := if i = 0 then f.slotA else f.slotB
/-- Whether a slot is marked valid. -/
def Flash.slotValid (f : Flash) (i : Nat) : Bool := if i = 0 then f.ctl.validA else f.ctl.validB
/-- Mark a slot. -/
def Flash.mark (f : Flash) (i : Nat) (v : Bool) : Flash :=
  f.update (fun c => if i = 0 then { c with validA := v } else { c with validB := v })

/-- What a commit reads from a slot (R37): as many pairs as header word 2 says, the header alone when that exceeds the
limit of R27, and nothing from a slot marked invalid (assumption 48). -/
def Flash.slotImage (f : Flash) (i : Nat) : List (BitVec 64) :=
  let img := f.slot i
  let n := imgLen (grains img)
  if !f.slotValid i then []
  else if imgMax 1 < n then img.take 16
  else (img ++ List.replicate (n - img.length) 0).take n

/-! ## Failures -/

/-- Bytes of a PROGRAM section's program that lie in a range of pairs: first program byte and the words. -/
def programPart (img : List (BitVec 64)) (e : List Nat) (f k : Nat) : Nat × List Byte :=
  let a := max (entOff e + 32) f
  let b := min (entOff e + entLen e) (f + k)
  if a < b then
    let o := 4 * (a - (entOff e + 32))
    (o, (wordBytes (grains ((img.drop a).take (b - a)))).take (wordAt (grains (img.drop (entOff e))) 2 - o))
  else (0, [])

/-- The PROGRAM entries of a strap image. -/
def programs (img : List (BitVec 64)) : List (List Nat) := (directory (grains img)).filter (fun e => entType e = 0x20)
/-- The 32 header words of a PROGRAM section. -/
def programHead (img : List (BitVec 64)) (e : List Nat) : List Nat := grains ((img.drop (entOff e)).take (min 32 (entLen e)))
/-- Core and scratchpad offset at which a PROGRAM section is loaded (R111). -/
def programPlace (h : List Nat) : Nat × Nat := (wordAt h 0, wordAt h 11 + wordAt h 1)

/-- The rows that the loader writes for a range of pairs (R57): core, first byte, bytes. -/
def rowsWritten (img : List (BitVec 64)) (f k : Nat) : List (Nat × Nat × Nat) :=
  (programs img).filterMap (fun e =>
    let (c, base) := programPlace (programHead img e)
    let (o, bs) := programPart img e f k
    let a := (base + o) / 128 * 128
    if bs.isEmpty then none else some (c, a, (base + o + bs.length + 127) / 128 * 128 - a))

/-- The loader's writes of a range of pairs that it has read in step 2 (R56, R111). -/
def State.loadRange (s : State) (f k : Nat) : State :=
  (programs s.harn.loader.img).foldl (fun t e =>
    let (c, base) := programPlace (programHead t.harn.loader.img e)
    let (o, bs) := programPart t.harn.loader.img e f k
    if bs.isEmpty then t else (t.writeSpan (.spm c) (base + o) bs).1)
    (s.modHarn (fun h => { h with loader := { h.loader with rows := h.loader.rows ++ rowsWritten h.loader.img f k } }))

/-- Step 2 of a strap commit has streamed a program: blocks written whole become VALID (R217). -/
def State.sealPrograms (s : State) : State :=
  (programs s.harn.loader.img).foldl (fun t e =>
    let h := programHead t.harn.loader.img e
    let (c, base) := programPlace h
    t.generate (.spm c) [(base, wordAt h 2)]) s

/-- A tree commit of slot 0 or 1 starts (R36, R37). -/
def State.slotCommit (s : State) (i : Nat) (auto : Bool) : State :=
  let img := s.flash.slotImage i
  (s.harnBegin (.tree (i + 1) 1 auto)).modHarn (fun h => { h with loader := { h.loader with img := img } })

/-- The running operation fails (R36, R48). -/
def State.harnFail (s : State) (code detail : Nat) : State :=
  match s.harn.op with
  | some (.tree src _ true) => (s.harnEnd 2 code detail).slotCommit (2 - src) false
  | _ => s.harnEnd 2 code detail

/-! ## The image loader (R37, R56) -/

/-- The function whose host accesses read the image (R432). -/
def HarnOp.fn : HarnOp → Nat
  | .strap r _ => r.part + 1
  | _ => 0

/-- An image read fails: HOST_ERR, and the operation ends with HARN_REFUSED (R57, R434, assumption 49). -/
def State.loaderLost (s : State) (fn cause addr : Nat) : State := (s.hostErr fn cause addr).harnFail 0x420A 0

/-- Ask for the next part of the image: at most 512 bytes, none across a multiple of 512 (R433). -/
def State.loaderAsk (s : State) : State :=
  match s.harn.op, s.harn.loader.todo with
  | some op, (f, n) :: _ =>
    let addr := s.harn.loader.addr + 8 * f
    if s.host.busMaster.getLsbD op.fn then s.hostAsk op.fn addr (8 * min n (64 - f % 64)) .loader
    else s.loaderLost op.fn 0 addr
  | _, _ => s

/-- Put pairs at place `f` of an image; places not read hold 0. -/
def overlay (img : List (BitVec 64)) (f : Nat) (ws : List (BitVec 64)) : List (BitVec 64) :=
  (img ++ List.replicate (f - img.length) 0).take f ++ ws ++ img.drop (f + ws.length)

/-- Pairs read so far. -/
def Loader.got (l : Loader) : Nat := (l.read.map Prod.snd).sum
/-- The length rule of R37 for an image whose header has been read. -/
def Loader.lengthOk (l : Loader) (kind : Nat) : Bool := l.len = 8 * imgLen (grains l.img) && imgLen (grains l.img) ≤ imgMax kind
/-- The ranges of step 1 of a strap commit behind header and directory: SYNC_USE, REGION_TABLE, the first 32 words of every
PROGRAM section, and, for the checks that R55 has step 1 make, the last word of every program and word 0 of the signature block
(R28, R29, R111, assumption 57). -/
def sectionReads (img : List (BitVec 64)) : List (Nat × Nat) :=
  (directory (grains img)).flatMap (fun e =>
    if entType e ≠ 0x20 then [(entOff e, entLen e)]
    else if entLen e ≤ 32 then [(entOff e, entLen e)] else [(entOff e, 32), (entOff e + entLen e - 1, 1)])
    ++ [(imgLen (grains img) - 49, 1)]

/-- What the loader reads next once its ranges are done: behind the header of a tree image all the rest; behind the header of
a strap image its directory, and then the sections that step 1 checks. An image that fails its header, or whose length
breaks R37, is read no further. -/
def Loader.next (l : Loader) (op : HarnOp) : List (Nat × Nat) :=
  let ws := grains l.img
  match op with
  | .tree _ 1 _ => if l.got = 16 ∧ l.lengthOk 1 ∧ 16 < imgLen ws then [(16, imgLen ws - 16)] else []
  | .strap _ 1 =>
    if l.bad ∨ !headerOk 2 ws (l.len / 8) then []
    else if l.got = 16 then [(16, 4 * wordAt ws 3)]
    else if l.got = 16 + 4 * wordAt ws 3 ∧ directoryOk 2 ws (l.len / 8) then sectionReads l.img
    else []
  | _ => []

/-- Runs of consecutive numbers, as (first, count). -/
def runsOf : List Nat → List (Nat × Nat)
  | [] => []
  | x :: t => match runsOf t with
    | (y, n) :: r => if y = x + 1 then (x, n + 1) :: r else (x, 1) :: (y, n) :: r
    | [] => [(x, 1)]
/-- The pairs of an image that have not been read. -/
def Loader.unread (l : Loader) : List (Nat × Nat) :=
  runsOf ((List.range (l.len / 8)).filter (fun i => l.read.all (fun (f, k) => i < f || f + k ≤ i)))

/-- Data of the image arrive: joined to it, written to the scratchpads in step 2 of a strap commit, and the next part is
asked for unless a pair of a strap image fails (R24, R37, R57). -/
def State.loaderData (s : State) (ws : List (BitVec 64)) : State :=
  match s.harn.op, s.harn.loader.todo with
  | some op, (f, n) :: rest =>
    let k := ws.length
    let l := s.harn.loader
    let l1 := { l with
      img := overlay l.img f ws, todo := if k < n then (f + k, n - k) :: rest else rest, read := l.read ++ [(f, k)],
      bad := l.bad || !ws.all gfOk }
    let l2 := if l1.todo.isEmpty then { l1 with todo := l1.next op } else l1
    let s1 := s.modHarn (fun h => { h with loader := l2 })
    match op with
    | .strap _ st => if l1.bad then s1 else (if st = 2 then s1.loadRange f k else s1).loaderAsk
    | _ => s1.loaderAsk
  | _, _ => s

/-- Start reading an image of `len` bytes at `addr`: the header first. -/
def State.loaderStart (s : State) (addr len : Nat) : State :=
  let n := min 16 (len / 8)
  (s.modHarn (fun h => { h with loader := ⟨addr, len, [], if n = 0 then [] else [(0, n)], [], false, []⟩ })).loaderAsk

/-! ## Tree commits (R41 to R49, R60, R63) -/

/-- Whether a tree commit may start (R60, R64). -/
def State.treeAllowed (s : State) : Bool := !s.harnBusy && (s.devState = 0 || (s.devState = 1 && s.drained))
/-- A tree commit accepted in Framed first goes Bare (R63). -/
def State.treeClear (s : State) : State := if s.devState = 1 then s.goBare else s

/-- A commit from a flash slot. -/
def State.commitSlot (s : State) (i : Nat) : State :=
  s.harnCommand (i + 1) none (if s.treeAllowed then s.treeClear.slotCommit i false else s.harnRefuse (i + 1) none)
/-- COMMIT_SLOT_A. -/
def execCommitSlotA (s : State) : Host.Outcome State Fault Refusal := commit s (Instr.wf .commitSlotA) (s.commitSlot 0)
/-- COMMIT_SLOT_B. -/
def execCommitSlotB (s : State) : Host.Outcome State Fault Refusal := commit s (Instr.wf .commitSlotB) (s.commitSlot 1)
/-- COMMIT_PUSH: refused also for an address or a length that R68 refuses. -/
def execCommitPush (s : State) : Host.Outcome State Fault Refusal :=
  commit s (Instr.wf .commitPush) (s.harnCommand 3 none (
    let addr := s.fld .harnPushAddr HarnPushAddr.addr
    let len := s.fld .harnPushLen HarnPushLen.len
    if !s.treeAllowed ∨ addr % 4096 ≠ 0 ∨ len % 8 ≠ 0 then s.harnRefuse 3 none
    else (s.treeClear.harnBegin (.tree 3 1 false)).loaderStart addr len))

/-- Training results of the die-to-die links (R49, R564); a link that the report does not list trained whole. -/
def State.trainLink (s : State) (r : TrainReport) (l : Nat) : State :=
  let (rep, mods) := match r.links.find? (fun x => x.link = l) with
    | none => ([], 8)
    | some x => (x.repaired, x.modules)
  let s1 := (s.setFld (.devD2d l) DevD2d.modules (min 8 mods)).setFld (.devD2d l) DevD2d.repaired (min 255 rep.length)
  rep.foldl (fun t (m, x) => t.log { code := 0x4E04, unit := linkDie l, detail := det [(1, l), (1, m), (1, x)] }) s1

/-- Whether a lane fails training: its eye is narrower than 16 timing steps or lower than 30 voltage steps, or it does not
train (R246). -/
def eyeFails : Option (Nat × Nat) → Bool
  | none => true
  | some (width, height) => width < 16 || height < 30

/-- The lanes of the 68 of a channel that fail training, in ascending order: measured so, or marked (R246). -/
def State.failedLanes (s : State) (key : Nat) (eyes : List (Nat × Option (Nat × Nat))) : List Nat :=
  (List.range 68).filter (fun l => eyes.any (fun e => e.1 = l && eyeFails e.2) || (mget s.hbm.marks key []).contains l)

/-- Training result of an HBM channel (R246 to R249): spares, taken in ascending lane order, or retirement. No lane of it is
marked since this training. -/
def State.trainChannel (s : State) (r : TrainReport) (k c : Nat) : State :=
  let key := k * 32 + c
  let reg : Reg := .hbmChState k c
  let (eyes, ca) := match r.channels.find? (fun x => x.key = key) with
    | none => ([], [])
    | some x => (x.eyes, uniq x.failedCa)
  let lanes := s.failedLanes key eyes
  let st := s.fld reg HbmChState.state
  let t := ((((s.setReg (.hbmChEcc k c) 0).setFld reg HbmChState.marked 0).setFld reg HbmChState.sparesUsed 0).setFld reg
    HbmChState.caSpareUsed 0)
  let s0 := { t with hbm := { t.hbm with spares := mdel t.hbm.spares key, caSpare := mdel t.hbm.caSpare key } }
  if st = 3 then s0
  else if 4 < lanes.length ∨ 1 < ca.length ∨ st = 2 then
    (s0.setFld reg HbmChState.state 3).log { code := 0x4502, unit := k, detail := det [(1, k), (1, c)], whr := [(3, k), (4, c)] }
  else
    let s1 := ((s0.setFld reg HbmChState.state 0).setFld reg HbmChState.sparesUsed lanes.length).setFld reg HbmChState.caSpareUsed
      ca.length
    { s1 with hbm := { s1.hbm with
      trained := mset s1.hbm.trained k (mget s1.hbm.trained k 0 + 2 ^ c),
      spares := if lanes.isEmpty then s1.hbm.spares else mset s1.hbm.spares key lanes,
      caSpare := match ca with
        | [] => s1.hbm.caSpare
        | l :: _ => mset s1.hbm.caSpare key l } }

/-- The state of a stack after training (R247, R254). -/
def State.trainStack (s : State) (r : TrainReport) (k : Nat) : State :=
  let s1 := (List.range 32).foldl (fun t c => t.trainChannel r k c) { s with hbm := { s.hbm with trained := mset s.hbm.trained k 0 } }
  let m := mget s1.hbm.trained k 0
  let n := popcount 32 m
  ((s1.setFld (.hbmStackState k) HbmStackState.state (if n = 32 then 1 else if n = 0 then 3 else 2)).setFld (.hbmStackState k)
    HbmStackState.working n).setFld (.hbmStackState k) HbmStackState.chOk m

/-- Step 4: every stack trains and is filled with zeros, VALID. -/
def State.trainHbm (s : State) (r : TrainReport) : State :=
  let s1 := (List.range 8).foldl (fun t k => t.trainStack r k) s
  { s1 with hbm := { s1.hbm with mem := [], blk := [], scrubAt := [], laneFix := [], stitchFix := [] } }

/-- TREE_COMMIT_STEP_END. Step 1 cannot end while its image is still being read. -/
def execTreeCommitStepEnd (r : TrainReport) (s : State) : Host.Outcome State Fault Refusal :=
  commit s (Instr.wf (.treeCommitStepEnd r)) (match s.harn.op with
    | some (.tree src st auto) =>
      let next (t : State) : State := t.harnStep (.tree src (st + 1) auto)
      match st with
      | 1 =>
        if !s.harn.loader.todo.isEmpty then s
        else match s.treeCheck s.harn.loader.img with
          | some (code, d) => s.harnFail code d
          | none => next (s.modHarn (fun h => { h with staging := h.loader.img }))
      | 3 =>
        let t := (List.range 8).foldl (fun t l => t.trainLink r l) s
        if (List.range 8).any (fun l => t.fld (.devD2d l) DevD2d.modules < 8) then t.harnFail 0x4206 0 else next t
      | 4 =>
        let t := s.trainHbm r
        if regionsFit (fun k => t.fld (.hbmStackState k) HbmStackState.working) (grains t.harn.staging) then next t
        else t.harnFail 0x4207 0
      | 6 => if digestOk (grains s.harn.staging) then (s.goLive src).harnEnd 1 0 0 else s.harnFail 0x4208 0
      | _ => next s
    | _ => s)

/-- HARN_TIMEOUT: a commit step exceeds its maximum. -/
def execHarnTimeout (s : State) : Host.Outcome State Fault Refusal :=
  commit s (Instr.wf .harnTimeout) (match s.harn.op with
    | some (.tree _ _ _) | some (.strap _ _) => s.harnFail 0x4209 0
    | _ => s)

/-! ## ARM, DRAIN, RAISE_SEQ (R32, R51, R62) -/

/-- ARM: in Armed it changes nothing (assumption 50). -/
def execArm (s : State) : Host.Outcome State Fault Refusal :=
  commit s (Instr.wf .arm) (s.harnCommand 4 none (
    if s.harnBusy ∨ !(s.devState = 1 ∨ s.devState = 2) then s.harnRefuse 4 none else (s.setDevState 2).harnDone none))

/-- DRAIN takes effect (R62). -/
def State.drainNow (s : State) : State :=
  if s.partNums.any (fun p => s.partState p = 2) then s.harnRefuse 5 none else (s.setDevState 1).harnDone none
/-- DRAIN: recorded while a strap commit or a RELEASE runs (R64). -/
def execDrain (s : State) : Host.Outcome State Fault Refusal :=
  commit s (Instr.wf .drain) (s.harnCommand 5 none (
    if !(s.devState = 1 ∨ s.devState = 2) then s.harnRefuse 5 none
    else match s.harn.op with
      | some (.tree _ _ _) | some (.slotWrite _) => s.harnRefuse 5 none
      | some _ => s.modHarn (fun h => { h with queue := h.queue ++ [none] })
      | none => if s.harn.queue.isEmpty then s.drainNow else s.modHarn (fun h => { h with queue := h.queue ++ [none] })))
/-- DRAIN_TAKES_EFFECT. -/
def execDrainTakesEffect (s : State) : Host.Outcome State Fault Refusal :=
  commit s (Instr.wf .drainTakesEffect) (match s.harn.op, s.harn.queue with
    | none, none :: rest => (s.modHarn (fun h => { h with queue := rest })).drainNow
    | _, _ => s)

/-- RAISE_SEQ: to header word 5 of the committed image. -/
def execRaiseSeq (s : State) : Host.Outcome State Fault Refusal :=
  commit s (Instr.wf .raiseSeq) (s.harnCommand 8 none (
    if s.harnBusy ∨ s.devState ≠ 2 then s.harnRefuse 8 none
    else (s.setFld .harnFuse HarnFuse.minSequence (max (s.fld .harnFuse HarnFuse.minSequence)
      (min 64 (wordAt (grains s.harn.staging) 5)))).harnDone none))

/-! ## Slot writes and HARN_BOOT (R38 to R40) -/

/-- WRITE_SLOT_A and WRITE_SLOT_B; a firmware update that is being written excludes them (R451). -/
def State.writeSlot (s : State) (i : Nat) : State :=
  s.harnCommand (6 + i) none (
    if s.harnBusy ∨ !(s.devState = 1 ∨ s.devState = 2) ∨ s.fld .harnBoot HarnBoot.preferred = i
        ∨ s.pkg.fwUpdate.isSome then s.harnRefuse (6 + i) none
    else { s.harnBegin (.slotWrite i) with flash := s.flash.mark i false })
/-- WRITE_SLOT_A. -/
def execWriteSlotA (s : State) : Host.Outcome State Fault Refusal := commit s (Instr.wf .writeSlotA) (s.writeSlot 0)
/-- WRITE_SLOT_B. -/
def execWriteSlotB (s : State) : Host.Outcome State Fault Refusal := commit s (Instr.wf .writeSlotB) (s.writeSlot 1)
/-- SLOT_WRITE_DONE. -/
def execSlotWriteDone (s : State) : Host.Outcome State Fault Refusal :=
  commit s (Instr.wf .slotWriteDone) (match s.harn.op with
    | some (.slotWrite i) =>
      let f := if i = 0 then { s.flash with slotA := s.harn.staging } else { s.flash with slotB := s.harn.staging }
      { s with flash := f.mark i true }.harnEnd 1 0 0
    | _ => s)

/-- HARN_BOOT_WRITE. -/
def execHarnBootWrite (v : BitVec 64) (s : State) : Host.Outcome State Fault Refusal :=
  commit s (Instr.wf (.harnBootWrite v)) (
    if !s.pkg.booted ∨ s.devState = 3 then s
    else if !gfOk v then s.gfReject none 0x00100028
    else { s.setReg .harnBoot (gfPair (v.toNat % 4)) with
      flash := s.flash.update (fun c => { c with autoload := bitAt v.toNat 0, preferred := bitAt v.toNat 1 }) })

/-! ## Strap commits (R30, R33, R34, R55 to R58) -/

/-- The format of the sections, in directory order, and of word 0 of the signature block: the programs name different cores
(R29, R111, R280, R366). -/
def strapSectionsOk (img : List (BitVec 64)) : Bool :=
  let ws := grains img
  let cores := (programs img).map (fun e => wordAt (programHead img e) 0)
  (directory ws).all (fun e =>
    let sec := (ws.drop (entOff e)).take (entLen e)
    if entType e = 0x20 then programOk (programHead img e) (entLen e) && programPadOk sec
    else if entType e = 0x21 then syncUseOk sec
    else entLen e = 1 + 4 * wordAt sec 0)
    && (uniq cores).length = cores.length && wordAt ws (imgLen ws - 49) = 2 ^ 32 - 1

/-- Whether a region entry is 64 KiB aligned by its form and lies in the partition's spaces (R55, R366). -/
def State.regionOk (s : State) (p : Nat) (e : List Nat) : Bool :=
  let a := wordAt e 0
  let b := a + wordAt e 1
  let w := wordAt e 2
  let sp := bitsOf w 25 3
  a < 2 ^ 30 && between 1 (2 ^ 30 - 1) (wordAt e 1) && bitsOf w 0 10 ≤ bitsOf w 10 10 && w < 2 ^ 31 && wordAt e 3 = 0
    && (if sp = 0 then b ≤ 512 * 32 && (List.range 512).all (fun c => !(c * 32 < b && a < c * 32 + 32) || s.granted p c)
      else if sp = 1 then b ≤ 4 * 2048 && (List.range 4).all (fun d => !(d * 2048 < b && a < d * 2048 + 2048)
        || (min b (d * 2048 + 2048) - d * 2048) * 65536 ≤ s.llsSize d p)
      else sp = 2 && b * 65536 ≤ s.hbmSize p)

/-- The rows of R55 that step 1 checks, in their order: the first that fails. -/
def State.strapRow (s : State) (p : Nat) (img : List (BitVec 64)) : Option Nat :=
  let ws := grains img
  let heads := (programs img).map (programHead img)
  let entries := regionEntries (sec ws 0x22)
  let use := sec ws 0x21
  if wordAt ws 6 ≠ p then some 0x4214
  else if !heads.all (fun h => s.granted p (wordAt h 0) && !s.isRetired (wordAt h 0)) then some 0x4211
  else if !heads.all (fun h =>
      let env := programEnv h
      let d := dieOf (s.physOf (some (wordAt h 0)))
      envAt env 0 + envAt env 1 ≤ 1024 * s.fld (.coreCap (wordAt h 0)) CoreCap.spmKib && envAt env 2 + envAt env 3 ≤ s.llsSize d p
        && envAt env 4 + envAt env 5 ≤ s.hbmSize p && wordAt h 1 + wordAt h 2 ≤ envAt env 1) then some 0x4211
  else if !s.syncUseGranted p use then some 0x4211
  else if 256 < entries.length ∨ !entries.all (s.regionOk p) then some 0x4211
  else if s.segmented p ∧ !heads.all (fun h => (syncCores use).any (fun e =>
      wordAt e 0 = wordAt h 0 && bitAt (wordAt e 1) (s.tickTack p) && !bitAt (wordAt e 2) (s.tickTack p))) then some 0x4211
  else match mfind s.parts p with
    | none => some 0x4211
    | some q => match q.lastSeq with
      | none => none
      | some n => if wordAt ws 5 < n then some 0x4213 else none

/-- The verdict of step 1 (R25, R37, R55): kind, pairs, header, directory, sections, rows. -/
def State.strapCheck (s : State) (p : Nat) : Option Nat :=
  let l := s.harn.loader
  let ws := grains l.img
  if l.read.isEmpty ∨ imgKind ws ≠ 2 then some 0x4201
  else if l.bad then some 0x4202
  else if !(l.lengthOk 2 && headerOk 2 ws (l.len / 8) && directoryOk 2 ws (l.len / 8) && strapSectionsOk l.img) then some 0x4201
  else s.strapRow p l.img

/-- The key rule of R33: the digest to record, or none when the image is rejected. -/
def State.strapKey (s : State) (p : Nat) (img : List (BitVec 64)) : Option (List Byte) :=
  let ws := grains img
  let pin := (List.range 12).map (fun i => s.grantWord p (27 + i))
  let unsignedImg := ((sigBlock ws).drop 1).all (· = 0)
  if unsignedImg then (if pin.all (· = 0) then some (List.replicate 48 0) else none)
  else if !signatureOk img then none
  else if pin.all (· = 0) ∨ wordBytes pin = keyDigest ws then some (keyDigest ws)
  else none

/-- Registers that step 4 of a strap commit and RELEASE zero (R314, R351, R383, R423, R542). -/
def strapZeroed (p : Nat) : List Reg :=
  [.partRmtStat p, .partCollStat p, .partAtomSnap p, .partStchSeg p, .partStchSlip p, .partFabTxSnap p, .partFabRxSnap p, .partFabStat p,
   .partSlew p, .optSlewPart p, .partEthStat p, .partPwrStat p]
/-- Zero registers and the running counts behind them. -/
def State.zeroRegs (s : State) (l : List Reg) : State :=
  let s1 := l.foldl (fun t r => t.setReg r 0) s
  { s1 with live := s1.live.filter (fun x => !l.contains x.1) }

/-- Grid tacks, core tacks and arrivals of a partition take their values (R281): `use` is its SYNC_USE section, or none. -/
def State.loadSync (s : State) (p : Nat) (use : List Nat) : State :=
  let rng := (2 ^ s.gtCount p - 1) * 2 ^ s.gtFirst p
  let init := bitmapNat ((use.drop 66).take 32)
  let gt := s.gtacks.toNat
  let s1 := { s with gtacks := BitVec.ofNat 1024 (gt - (gt &&& rng) + (init &&& rng)),
                     cinches := s.cinches.filter (fun x => !s.ownsLine p x.1) }
  let s2 := s1.modPart p (fun q => { q with
    gtUsed := BitVec.ofNat 1024 (bitmapNat ((use.drop 2).take 32)), gtSettable := BitVec.ofNat 1024 (bitmapNat ((use.drop 34).take 32)),
    gtInit := BitVec.ofNat 1024 init,
    lines := (syncCinches use).map (fun e => ⟨bitsOf (wordAt e 0) 0 6, bitAt (wordAt e 0) 6, BitVec.ofNat 8 (bitsOf (wordAt e 0) 8 8), cinchCores e⟩) })
  (s2.coresOf p).foldl (fun t c =>
    let e := ((syncCores use).find? (fun e => wordAt e 0 = c)).getD []
    (t.setReg (.coreTack c) (word64 [(CoreTack.value, wordAt e 2), (CoreTack.initial, wordAt e 2)])).modCore c
      (fun k => { k with tacksUsed := BitVec.ofNat 32 (wordAt e 1) })) s2

/-- The region table takes the entries of a REGION_TABLE section (R367). -/
def State.loadRegions (s : State) (p : Nat) (ws : List Nat) : State :=
  let s1 := (List.range 256).foldl (fun t i => (List.range 4).foldl (fun u w => u.setReg (.partRegion p i w) (gfPair 0)) t) s
  (regionEntries ws).zipIdx.foldl (fun t (e, i) => (List.range 4).foldl (fun u w => u.setReg (.partRegion p i w) (gfPair (wordAt e w))) t) s1

/-- A core takes what its PROGRAM section gives (R70, R106, R83). -/
def State.loadCore (s : State) (h : List Nat) : State :=
  let c := wordAt h 0
  let env := programEnv h
  let es := (List.range 8).map (fun i => if wordAt h (3 + i) = 2 ^ 32 - 1 then none else some (wordAt h (3 + i)))
  s.modCore c (fun k => { k with
    taskSet := es.any Option.isSome, progEnv := env, entries := es, cycBase := s.pkg.cycles, run := none, halted := false,
    threads := (List.range 8).map (fun t => (t, ⟨.stopped, 0, [], env, 0⟩)) })

/-- Step 3 of a strap commit records the digests (R33, R56, R68). -/
def State.recordDigests (s : State) (p : Nat) (key : List Byte) : State :=
  (s.setRegs (.partStrapDigest p ·) (toWords 6 (sha384 (imageBytes s.harn.loader.img)))).setRegs (.partStrapKey p ·) (toWords 6 key)

/-- Step 4 of a strap commit (R56, R271, R281, R367, R523): the partition enters Armed. -/
def State.armPart (s : State) (p : Nat) : State :=
  let img := s.harn.loader.img
  let ws := grains img
  let s1 := (s.loadSync p (sec ws 0x21)).loadRegions p (sec ws 0x22)
  let s2 := (List.range 64).foldl (fun t c => t.rxZero p c) (s1.zeroRegs (.partIrqTag p :: strapZeroed p))
  let s3 := (((programs img).map (programHead img)).foldl State.loadCore s2).modPart p (fun q => { q with
    lastSeq := some (wordAt ws 5), bucket := tokenUnit * s2.heldBy p })
  ({ s3 with fab := { s3.fab with valiant := s3.fab.valiant.filter (fun x => x.1 / 8 ≠ p) } }).setPartState p 2

/-- Whether a strap commit may run (R58). -/
def State.strapAllowed (s : State) (p : Nat) : Bool :=
  s.devState = 2 && s.partState p = 1 && s.fld (.partState p) PartState.releasing = 0

/-- A strap commit starts (R56, R130). -/
def State.strapStart (s : State) (r : StrapReq) : State :=
  (((s.coresOf r.part).foldl State.zeroCoreRegs s).harnBegin (.strap r 1)).loaderStart r.addr r.len

/-- The partition of a VF's PART_STRAP_CTL; through the PF there is none (R68). -/
def viaPart : Path → Option Nat
  | .pf => none
  | .vf n => some (n - 1)
/-- Whether a command names the partition of the VF that it came through. -/
def viaNames (via : Path) (p : Nat) : Bool := viaPart via = none || viaPart via = some p
/-- A strap command through the PF or through a VF that is enabled and whose partition has a grant (R428). -/
def State.strapCommand (s : State) (via : Path) (p cmd : Nat) (eff : State) : State :=
  if !viaNames via p ∨ ((viaPart via).isSome ∧ ((mfind s.parts p).isNone ∨ !s.host.vfEnable)) then s else s.harnCommand cmd (viaPart via) eff

/-- STRAP_PUSH (R58, R64, R68). -/
def execStrapPush (via : Path) (p : Nat) (s : State) : Host.Outcome State Fault Refusal :=
  commit s (Instr.wf (.strapPush via p)) (s.strapCommand via p 9 (
    let (addr, len) := match via with
      | .pf => (s.fld .harnPushAddr HarnPushAddr.addr, s.fld .harnPushLen HarnPushLen.len)
      | .vf _ => (s.fld (.partStrapAddr p) PartStrapAddr.addr, s.fld (.partStrapLen p) PartStrapLen.len)
    let r : StrapReq := ⟨p, addr, len, via = .pf⟩
    let waits := match s.harn.op with
      | some (.tree _ _ _) | some (.slotWrite _) => false
      | _ => s.queuedStraps < 32
    if addr % 4096 ≠ 0 ∨ len % 8 ≠ 0 ∨ !s.strapAllowed p then s.harnRefuse 9 (viaPart via)
    else if !s.harnBusy then s.strapStart r
    else if waits then s.modHarn (fun h => { h with queue := h.queue ++ [some r] })
    else s.harnRefuse 9 (viaPart via)))

/-- STRAP_QUEUE_START: the conditions are checked again. -/
def execStrapQueueStart (s : State) : Host.Outcome State Fault Refusal :=
  commit s (Instr.wf .strapQueueStart) (match s.harn.op, s.harn.queue with
    | none, some r :: rest =>
      let s1 := s.modHarn (fun h => { h with queue := rest })
      if s1.strapAllowed r.part then s1.strapStart r else s1.harnRefuse 9 (if r.viaPf then none else some r.part)
    | _, _ => s)

/-- STRAP_COMMIT_STEP_END. A step cannot end while the image is still being read, unless a pair has failed. -/
def execStrapCommitStepEnd (s : State) : Host.Outcome State Fault Refusal :=
  commit s (Instr.wf .strapCommitStepEnd) (match s.harn.op with
    | some (.strap r st) =>
      let p := r.part
      let l := s.harn.loader
      let fail (code : Nat) : State := s.harnFail code 0
      if !l.todo.isEmpty ∧ !l.bad then s
      else match st with
        | 1 => match s.strapCheck p with
          | some code => fail code
          | none => ((s.modHarn (fun h => { h with loader := { h.loader with todo := h.loader.unread } })).harnStep (.strap r 2)).loaderAsk
        | 2 =>
          if l.bad then fail 0x4202 else s.sealPrograms.harnStep (.strap r 3)
        | 3 => match s.strapKey p l.img with
          | none => fail 0x4212
          | some key => (s.recordDigests p key).harnStep (.strap r 4)
        | _ => if !s.strapAllowed p then fail 0x420A else (s.armPart p).harnEnd 1 0 0
    | _ => s)

/-! ## UNLOAD and RELEASE (R53, R269, R281, R367, R446) -/

/-- Held flagged packets are discarded without being counted, and answered (R269, assumption 51). -/
def State.dropHeld (s : State) (p : Nat) : State :=
  match mfind s.parts p with
  | none => s
  | some q => q.held.foldl (fun t w => t.addAck w.pkt cNode) (s.modPart p (fun q => { q with held := [] }))

/-- The host accesses of a VF end: descriptors that wait for them go no further (R444, R446). -/
def State.endHost (s : State) (p : Nat) : State :=
  let mine (x : Nat × HostReq) : Bool := x.2.fn = p + 1 && !x.2.use.isQueue
  let s1 := { s with host := { s.host with reqs := s.host.reqs.filter (fun x => !mine x) } }
  (s.host.reqs.filter mine).foldl (fun t x => match x.2.use with
    | .dma c id _ | .dmaCheck c id _ => t.dropAct c id
    | _ => t) s1

/-- The strap of a partition is discarded: its cores stop as under STOP_ALL, tacks, arrivals and the region table are
cleared, its digests read 0 (R53, R109, R130, R281, R367, R448). -/
def State.discardStrap (s : State) (p : Nat) : State :=
  let s1 := (((s.stopPart p).endHost p).dropHeld p).loadSync p []
  let s2 := (s1.coresOf p).foldl State.zeroCoreRegs (s1.loadRegions p [])
  (s2.setRegs (.partStrapDigest p ·) (List.replicate 6 0)).setRegs (.partStrapKey p ·) (List.replicate 6 0)

/-- UNLOAD of an Armed partition: audited when a task set still runs (R282). -/
def State.unloadPart (s : State) (p : Nat) : State :=
  let running := (s.coresOf p).any (fun c => match mfind s.cores c with
    | none => false
    | some k => k.taskSet)
  ((if running then s.auditPart p else s).discardStrap p).setPartState p 1

/-- UNLOAD: refused for a partition that is not Armed (assumption 50). -/
def execUnload (via : Path) (p : Nat) (s : State) : Host.Outcome State Fault Refusal :=
  commit s (Instr.wf (.unload via p)) (s.strapCommand via p 10 (
    if s.harnBusy ∨ s.partState p ≠ 2 ∨ !(s.devState = 1 ∨ s.devState = 2) ∨ s.fld (.partState p) PartState.releasing = 1 then
      s.harnRefuse 10 (viaPart via)
    else (s.unloadPart p).harnDone (viaPart via)))

/-- PART_STATE.releasing changes, with VF vector 2 (R435). -/
def State.setReleasing (s : State) (p v : Nat) : State := (s.setFld (.partState p) PartState.releasing v).partIrq p PartIrqStat.state

/-- RELEASE of a granted partition: its first step starts at once; its queues are disabled and its host accesses end. -/
def execRelease (p : Nat) (s : State) : Host.Outcome State Fault Refusal :=
  commit s (Instr.wf (.release p)) (s.harnCommand 11 none (
    if s.harnBusy ∨ (mfind s.parts p).isNone ∨ !(s.devState = 1 ∨ s.devState = 2) then s.harnRefuse 11 none
    else
      let s1 := (s.harnBegin (.release p 1)).setReleasing p 1
      (((List.range (s.ethCount p)).foldl (fun t i => t.setFld (.partEthqCtl p i) PartEthqCtl.enable 0) s1).dropQueues p).discardStrap p))

/-- Whether an HBM byte of the model's memory lies in a partition's region, in a channel that still works (R230, R250). -/
def State.inRegion (s : State) (p a : Nat) : Bool :=
  let ch := a / 2 ^ 31
  let k := ch / 32
  match s.regionOf p with
  | none => false
  | some i =>
    let r : Reg := .hbmRegion i
    let ss := maskList 8 (s.fld r HbmRegion.stacks)
    let ws := maskList 32 (mget s.hbm.trained k 0)
    ss.contains k && ws.contains (ch % 32) && !s.chLost ch
      && (let m := blocksOn (s.fld r HbmRegion.size) ss.length (ss.findIdx (· = k))
          let j := ws.findIdx (· = ch % 32)
          s.fld r HbmRegion.base ≤ a % 2 ^ 31 / 4096 && a % 2 ^ 31 / 4096 < s.fld r HbmRegion.base + (m - j + ws.length - 1) / ws.length)

/-- Step 2 of RELEASE: lines invalidated, scratchpads, accumulators and ways zero and VALID (R213, R216). -/
def State.zeroPartMem (s : State) (p : Nat) : State :=
  let s1 := (s.coresOf p).foldl (fun t c => (t.modCore c (fun k => { k with spm := [], blk := [], awl := none })).zeroCoreRegs c) s
  { s1 with lls := s1.lls.filter (fun x => x.1 % 32 ≠ p) }
/-- Step 3 of RELEASE: the HBM region zero and VALID. -/
def State.zeroRegion (s : State) (p : Nat) : State :=
  { s with hbm := { s.hbm with mem := s.hbm.mem.filter (fun x => !s.inRegion p x.1), blk := s.hbm.blk.filter (fun x => !s.inRegion p (x.1 * 4096)) } }

/-- The step, replay, digest and awl registers of a partition (R511). -/
def stepRegs (p : Nat) : List Reg :=
  [.partEvtHead p, .partEvtRead p, .partEvtLost p, .partStepStatus p, .partStepId p, .partStepFold p, .partReplaySrc p, .partReplayDst p,
   .partReplayLen p, .partReplayStatus p, .partWdigStat p, .partWdigCtl p, .partAwlCtl p, .partAwlWin p]
    ++ (List.range 16).flatMap (fun i => [.partStepRange p i 0, .partStepRange p i 1])
    ++ (List.range 4).flatMap (fun j => [.partWdigMine p j, .partWdigPeer p j])

/-- Step 4 of RELEASE (R271, R303, R314, R351, R367, R383, R423, R492, R498, R511, R542). -/
def State.releaseEnd (s : State) (p : Nat) : State :=
  let s1 := (s.loadSync p []).loadRegions p []
  let s2 := (List.range 64).foldl (fun t c => t.rxZero p c) ((s1.zeroRegs (.partRmtCtl p :: .partStchCtl p :: strapZeroed p)).zeroRegs (stepRegs p))
  let s3 := ((s2.modPart p (fun q => { q with view := [], replayNext := 0, awlEnd := 0 })).modStitch (fun t => { t with
    unhold := t.unhold.filter (· ≠ p), finished := t.finished.filter (· ≠ p) })).setFld (.partState p) PartState.fenceCode 0
  (((s3.setReleasing p 0).setPartState p 1).log { code := 0x4A01, part := some p }).harnEnd 1 0 0

/-- RELEASE_STEP_END. Step 1 cannot end while a descriptor of the partition is in progress (R109). -/
def execReleaseStepEnd (s : State) : Host.Outcome State Fault Refusal :=
  commit s (Instr.wf .releaseStepEnd) (match s.harn.op with
    | some (.release p st) =>
      match st with
      | 1 => if (s.coresOf p).any (fun c => match mfind s.cores c with
          | none => false
          | some k => !k.active.isEmpty) then s else s.harnStep (.release p 2)
      | 2 => (s.zeroPartMem p).harnStep (.release p 3)
      | 3 => (s.zeroRegion p).harnStep (.release p 4)
      | _ => s.releaseEnd p
    | _ => s)

end Sys2Proof.Machine
end

