-- ==== Sys2Proof/Machine/HostPort.lean ====
section
/-! DEFINITION. The host port (R426 to R436, R444, R445): its functions, completions of upstream reads, function-level resets, VF Enable, hot
reset and link up, and the MSI-X mask. -/
namespace Sys2Proof.Machine

/-! ## Functions (R426, R427) -/

/-- What the configuration space of a function says: identity, class code, the size of its only BAR (BAR0, 64-bit,
non-prefetchable), MSI-X vectors, and its capabilities. -/
structure PciFunction where
  vendor : BitVec 16
  device : Nat
  revision : Nat
  classCode : Nat
  barSize : Nat
  vectors : Nat
  aer : Bool
  ari : Bool
  flr : Bool
  doe : Bool
  sriov : Bool
  deriving DecidableEq, Repr
/-- Function `fn`: the PF is 0, VF n is n (R426, R427). AER, ARI and SR-IOV are read as the PF's. -/
def pciFunction (fn : Nat) : PciFunction :=
  { vendor := Config.pciVendor, device := if fn = 0 then 0x5264 else 0x5265, revision := 0xA1, classCode := 0x120000,
    barSize := if fn = 0 then 0x10000000 else 0x400000, vectors := if fn = 0 then 16 else 64,
    aer := true, ari := true, flr := true, doe := true, sriov := fn = 0 }
/-- SR-IOV of the PF (R426): TotalVFs, InitialVFs, First VF Offset, VF Stride, system page size in bytes. -/
def sriovValues : List Nat := [32, 32, 1, 1, 4096]
/-- Max payload and max read request in bytes, tag bits, completion timeout in ms (R426). -/
def pcieLimits : List Nat := [512, 4096, 10, 10]
/-- The function number of VF `n` from SR-IOV's offset and stride: VF n belongs to partition n - 1 (R427). -/
def vfFunction (n : Nat) : Nat := sriovValues.getD 2 0 + (n - 1) * sriovValues.getD 3 0

/-! ## Completions (R434) -/

/-- The cause that a failed host access raises in its descriptor: CRC_BLOCK for poison (4), else NODE_UNREACHABLE. -/
def hostCause (cause : Nat) : Nat := if cause = 4 then cCrc else cNode

/-- A gathering descriptor has one answer more; `f` takes its data. -/
def State.gathered (s : State) (c id : Nat) (us : List Upset) (f : Act → Act) : State :=
  (s.modAct c id (fun a => { f a with left := a.left - 1 })).gatherNext c id us

/-- An upstream read has failed: HOST_ERR, and the fault of the descriptor, the end of the operation or the stop of the queue
(R434). -/
def State.hostFail (s : State) (q : HostReq) (cause : Nat) : State :=
  match q.use with
  | .loader => s.loaderLost q.fn cause q.addr
  | .dma c id _ | .dmaCheck c id _ =>
    (((s.hostErr q.fn cause q.addr).modAct c id (fun a => { a with left := a.left - 1 })).failAct c id (hostCause cause))
  | .txEntry p i | .txFrame p i _ | .rxEntry p i => s.queueHostFail p i cause q.addr

/-- The data of an upstream read (R100, R222, R433, R440, R441). -/
def State.hostData (s : State) (q : HostReq) (data : List Byte) (us : List Upset) : State :=
  match q.use with
  | .loader => s.loaderData (toWords (data.length / 8) data)
  | .dma c id pos => s.gathered c id us (fun a => { a with buf := memWrite a.buf pos data })
  | .dmaCheck c id blk =>
    let w := leNat data
    s.gathered c id us (fun a => { a with chks := mset a.chks (hostKey blk) ⟨BitVec.ofNat 32 w, bitAt w 32⟩ })
  | .txEntry p i => s.txEntryRead p i (leNat data)
  | .txFrame p i off => s.txFrameRead p i off data
  | .rxEntry p i => s.rxEntryRead p i (leNat data)

/-- HOST_COMPLETION: a completion without error carries the bytes that were asked for; any other tag is nobody's. -/
def execHostCompletion (tag : Nat) (st : HostStatus) (data : List (BitVec 8)) (s : State) : Host.Outcome State Fault Refusal :=
  commit s (Instr.wf (.hostCompletion tag st data)) (match mfind s.host.reqs tag with
    | none => s
    | some q =>
      let s1 := { s with host := { s.host with reqs := mdel s.host.reqs tag } }
      match st with
      | .ok u => if data.length = q.len then s1.hostData q data u else s
      | .unsupported => s1.hostFail q 1
      | .aborted => s1.hostFail q 2
      | .poisoned => s1.hostFail q 4)

/-- HOST_COMPLETION_TIMEOUT. -/
def execHostCompletionTimeout (tag : Nat) (s : State) : Host.Outcome State Fault Refusal :=
  commit s (Instr.wf (.hostCompletionTimeout tag)) (match mfind s.host.reqs tag with
    | none => s
    | some q => { s with host := { s.host with reqs := mdel s.host.reqs tag } }.hostFail q 3)

/-! ## Function-level resets (R444, R445) -/

/-- The MSI-X state of a function returns to its reset. -/
def State.clearMsix (s : State) (fn : Nat) : State :=
  { s with host := { s.host with
      msixTab := s.host.msixTab.filter (fun x => x.1 / 128 ≠ fn), msixPend := s.host.msixPend.filter (fun x => x / 64 ≠ fn) } }

/-- The host registers of a partition that a VF FLR zeroes (step 4). -/
def flrRegs (p : Nat) : List Reg :=
  [.partHchkBase p, .partHchkSize p, .partHchkArray p, .partStrapAddr p, .partStrapLen p, .partIrqStat p]
    ++ (List.range 256).flatMap (fun i => [.partEthqCtl p i, .partEthqTxBase p i, .partEthqTxTail p i, .partEthqTxHead p i,
      .partEthqRxBase p i, .partEthqRxTail p i, .partEthqRxHead p i, .partEthqStat p i])

/-- A VF FLR of partition `p` (R444). -/
def State.flr (s : State) (p : Nat) : State :=
  let s1 := ((s.endHost p).clearMsix (p + 1))
  let s2 := if s1.partState p = 2 ∧ s1.fld (.partState p) PartState.releasing = 0 then s1.unloadPart p else s1
  let s3 := match s2.harn.op with
    | some (.strap r _) => if r.part = p then s2.harnFail 0x420A 0 else s2
    | _ => s2
  let s4 := s3.modHarn (fun h => { h with queue := h.queue.filter (fun x => match x with
    | some r => r.part ≠ p
    | none => true) })
  let s5 := (s4.dropQueues p).zeroRegs (flrRegs p)
  let mine (q : Nat) : Bool := s5.ethFirst p ≤ q && q < s5.ethFirst p + s5.ethCount p
  { s5 with
    eth := { s5.eth with gapRuns := s5.eth.gapRuns.filter (fun q => !mine q), deferred := s5.eth.deferred.filter (fun q => !mine q) }
    host := { s5.host with reqs := s5.host.reqs.filter (fun x => x.2.fn ≠ p + 1) } }.log {
    code := 0x4A02, part := some p }

/-- VF_FLR. -/
def execVfFlr (n : Nat) (s : State) : Host.Outcome State Fault Refusal := commit s (Instr.wf (.vfFlr n)) (s.flr (n - 1))

/-- What clearing VF Enable and a PF FLR do to every VF. -/
def State.flrAll (s : State) : State := (List.range 32).foldl State.flr s

/-- A PF FLR (R445): a tree commit that still copies from the host fails. -/
def State.pfReset (s : State) : State :=
  let s1 := match s.harn.op with
    | some (.tree 3 1 _) => if s.harn.loader.todo.isEmpty then s else s.harnFail 0x420A 0
    | _ => s
  (((s1.setReg .harnPushAddr 0).setReg .harnPushLen 0).clearMsix 0).flrAll

/-- PF_FLR. -/
def execPfFlr (s : State) : Host.Outcome State Fault Refusal := commit s (Instr.wf .pfFlr) s.pfReset

/-- VF_ENABLE_CLEAR: the VFs are gone until the host sets VF Enable again (assumption 52). -/
def execVfEnableClear (s : State) : Host.Outcome State Fault Refusal :=
  commit s (Instr.wf .vfEnableClear) (
    let t := s.flrAll
    { t with host := { t.host with vfEnable := false } })

/-- The PCIe link goes down. -/
def State.linkDrop (s : State) : State := { s with host := { s.host with linkUp := false, linkWidth := 0, linkGen := 0 } }
/-- PCIE_HOT_RESET: acts as a PF FLR (R445, R551). -/
def execPcieHotReset (s : State) : Host.Outcome State Fault Refusal :=
  commit s (Instr.wf .pcieHotReset) s.pfReset.linkDrop

/-- PCIE_LINK_UP (R426, R555): the link trains to a width of 1 to 16 lanes and a generation of 1 to 6 that depend on the host and
are open; the host enumerates, and Bus Master Enable and VF Enable are set from then on (assumption 52). -/
def execPcieLinkUp (s : State) : Host.Outcome State Fault Refusal :=
  commit s (Instr.wf .pcieLinkUp) (
    let (w, s1) := s.drawWord
    if !s.pkg.booted ∨ s.tapHolds then s else { s1 with host := { s1.host with
      linkUp := true, linkWidth := 2 ^ (w.toNat % 5), linkGen := w.toNat / 8 % 6 + 1, vfEnable := true, busMaster := BitVec.allOnes 33 } })

/-! ## MSI-X (R436) -/

/-- Function number of a path (R427). -/
def pathFn : Path → Nat
  | .pf => 0
  | .vf n => n

/-- MSIX_UNMASK: a message held pending is sent. -/
def execMsixUnmask (via : Path) (vec : Nat) (s : State) : Host.Outcome State Fault Refusal :=
  commit s via.wf (
    let fn := pathFn via
    let k := msixKey fn vec
    let w := mget s.host.msixTab k (BitVec.ofNat 64 (2 ^ 32))
    if (pciFunction fn).vectors ≤ vec then s
    else
      let s1 := { s with host := { s.host with msixTab := mset s.host.msixTab k (w &&& ~~~ BitVec.ofNat 64 (2 ^ 32)) } }
      if s.host.msixPend.contains (fn * 64 + vec) then
        { s1 with host := { s1.host with msixPend := s1.host.msixPend.filter (· ≠ fn * 64 + vec) } }.emit (.msix fn vec)
      else s1)

end Sys2Proof.Machine
end

