-- ==== Sys2Proof/Machine/Mgmt.lean ====
section
/-! DEFINITION. Attestation and management (R447 to R451, R507, R558, R560): SPDM, MCTP, PLDM and the check of a boot firmware
copy. What the DMTF standards fix and spec/ does not is free (assumption 13). -/
namespace Sys2Proof.Machine

/-! ## Boot firmware (R558, R559) -/

/-- The image of a copy: as many pairs as header word 2 says; empty when the flash holds fewer or the limit is passed. -/
def fwImage (copy : List (BitVec 64)) : List (BitVec 64) :=
  let n := imgLen (grains copy)
  if n ≤ imgMax 3 ∧ n ≤ copy.length then copy.take n else []
/-- The firmware sequence, header word 5. -/
def fwSeq (img : List (BitVec 64)) : Nat := wordAt (grains img) 5
/-- Whether a firmware image passes its check. -/
def State.fwOk (s : State) (img : List (BitVec 64)) : Bool :=
  let ws := grains img
  img.all gfOk && headerOk 3 ws img.length && wordAt ws 3 = 1 && directoryOk 3 ws img.length
    && wordAt (sigBlock ws) 0 = 0xFFFFFFFE && s.pkg.fwKey = leNat (keyDigest ws) && signatureOk img
    && fwSeq img ≤ 255 && s.fld .devFw DevFw.fwMin ≤ fwSeq img

/-! ## Messages (R450) -/

/-- Cut bytes into `n` MCTP baseline transmission units of at most 64 bytes (R450). -/
def mctpUnits : Nat → List Byte → List (List Byte)
  | 0, _ => []
  | n + 1, bs => bs.take 64 :: mctpUnits n (bs.drop 64)
/-- The SMBus address: 0x4C plus the straps sampled at boot (R450, R583). -/
def State.smbAddr (s : State) : Nat := 0x4C + s.fld .devStrap DevStrap.smbAddr
/-- Send a message over MCTP on the management bus, from the endpoint ID that the bus owner has assigned (R450). -/
def State.mctpSend (s : State) (bs : List Byte) : State :=
  s.emit (.mctp s.smbAddr s.pkg.eid (mctpUnits ((bs.length + 63) / 64) bs))

/-! ## SPDM (R447 to R449) -/

/-- Whether requests over a transport reach the responder (R447, R450). -/
def State.spdmServed (s : State) (tr : Transport) : Bool :=
  match tr with
  | .mctp => s.pkg.standby
  | .pfDoe => s.pkg.booted
  | .vfDoe _ => s.pkg.booted && s.host.vfEnable
/-- The number of a transport. -/
def transportKey : Transport → Nat
  | .mctp => 0
  | .pfDoe => 1
  | .vfDoe n => 1 + n
/-- Answer over a transport: DMTF bytes `n`, then the content. -/
def State.spdmSend (s : State) (tr : Transport) (n : Nat) (content : List Byte) : State :=
  if tr = .mctp then s.mctpSend (Config.dmtfBytes n ++ content) else s.emit (.message (Config.dmtfBytes n ++ content))
/-- How far the requester of a transport has come. -/
def State.spdmStage (s : State) (tr : Transport) : Nat := mget s.pkg.spdm (transportKey tr) 0
/-- Answer an SPDM request that needs stage `need` and leads to stage `next`; one that comes out of order is answered by ERROR,
UnexpectedRequest (PRESUMED: DSP0274; assumption 13). -/
def State.spdm (s : State) (tr : Transport) (need next n : Nat) (content : List Byte) : State :=
  if !s.spdmServed tr then s
  else if s.spdmStage tr < need then s.spdmSend tr 14 [4]
  else { s with pkg := { s.pkg with spdm := mset s.pkg.spdm (transportKey tr) next } }.spdmSend tr n content
/-- The content of an answer signed by the device identity key. -/
def spdmSigned (n : Nat) (content : List Byte) : List Byte := content ++ Config.deviceSign (Config.dmtfBytes n ++ content)

/-- The version entry of SPDM 1.2 (R447; its coding PRESUMED: DSP0274). -/
def spdmVersion : List Byte := leBytes 2 0x1200
/-- The flags of CAPABILITIES (R447; their places PRESUMED: DSP0274): certificates [1], CHALLENGE [2], measurements with
signatures [4:3] = 2; no sessions, no key exchange, no mutual authentication, no certificate provisioning. -/
def spdmFlags : List Byte := leBytes 4 0x16
/-- The selections of ALGORITHMS (R447; their coding PRESUMED: DSP0274): measurement hash SHA-384, ECDSA P-384, base hash
SHA-384. -/
def spdmAlgorithms : List Byte := leBytes 4 4 ++ leBytes 4 0x80 ++ leBytes 4 2

/-- Six registers as 48 bytes. -/
def State.regs48 (s : State) (f : Nat → Reg) : List Byte := (List.range 6).flatMap (fun i => leBytes 8 (s.reg (f i)).toNat)
/-- A digest of the partition's strap: of a strap commit that has not completed step 4 its predecessor's, which is none, for a
strap commit starts in Framed (R58, R448, R449). -/
def State.strapMeasure (s : State) (p : Nat) (f : Nat → Reg) : List Byte :=
  match s.harn.op with
  | some (.strap r 4) => if r.part = p then List.replicate 48 0 else s.regs48 f
  | _ => s.regs48 f
/-- The three measurements of a partition, from index `i` on; none without a grant. -/
def State.partMeasures (s : State) (i p : Nat) : List (Nat × List Byte) :=
  match mfind s.parts p with
  | none => []
  | some q => [(i, sha384 (q.grant.flatMap (fun w => leBytes 4 w.toNat))), (i + 1, s.strapMeasure p (.partStrapDigest p ·)),
      (i + 2, s.strapMeasure p (.partStrapKey p ·))]
/-- The measurements that a requester sees (R448). -/
def State.measures (s : State) (tr : Transport) : List (Nat × List Byte) :=
  [(1, s.fwDigest), (2, s.treeDigest),
   (3, sha384 (leBytes 8 (s.reg .harnFuse).toNat ++ (List.range 4).flatMap (fun k => leBytes 48
      (if bitAt (s.fld .harnFuse HarnFuse.keyPresent) k then s.pkg.keySlots.getD k 0 else 0)))),
   (4, leBytes 8 (s.reg .stchBootId).toNat)]
    ++ (match tr with
      | .vfDoe n => s.partMeasures 0x10 (n - 1)
      | _ => (List.range 32).flatMap (fun p => s.partMeasures (0x20 + 3 * p) p))
/-- Measurement blocks: index, length, value. -/
def measureBytes (l : List (Nat × List Byte)) : List Byte := l.flatMap (fun (i, v) => leBytes 1 i ++ leBytes 2 v.length ++ v)
/-- A 32-byte nonce. -/
def nonceBytes (n : BitVec 256) : List Byte := leBytes 32 n.toNat

/-- GET_VERSION. -/
def execGetVersion (tr : Transport) (s : State) : Host.Outcome State Fault Refusal :=
  commit s (Instr.wf (.getVersion tr)) (s.spdm tr 0 1 0 spdmVersion)
/-- GET_CAPABILITIES. -/
def execGetCapabilities (tr : Transport) (s : State) : Host.Outcome State Fault Refusal :=
  commit s (Instr.wf (.getCapabilities tr)) (s.spdm tr 1 (max 2 (s.spdmStage tr)) 1 spdmFlags)
/-- NEGOTIATE_ALGORITHMS. -/
def execNegotiateAlgorithms (tr : Transport) (s : State) : Host.Outcome State Fault Refusal :=
  commit s (Instr.wf (.negotiateAlgorithms tr)) (s.spdm tr 2 3 2 spdmAlgorithms)
/-- GET_DIGESTS: the SHA-384 of the chain in slot 0. -/
def execGetDigests (tr : Transport) (s : State) : Host.Outcome State Fault Refusal :=
  commit s (Instr.wf (.getDigests tr)) (s.spdm tr 3 3 3 (sha384 Config.certChain))
/-- GET_CERTIFICATE: the chain in slot 0. -/
def execGetCertificate (tr : Transport) (s : State) : Host.Outcome State Fault Refusal :=
  commit s (Instr.wf (.getCertificate tr)) (s.spdm tr 3 3 4 Config.certChain)
/-- CHALLENGE: the chain's digest and the nonce, signed. -/
def execChallenge (tr : Transport) (nonce : BitVec 256) (s : State) : Host.Outcome State Fault Refusal :=
  commit s tr.wf (s.spdm tr 3 3 5 (spdmSigned 5 (sha384 Config.certChain ++ nonceBytes nonce)))
/-- GET_MEASUREMENTS: every measurement at one instant, and the nonce, signed. -/
def execGetMeasurements (tr : Transport) (nonce : BitVec 256) (s : State) : Host.Outcome State Fault Refusal :=
  commit s tr.wf (s.spdm tr 3 3 6 (spdmSigned 6 (measureBytes (s.measures tr) ++ nonceBytes nonce)))

/-! ## MCTP and PLDM (R450, R451) -/

/-- A message of the management bus, which answers whenever the standby domain is powered (R450). -/
def State.mgmt (s : State) (n : Nat) (content : List Byte) : State :=
  if s.pkg.standby then s.mctpSend (Config.dmtfBytes n ++ content) else s

/-- SET_ENDPOINT_ID. -/
def execSetEndpointId (eid : BitVec 8) (s : State) : Host.Outcome State Fault Refusal :=
  commit s true (if s.pkg.standby then { s with pkg := { s.pkg with eid := eid.toNat } }.mgmt 7 [] else s)
/-- The PLDM types 0, 2 and 5, as the eight bytes of a bit map (R451; its coding PRESUMED: DSP0240). -/
def pldmTypes : List Byte := leBytes 8 (2 ^ 0 + 2 ^ 2 + 2 ^ 5)
/-- PLDM_DISCOVERY: the types that PLDM is supported for. -/
def execPldmDiscovery (s : State) : Host.Outcome State Fault Refusal := commit s true (s.mgmt 8 pldmTypes)

/-- The value of a PLDM sensor (R451): by the model's numbers 0 to 22 the temperatures of the domains of R528, which are powered
while the main rails are good, then VIN, input current, input power, power cap and device state (assumption 14); none when it
is unavailable (R450). -/
def State.pldmSensor (s : State) (n : Nat) : Option Nat :=
  if n < 23 then (if s.pkg.rails then (s.domainTemp n).map (fun x => unsigned 16 x.1) else none)
  else if n = 23 then some (s.fld .pwrNow PwrNow.vin)
  else if n = 24 then some (s.fld .pwrNow PwrNow.iin)
  else if n = 25 then some (s.fld .pwrNow PwrNow.pin)
  else if n = 26 then some (s.fld .pwrState PwrState.cap)
  else if n = 27 then some s.devState
  else none
/-- PLDM_SENSOR_READ. -/
def execPldmSensorRead (sensor : Nat) (s : State) : Host.Outcome State Fault Refusal :=
  commit s true (match s.pldmSensor sensor with
    | some v => s.mgmt 9 (leBytes 4 v)
    | none => s.mgmt 10 [])

/-- PLDM completion codes ERROR_INVALID_LENGTH and ERROR_NOT_READY (PRESUMED: DSP0240). -/
def pldmInvalidLength : Byte := 3
def pldmNotReady : Byte := 4
/-- The sequence an update must exceed: that of the copy that booted, if one has (R560). -/
def State.bootedSeq (s : State) : Option Nat :=
  if !s.fwBooted then none
  else some (s.fld .devFw (if s.fld .devBoot DevBoot.fwCopy = 1 then DevFw.seq1 else DevFw.seq0))
/-- Put a firmware copy into the flash. -/
def Flash.setFw (f : Flash) (i : Nat) (img : List (BitVec 64)) : Flash := if i = 1 then { f with fw1 := img } else { f with fw0 := img }
/-- PLDM_FIRMWARE_UPDATE (R451, R560): while the copy is written it fails its check. -/
def execPldmFirmwareUpdate (bytes : Nat) (img : List (BitVec 64)) (s : State) : Host.Outcome State Fault Refusal :=
  commit s true (
    let slotBusy : Bool := match s.harn.op with
      | some (.slotWrite _) => true
      | _ => false
    let newer : Bool := match s.bootedSeq with
      | none => true
      | some q => decide (q < fwSeq img)
    if !s.pkg.standby then s
    else if 2097152 < bytes then s.mgmt 11 [pldmInvalidLength]
    else if slotBusy ∨ s.pkg.fwUpdate.isSome then s.mgmt 11 [pldmNotReady]
    else if s.fwOk img ∧ bytes = 8 * img.length ∧ newer then
      let i := 1 - s.fld .devBoot DevBoot.fwCopy
      { s with flash := s.flash.setFw i [], pkg := { s.pkg with fwUpdate := some (i, img) } }.mgmt 12 []
    else s.mgmt 13 [])
/-- FIRMWARE_COPY_WRITTEN. -/
def execFirmwareCopyWritten (s : State) : Host.Outcome State Fault Refusal :=
  commit s true (match s.pkg.fwUpdate with
    | none => s
    | some (i, img) => { s with flash := s.flash.setFw i img, pkg := { s.pkg with fwUpdate := none } })

/-- PLATFORM_EVENT_MESSAGE: the signature in slot `g` is delivered (R507). -/
def execPlatformEventMessage (g : Nat) (s : State) : Host.Outcome State Fault Refusal :=
  commit s (decide (g < 64)) { s with err := { s.err with undelivered := s.err.undelivered.filter (· ≠ g) } }

end Sys2Proof.Machine
end

