-- ==== Sys2Proof/Machine/ErrorPath.lean ====
section
/-! DEFINITION. Errors, replay and recovery (R486 to R504): the event ring and the views, the capture registers, awl kernels,
steps, the replay engine and replica digests. -/
namespace Sys2Proof.Machine

/-! ## The event ring (R488 to R493) -/

/-- The next entry that the ring writes, with the error path without it: the intake first, then the overflow entries by
class (assumption 60). -/
def State.nextEntry (s : State) : Option (Rec × Err) :=
  match s.err.intake, s.err.overflow with
  | r :: t, _ => some (r, { s.err with intake := t })
  | [], (_, r) :: t => some (r, { s.err with overflow := t })
  | [], [] => none

/-- Write a ring record of eight words (R491). -/
def State.ringWrite (s : State) (ws : List (BitVec 64)) : State :=
  let h := (s.reg .errRingHead).toNat
  let s1 := if 4096 ≤ h - (s.reg .errRingRead).toNat then s.satFld .errEventsLostOldest ErrEventsLostOldest.lost 1 else s
  ((s1.setRegs (.errRing (h % 4096)) ws).wrapFld .errRingHead ErrRingHead.head 1).devIrq DevIrqStat.event

/-- Write a record into the event view of a partition (R492). -/
def State.viewWrite (s : State) (p : Nat) (bs : List Byte) : State :=
  let h := (s.reg (.partEvtHead p)).toNat
  let s1 := if 1024 ≤ h - (s.reg (.partEvtRead p)).toNat then s.satFld (.partEvtLost p) PartEvtLost.lost 1 else s
  ((s1.modPart p (fun q => { q with view := mset q.view (h % 1024) bs })).wrapFld (.partEvtHead p) PartEvtHead.count 1).partIrq p
    PartIrqStat.event

/-- The views that a record enters (R492). -/
def State.viewRecord (s : State) (r : Rec) : State :=
  if r.code / 4096 = 3 then
    s.partNums.foldl (fun t p => t.viewWrite p { r with detail := List.replicate 20 0 }.bytes) s
  else if r.part < 32 ∧ (mfind s.parts r.part).isSome ∧ bitAt r.flags 3 = false then s.viewWrite r.part r.bytes
  else s

/-- An error in the error path: ERR_PATH, and then the event (R488). -/
def State.pathError (s : State) (code : Nat) : State :=
  ((s.setFld .errPath ErrPath.code code).setFld .errPath ErrPath.valid 1).log { code := code }

/-- EVENT_RECORD_WRITE: a record whose seal or store fails leaves open contents in its slot. -/
def execEventRecordWrite (sealOk pathOk : Bool) (s : State) : Host.Outcome State Fault Refusal :=
  commit s true (match s.nextEntry with
    | none => s
    | some (r, e) =>
      let s1 := { s with err := e }
      if sealOk ∧ pathOk then (s1.ringWrite (toWords 8 r.bytes)).viewRecord r
      else
        let s2 := ({ s1 with freeCtr := s1.freeCtr + 8 }.ringWrite ((List.range 8).map (fun i => Config.freeWord (s.freeCtr + i)))).viewRecord r
        let s3 := if sealOk then s2 else s2.pathError 0x3C01
        if pathOk then s3 else s3.pathError 0x3C02)

/-- ERR_CAP_CTL_WRITE. -/
def execErrCapCtlWrite (b : Nat) (v : BitVec 64) (s : State) : Host.Outcome State Fault Refusal :=
  commit s (decide (b < 20)) (s.pfWrite (
    if ErrCapCtl.firstValid.get v = 1 then
      ((s.setReg (.errCapCtl b) 0).setRegs (.errFirst b) (List.replicate 8 0)).setRegs (.errNext b) (List.replicate 8 0)
    else s))

/-! ## Awl kernels (R494 to R497) -/

/-- Offset of the 256 KiB window of a run: PART_AWL_WIN, or 0 in a scheduled run (assumption 61). -/
def State.awlWindow (s : State) (c : Nat) (r : AwlRun) : Nat :=
  if r.declared then (match s.ownerOf c with
    | none => 0
    | some p => s.fld (.partAwlWin p) PartAwlWin.offset)
  else 0
/-- A run leaves a core: accumulators zero, the window undefined in OPEN blocks (R496). -/
def State.awlLeave (s : State) (c : Nat) : State :=
  match mfind s.cores c with
  | none => s
  | some k => match k.awl with
    | none => s
    | some r =>
      let s1 := (s.modCore c (fun k => { k with awl := none, matrix := { k.matrix with accs := [], units := [] } })).writeFree (.spm c)
        [(s.awlWindow c r, 262144)]
      (if r.declared then s1 else s1.setFld .errAwlStat ErrAwlStat.busy 0).wakeIdle c

/-- The kernels of a mask, ascending. -/
def maskKernels (m : Nat) : List Nat := (List.range 24).filter (bitAt m)
/-- AWL_SCHEDULED_START: one run at a time, on a core of no Armed partition that is not retired. -/
def execAwlScheduledStart (v : BitVec 64) (s : State) : Host.Outcome State Fault Refusal :=
  commit s true (s.pfWrite (
    let c := ErrAwlCtl.core.get v
    let s1 := (s.setFld .errAwlCtl ErrAwlCtl.core c).setFld .errAwlCtl ErrAwlCtl.mask (ErrAwlCtl.mask.get v)
    let armed : Bool := match s.ownerOf c with
      | none => false
      | some p => s.partState p = 2
    let taken : Bool := match mfind s.cores c with
      | none => true
      | some k => k.awl.isSome || s.isRetired c
    if ErrAwlCtl.start.get v = 0 then s1
    else if armed ∨ taken ∨ s.fld .errAwlStat ErrAwlStat.busy = 1 then s1.setFld .errAwlStat ErrAwlStat.refused 1
    else
      let s2 := s1.setReg .errAwlStat (word64 [(ErrAwlStat.core, c)])
      match maskKernels (ErrAwlCtl.mask.get v) with
      | [] => s2
      | k :: rest => (s2.setFld .errAwlStat ErrAwlStat.busy 1).awlBegin c ⟨none, none, rest, false, none⟩ k))

/-- AWL_DECLARATION: kept when it names a later tick than the next, and 0 stitches or 2 to 255 (assumption 61). -/
def execAwlDeclaration (p : Nat) (v : BitVec 64) (s : State) : Host.Outcome State Fault Refusal :=
  commit s (decide (p < 32)) (s.vfWrite p (
    let n := PartAwlCtl.stitches.get v
    if n = 0 then (s.setFld (.partAwlCtl p) PartAwlCtl.fromF (PartAwlCtl.fromF.get v)).setFld (.partAwlCtl p) PartAwlCtl.stitches 0
    else if s.partState p = 2 ∧ 2 ≤ n ∧ s.count + 1 < PartAwlCtl.fromF.get v ∧ s.fld (.partAwlWin p) PartAwlWin.offset + 262144 ≤ spmSize then
      (s.setFld (.partAwlCtl p) PartAwlCtl.fromF (PartAwlCtl.fromF.get v)).setFld (.partAwlCtl p) PartAwlCtl.stitches n
    else s))

/-- The finished cores of a partition are taken at the tick that its declaration names (R495, R496). -/
def State.awlTake (s : State) (p : Nat) : State :=
  let r := s.reg (.partAwlCtl p)
  if s.partState p = 2 ∧ 2 ≤ PartAwlCtl.stitches.get r ∧ PartAwlCtl.fromF.get r = s.count then
    ((s.coresOf p).filter (fun c => s.finishedCore (s.tickTack p) c && !s.isRetired c)).foldl (fun t c =>
      if (mfind t.cores c).any (fun k => k.awl.isNone) then t.awlBegin c ⟨none, none, [], true, none⟩ (s.fld (.coreAwl c) CoreAwl.next) else t)
      (s.modPart p (fun q => { q with awlEnd := s.count + PartAwlCtl.stitches.get r }))
  else s

/-- Declared runs end at the tick at from + stitches, or with the partition's time in Armed. -/
def State.awlEnds (s : State) : State :=
  ((s.cores.filter (fun (x : Nat × Core) => match x.2.awl, s.ownerOf x.1 with
    | some r, some p => r.declared && (s.partState p ≠ 2 || (match mfind s.parts p with
        | none => true
        | some q => q.awlEnd ≤ s.count))
    | _, _ => false)).map Prod.fst).foldl State.awlLeave s

/-- The next kernel of a run: of the mask, or of the rotation while 7,800 cc (3,900 ns) remain (R495, R496). -/
def State.awlNext (s : State) (c : Nat) (r : AwlRun) : State :=
  if r.declared then
    match s.ownerOf c with
    | none => s
    | some p => if 3900 ≤ s.awlLeft p then s.awlBegin c r (s.fld (.coreAwl c) CoreAwl.next)
      else s.modCore c (fun k => { k with awl := some { r with kernel := none, first := none } })
  else match r.rest with
    | [] => s.awlLeave c
    | k :: t => s.awlBegin c { r with rest := t } k

/-- AWL_FAIL (R497): kernel, attempt, expected CRC, CRC found. -/
def State.awlFail (s : State) (c : Nat) (r : AwlRun) (k attempt expected found : Nat) : State :=
  (s.satFld (.coreAwl c) CoreAwl.fails 1).log {
    code := 0x1C10, part := if r.declared then s.ownerOf c else none, core := some c,
    detail := det [(1, k), (1, attempt), (2, 0), (4, expected), (4, found)] }

/-- A kernel has passed. -/
def State.awlPassed (s : State) (c : Nat) (r : AwlRun) (k : Nat) : State :=
  let s1 := if r.declared then
      let s2 := s.setFld (.coreAwl c) CoreAwl.next ((k + 1) % 24)
      if k = 23 then s2.setFld (.coreAwl c) CoreAwl.lastPass s.count else s2
    else s.setFld .errAwlStat ErrAwlStat.passed (s.fld .errAwlStat ErrAwlStat.passed ||| 2 ^ k)
  s1.awlNext c r

/-- AWL_KERNEL_DONE: a first failure runs the kernel again; a second one retires the core. -/
def execAwlKernelDone (c : Nat) (expected found : BitVec 32) (s : State) : Host.Outcome State Fault Refusal :=
  commit s (decide (c < 512)) (match (mfind s.cores c).bind (fun k => k.awl) with
    | none => s
    | some r => match r.kernel with
      | none => s
      | some k =>
        if expected = found then
          match r.first with
          | none => s.awlPassed c r k
          | some f => (s.awlFail c r k 1 expected.toNat f).awlPassed c r k
        else
          match r.first with
          | none => s.modCore c (fun x => { x with awl := some { r with first := some found.toNat } })
          | some _ => ((s.awlFail c r k 2 expected.toNat found.toNat).awlLeave c).retireCore c)

/-! ## Steps (R498 to R501) -/

/-- The memory of step range `i` exists for the partition, and the range lies in it (R498). -/
def State.stepRangeOk (s : State) (p i : Nat) : Bool :=
  let (kind, l, b, n) := s.stepRange p i
  let there : Bool := match l with
    | .spm c => s.granted p c
    | _ => true
  kind = 0 || (kind ≠ 3 && s.fld (.partStepRange p i 0) PartStepRange.space ≠ 3 && there && 4096 * (b + n) ≤ s.locSize l)
/-- State of a step: 0 none, 1 Pending, 2 Open, 3 Closed. -/
def State.stepState (s : State) (p : Nat) : Nat := s.fld (.partStepStatus p) PartStepStatus.state
/-- A step command is refused. -/
def State.stepRefuse (s : State) (p : Nat) : State := s.setFld (.partStepStatus p) PartStepStatus.refused 1

/-- STEP_BEGIN. -/
def execStepBegin (p : Nat) (s : State) : Host.Outcome State Fault Refusal :=
  commit s (decide (p < 32)) (s.vfWrite p (
    if s.stepState p = 0 ∧ (List.range 16).all (fun i => s.stepRangeOk p i && (s.stepRange p i).2.2.2 ≤ 2 ^ 28) then
      (s.setReg (.partStepStatus p) (word64 [(PartStepStatus.state, 1)])).setReg (.partStepFold p) 0
    else s.stepRefuse p))
/-- STEP_CLOSE: the fold starts. -/
def execStepClose (p : Nat) (s : State) : Host.Outcome State Fault Refusal :=
  commit s (decide (p < 32)) (s.vfWrite p (
    if s.stepState p = 2 ∧ s.fld (.partStepStatus p) PartStepStatus.busy = 0 then
      (s.setFld (.partStepStatus p) PartStepStatus.busy 1).setFld (.partStepStatus p) PartStepStatus.refused 0
    else s.stepRefuse p))

/-- The fold of a step (R500): fold and OPEN blocks over the output ranges. -/
def State.stepFold (s : State) (p : Nat) : Nat × Nat :=
  (List.range 16).foldl (fun acc r =>
    let (kind, l, base, n) := s.stepRange p r
    if kind = 2 then
      (List.range n).foldl (fun (f, o) b =>
        let x := s.blkOf l (base + b)
        if x.valid then ((f + srMix 0 (r * 2 ^ 60 + b * 2 ^ 32 + x.check.toNat)) % 2 ^ 64, o) else (f, o + 1)) acc
    else acc) (0, 0)
/-- STEP_FOLD_DONE. -/
def execStepFoldDone (p : Nat) (s : State) : Host.Outcome State Fault Refusal :=
  commit s (decide (p < 32)) (
    if s.stepState p = 2 ∧ s.fld (.partStepStatus p) PartStepStatus.busy = 1 then
      let (f, o) := s.stepFold p
      ((((s.setReg (.partStepFold p) (BitVec.ofNat 64 f)).setFld (.partStepStatus p) PartStepStatus.openBlocks o).setFld
        (.partStepStatus p) PartStepStatus.busy 0).setFld (.partStepStatus p) PartStepStatus.state 3)
    else s)
/-- STEP_COMMIT. -/
def execStepCommit (p : Nat) (s : State) : Host.Outcome State Fault Refusal :=
  commit s (decide (p < 32)) (s.vfWrite p (
    if 2 ≤ s.stepState p then
      ((s.setFld (.partStepStatus p) PartStepStatus.state 0).setFld (.partStepStatus p) PartStepStatus.busy 0).setFld
        (.partStepStatus p) PartStepStatus.refused 0
    else s.stepRefuse p))

/-! ## Replay and digests (R502 to R504) -/

/-- REPLAY_START: nothing happens outside Armed, for values that are no multiples of 4 KiB, for a destination outside the
partition's memory, or while a fetch runs (assumption 62). -/
def execReplayStart (p : Nat) (s : State) : Host.Outcome State Fault Refusal :=
  commit s (decide (p < 32)) (s.vfWrite p (
    let src := (s.reg (.partReplaySrc p)).toNat
    let dst := (s.reg (.partReplayDst p)).toNat
    let len := s.fld (.partReplayLen p) PartReplayLen.bytes
    if s.partState p = 2 ∧ src % 4096 = 0 ∧ dst % 4096 = 0 ∧ len % 4096 = 0 ∧ s.fld (.partReplayStatus p) PartReplayStatus.busy = 0
        ∧ (s.spaceLoc p (bitsOf dst 46 3) (bitsOf dst 0 46) len).isSome then
      if len = 0 then s.setReg (.partReplayStatus p) (word64 [(PartReplayStatus.done, 1)])
      else (((s.setReg (.partReplayStatus p) (word64 [(PartReplayStatus.busy, 1)])).modPart p (fun q => { q with replayNext := 0 })).replayAsk
        p 64)
    else s))
/-- REPLAY_RESPONSE_TIMEOUT: a fetch that waits for an answer loses its source (R503). -/
def execReplayResponseTimeout (p : Nat) (s : State) : Host.Outcome State Fault Refusal :=
  commit s (decide (p < 32)) (match s.fab.xfers.find? (fun (x : Nat × Xfer) => x.2.isReplayOf p) with
    | none => s
    | some x => s.replayLost p x.2.node 2)

/-- COMPARE. -/
def execCompare (p : Nat) (v : BitVec 64) (s : State) : Host.Outcome State Fault Refusal :=
  commit s (decide (p < 32)) (s.vfWrite p (
    if PartWdigCtl.compare.get v = 0 then s
    else
      let s1 := s.wrapFld (.partWdigStat p) PartWdigStat.compares 1
      if (List.range 4).all (fun j => s.reg (.partWdigMine p j) = s.reg (.partWdigPeer p j)) then s1
      else (s1.satFld (.partWdigStat p) PartWdigStat.mismatches 1).log {
        code := 0x1C30, part := some p, detail := det [(2, PartWdigCtl.peer.get v)] }))

end Sys2Proof.Machine
end

