-- ==== Sys2Proof/Machine/Tick.lean ====
section
/-! DEFINITION. The local tick (R304): the count and the SNAP registers, segment releases and starts, markers, power, the
hand-offs of burnishes, the grain/flesh check (R455, R457) and the conservation checks (R461, R473, R475). -/
namespace Sys2Proof.Machine

/-! ## Step 1: count and SNAP registers -/

/-- Registers that latch a running count. -/
def Reg.isCount : Reg → Bool
  | .fabTxBytesSnap _ | .fabRxBytesSnap _ | .fabTxFlitsSnap _ | .fabRxFlitsSnap _ | .fabStallSnap _ _ | .coreBusySnap _ _
  | .hbmRdSnap _ | .hbmWrSnap _ | .partHbmRdSnap _ | .partHbmWrSnap _ | .llsMissSnap _ _ | .llsHitSnap _ _ | .partAtomSnap _ | .partFabRxSnap _
  | .partFabTxSnap _ | .pwrEnergySnap => true
  | _ => false
/-- Registers that show the queues and credits of a port at the tick. -/
def Reg.isPortView : Reg → Bool
  | .fabQueueSnap _ _ | .fabCredit _ _ => true
  | _ => false

/-- FAB_QUEUE_SNAP of a port and VC (R350). -/
def State.queueView (s : State) (k v : Nat) : State :=
  let l := s.link k
  let ofVc (m : SMap Nat) : Nat := (m.map (fun (j, n) => if pairVc j = v then n else 0)).sum
  s.setReg (.fabQueueSnap k v) (word64 [(FabQueueSnap.waiting, l.waiting v), (FabQueueSnap.peak, mget l.peak v 0),
    (FabQueueSnap.held, ofVc l.h), (FabQueueSnap.occupied, ofVc l.o)])
/-- FAB_CREDIT of a port and pair (R479). -/
def State.creditView (s : State) (k j : Nat) : State :=
  let l := s.link k
  s.setReg (.fabCredit k j) (word64 [(FabCredit.held, mget l.h j 0), (FabCredit.occupied, mget l.o j 0), (FabCredit.grant, s.pairGrant j),
    (FabCredit.resyncs, mget l.resyncCount j 0)])
/-- What a port shows until the next tick, its pairs only while it carries traffic; the peaks start again. -/
def State.portView (s : State) (k : Nat) : State :=
  let s1 := (List.range 8).foldl (fun t v => t.queueView k v) s
  (if s.carrying k then (List.range pairCount).foldl (fun t j => t.creditView k j) s1 else s1).modLink k (fun l => { l with
    peak := (uniq (l.out.map OutPkt.vc)).map (fun v => (v, l.waiting v)) })

/-- STCH_COUNT at this tick (R307): the next one, or the master's after a re-join. -/
def State.countOn (s : State) : State :=
  let s1 := s.setFld .stchCount StchCount.count (s.count + 1)
  let valid := s.fld .stchMasterCount StchMasterCount.valid = 1
  let s2 := if valid then s1.wrapFld .stchMasterCount StchMasterCount.count 1 else s1
  if s.fld .stchStatus StchStatus.rejoinPending = 1 then
    let s3 := if valid then s2.setFld .stchCount StchCount.count (s2.fld .stchMasterCount StchMasterCount.count) else s2
    ((s3.setFld .stchStatus StchStatus.countSplit 0).setFld .stchStatus StchStatus.rejoinPending 0).log {
      code := 0x4706, detail := det [(6, s3.count)] }
  else s2

/-- Every SNAP register latches (R7, R304). -/
def State.latch (s : State) : State :=
  let s1 := s.resetRegs (fun r => r.isCount || r.isPortView)
  let s2 := ((s1.setAll (s.live.map (fun x => (x.1, regGet s.live x.1)))).setReg .stchTickCount (BitVec.ofNat 64 s.count)).setReg .stchTickUptime s.pkg.uptime
  (((List.range 64).filter (fun k => s.carrying k || !(s.link k).peak.isEmpty)).foldl State.portView s2).powerSnap

/-! ## The grain/flesh check (R455, R457) -/

/-- The owning partition enters Fenced. -/
def State.gfFence (s : State) (p : Option Nat) (core : Option Nat) (kind i : Nat) : State :=
  s.gfEvent { code := 0x2B01, part := p, core := core, detail := det [(1, kind), (1, 0), (2, i)] }
/-- The device enters Fenced. -/
def State.gfFenceDev (s : State) (kind i port pair : Nat) : State :=
  s.gfEvent { code := 0x3B01, detail := det [(1, kind), (1, 0), (2, i), (1, port), (1, pair)] }
/-- A table entry is disabled: until it is reloaded, or written again under R348. -/
def State.gfTable (s : State) (tab : GfTable) (i w : Nat) (copyOk : Bool) : State :=
  let (t, off) := tableOff tab i w
  let s1 := { s with fab := { s.fab with disabled := off :: s.fab.disabled.filter (· ≠ off) } }.renode
  if s.fab.written.contains off ∨ !copyOk then
    ({ s1 with fab := { s1.fab with written := off :: s1.fab.written.filter (· ≠ off) } }).gfEvent {
      code := 0x1B01, detail := tableDetail t i w }
  else s1

/-- What a stored word that fails its check brings about. -/
def State.gfUpset (s : State) (g : GfUpset) : State :=
  match g.cls with
  | 0 => s.gfFence (s.ownerOf g.unit) (some g.unit) 0 g.index
  | 1 => s.gfFence (some g.unit) none 1 g.index
  | 2 => s.gfFence (some g.unit) none 2 g.index
  | 3 => s.gfFenceDev 3 g.index g.unit g.index
  | 4 => s.gfFenceDev 4 g.index 0 0
  | 5 => s.gfFenceDev 5 g.index 0 0
  | 6 => s.gfTable .route g.index 0 g.copyOk
  | 7 => s.gfTable .xlate g.index 0 g.copyOk
  | 8 => s.gfTable .reach g.index g.unit g.copyOk
  | 9 => if (mfind s.cores g.unit).isSome ∧ !s.isRetired g.unit then (s.coreFault g.unit cHw { thread := 0 }).retireCore g.unit else s
  | _ => s

/-! ## Events of the stitch just ended -/

/-- FAB_REPLAY: replays of a port (R333). -/
def State.noteReplays (s : State) (k : Nat) : State :=
  let n := (s.link k).replayNow
  if n = 0 then s
  else (s.modLink k (fun l => { l with replayNow := 0 })).log { code := 0x0801, detail := det [(1, k), (3, 0), (4, n)], whr := [(6, k)] }
/-- HBM_CORRECTED: corrections of a channel (R252). -/
def State.noteFixes (s : State) : State :=
  (s.hbm.stitchFix.foldl (fun t (ch, n) => t.log {
    code := 0x0501, unit := ch / 32, detail := det [(1, ch / 32), (1, ch % 32), (2, 0), (4, n)] }) s) |> fun t =>
    { t with hbm := { t.hbm with stitchFix := [] } }
/-- D2D_RETRY: retries of the die-to-die links, once per link and stitch (R565). -/
def State.noteRetries (s : State) : State :=
  ((uniq s.pkg.d2dRetries).foldl (fun t l => t.log {
    code := 0x0E01, unit := linkDie l, detail := det [(1, l), (3, 0), (4, s.pkg.d2dRetries.countP (· = l))] }) s) |> fun t =>
    { t with pkg := { t.pkg with d2dRetries := [] } }

/-! ## Conservation (R461, R473, R475) -/

/-- CONS_BROKEN. -/
def State.consBroken (s : State) (check port pair dir : Nat) : State :=
  s.log { code := 0x3B02, detail := det [(1, check), (1, port), (1, pair), (1, dir)] }
/-- Whether H of a pair follows from the counters that define it. -/
def Link.sentOk (l : Link) (j : Nat) : Bool := (mget l.h j 0 + mget l.fs j 0) % 2 ^ 32 = mget l.cr j 0 % 2 ^ 32
/-- Whether O of a pair follows from the counters that define it. -/
def Link.gotOk (l : Link) (g j : Nat) : Bool :=
  (mget l.o j 0 + mget l.ci j 0) % 2 ^ 32 = (g + mget l.fr j 0) % 2 ^ 32 && mget l.o j 0 ≤ g
/-- The pairs of a port that fail the local check, as (pair, direction). -/
def State.brokenPairs (s : State) (k : Nat) : List (Nat × Nat) :=
  let l := s.link k
  (List.range pairCount).flatMap (fun j =>
    (if l.sentOk j then [] else [(j, 0)]) ++ (if l.gotOk (s.pairGrant j) j then [] else [(j, 1)]))
/-- The local check of a port: one failure fences the device. -/
def State.checkPort (s : State) (k : Nat) : State :=
  match s.brokenPairs k with
  | [] => s
  | (j, d) :: _ => s.consBroken 0 k j d
/-- The sums of a partition are compared and cleared (R473). -/
def State.checkSums (s : State) (p : Nat) : State :=
  match mfind s.parts p with
  | none => s
  | some q =>
    let s1 := s.modPart p (fun q => { q with wrote := (0, 0), counted := (0, 0) })
    if q.wrote = q.counted then s1 else s1.consBroken 1 0 0 0

/-! ## The tick -/

/-- A Pending step becomes Open (R498). -/
def State.openStep (s : State) (p : Nat) : State := if s.stepState p = 1 then s.setFld (.partStepStatus p) PartStepStatus.state 2 else s
/-- Loopback mode 5 sends an ECHO_REQ (R418). -/
def State.echoLoop (s : State) (k : Nat) : State := if s.loopMode k = 5 then s.sendCtrl k (echoMsg 0) else s

/-- Step 2: awl runs end and start, segments are released, entry threads start, steps open (R70, R300, R303, R496, R498). -/
def State.tickParts (s : State) : State :=
  let s1 := s.awlEnds
  let s2 := s1.partNums.foldl State.awlTake s1
  let s3 := s2.partNums.foldl State.tickPart s2
  let s4 := s3.modStitch (fun t => { t with
    overran := [], withheld := t.withheld.filter (fun x => x.2 ≠ s3.count), holdTicks := if s3.tickState = 4 then t.holdTicks + 1 else t.holdTicks })
  s4.startCores |> fun t => t.partNums.foldl State.openStep t
/-- Step 4: power (R475, R527, R408). -/
def State.tickPower (s : State) : State :=
  let s1 := s.powerStep
  (if s1.tokensOk then s1 else s1.consBroken 2 0 0 0).setAllowances
/-- Steps 5 and 6: hand-offs, burnishes that start, and the local checks of every port that carries traffic. -/
def State.tickPorts (s : State) : State :=
  let s1 := (List.range 64).foldl (fun t k => ((((t.tickMoves k).burnBack k).recoverBack k).startBurn k).noteReplays k) s
  let up := (List.range 64).filter s1.carrying
  up.foldl (fun t k => (t.echoLoop k).checkPort k) s1
/-- The work around a tick. -/
def State.tick (s : State) (gf : List GfUpset) : State :=
  let s1 := s.countOn.latch
  let s2 := (gf.foldl State.gfUpset s1).noteFixes.noteRetries
  let s3 := s2.tickParts.sendMarkers.tickPower.tickPorts
  s3.partNums.foldl State.checkSums s3

/-- STITCH_TICK: there is no tick in Bare (R291). -/
def execStitchTick (gf : List GfUpset) (s : State) : Host.Outcome State Fault Refusal :=
  commit s (Instr.wf (.stitchTick gf)) (if s.tickState = 0 then s else s.tick gf)

end Sys2Proof.Machine
end

