-- ==== Sys2Proof/Machine/Package.lean ====
section
/-! DEFINITION. Supplies, resets, boot, clocks, loopbacks and the test port (R513, R519, R520, R533, R548 to R570), and the
sensor reading that trips (R528 to R534). -/
namespace Sys2Proof.Machine

/-- Change the package's own state. -/
def State.modPkg (s : State) (f : Pkg → Pkg) : State := { s with pkg := f s.pkg }
/-- Log an event of source 0xE (R583): `unit` is its die, or 15. -/
def State.pkgEvent (s : State) (code unit : Nat) (detail : List Byte) : State := s.log { code := code, unit := unit, detail := detail }

/-! ## Resets (R551 to R553) -/

/-- A source of a reset sets its bit in DEV_BOOT.causes. -/
def State.cause (s : State) (i : Nat) : State := s.setFld .devBoot DevBoot.causes (s.fld .devBoot DevBoot.causes ||| 2 ^ i)
/-- THERM_N follows the down conditions of temperature (R545). -/
def State.thermDown (s : State) : Bool := s.fld .thrmStatus ThrmStatus.atLimit ≠ 0 || s.fld .thrmStatus ThrmStatus.rising ≠ 0
/-- A change of THERM_N since `was` is driven. -/
def State.driveTherm (s : State) (was : Bool) : State := if s.thermDown = was then s else s.emit (.pin 7 was)

/-- What a reset makes of the package's own state: nothing runs, and the standby domain stays. -/
def Pkg.inReset (p : Pkg) : Pkg :=
  { p with booted := false, bootDone := false, bootNs := 0, cycles := 0, eid := 0, spdm := [], fwUpdate := none, loopBusy := false, d2dRetries := [] }

/-- A reset that leaves the standby domain powered (R50, R552): Bare, and every store but those of R552 lost. What it leaves
undefined in memories no command reads before a commit has zeroed it (R42). -/
def State.devReset (s : State) : State :=
  let s1 := s.noStructure Reg.resetKeep
  { s1 with
    harn := State.reset.harn, host := State.reset.host, pwr := State.reset.pwr,
    err := { s1.err with intake := [], overflow := [] },
    hbm := { State.reset.hbm with marks := s1.hbm.marks, spares := s1.hbm.spares, caSpare := s1.hbm.caSpare },
    pkg := s1.pkg.inReset }.driveTherm s.thermDown

/-- A reset source acts on a device whose standby domain is powered. -/
def State.resetBy (s : State) (i : Nat) : State := if s.pkg.standby then (s.cause i).devReset else s

/-- The rails go: PWROK_OUT falls. -/
def State.railsOff (s : State) : State :=
  if s.pkg.rails then (s.modPkg (fun p => { p with rails := false })).emit (.pin 2 false) else s

/-- PERST_N. -/
def execPerstN (high : Bool) (s : State) : Host.Outcome State Fault Refusal :=
  commit s true (
    let s1 := s.modPkg (fun p => { p with perstHigh := high })
    if s.pkg.perstHigh ∧ !high then s1.resetBy 3 else s1)
/-- SYS_RST_N. -/
def execSysRstN (high : Bool) (s : State) : Host.Outcome State Fault Refusal :=
  commit s true (
    let s1 := s.modPkg (fun p => { p with sysRstHigh := high })
    if s.pkg.sysRstHigh ∧ !high then s1.resetBy 4 else s1)
/-- WARM_RESET: also from Fenced, which only a reset leaves (R51, R551, assumption 56). -/
def execWarmReset (s : State) : Host.Outcome State Fault Refusal := commit s true (s.pfRead (s.resetBy 5))

/-! ## Trips (R519, R520, R533) -/

/-- The intake empties into the ring before the rails go (R519 step 3): 37 entries take 296 cc. -/
def State.flushRing (s : State) : Nat → State
  | 0 => s
  | n + 1 => match s.nextEntry with
    | none => s
    | some (r, e) => (({ s with err := e }.ringWrite (toWords 8 r.bytes)).viewRecord r).flushRing n

/-- The retention record (R520). -/
def State.lastGasp (s : State) (why : Nat) : State :=
  let low := (s.pwr.vinHist.foldl min (s.pwr.vinHist.headD 0))
  (s.setRegs .pwrLastgasp [
    word64 [(PwrLastgasp0.uptime, s.pkg.uptime.toNat), (PwrLastgasp0.valid, 1)],
    word64 [(PwrLastgasp1.stitch, s.count), (PwrLastgasp1.pct, s.capPct)],
    word64 [(PwrLastgasp2.vinMin, low), (PwrLastgasp2.pin, s.fld .pwrNow PwrNow.pin), (PwrLastgasp2.cap, s.fld .pwrState PwrState.cap),
      (PwrLastgasp2.cause, why)]]).satFld (.pwrLastgasp 3) PwrLastgasp3.trips 1

/-- A trip: its event reaches the ring, the retention record is written, every domain but standby is reset and unpowered. -/
def State.trip (s : State) (e : Ev) (why src : Nat) : State := ((((s.log e).flushRing 40).lastGasp why).resetBy src).railsOff

/-- SAG_RESET: held until VIN has been good for 100 ms. -/
def execSagReset (vinMin : Nat) (s : State) : Host.Outcome State Fault Refusal :=
  commit s true (
    if !s.pkg.standby ∨ !s.pkg.rails then s
    else (s.trip { code := 0x3D02, detail := det [(2, vinMin)] } 1 1).modPkg (fun p => { p with sagHold := true }))
/-- SAG_RESET_RELEASE. -/
def execSagResetRelease (s : State) : Host.Outcome State Fault Refusal :=
  commit s true (s.modPkg (fun p => { p with sagHold := false }))

/-- The first sensor that has reached its class's trip, with its temperature (R530). -/
def State.tripped (s : State) : Option (Nat × Int) :=
  ((List.range 172).map (fun i => (i, s.tempOf i))).find? (fun x => !s.sensorFailed x.1 && !s.sensorGone x.1
    && !(mget s.pwr.temps x.1 []).isEmpty && decide (tripOf (domainClass (sensorDomain x.1)) ≤ x.2))
/-- SENSOR_READ (R529 to R534): readings, the limits of every domain, the trip. Nothing is read while the rails are off. -/
def execSensorRead (rd : List (Nat × SensorReading)) (s : State) : Host.Outcome State Fault Refusal :=
  commit s (rd.all (fun x => decide (x.1 < 172))) (
    if !s.pkg.rails then s
    else
      let s1 := rd.foldl (fun t (i, r) => t.readSensor i r) s
      let s2 := (((List.range 23).foldl State.checkDomain s1).noteDown).driveTherm s.thermDown
      match s2.tripped with
      | none => s2
      | some (i, t) => (s2.trip { code := 0x3D06, detail := thermDetail (sensorDomain i) t, whr := domainWhere (sensorDomain i) } 2 2).modPkg
          (fun p => { p with tripHold := true }))
/-- TRIP_HOLD_END. -/
def execTripHoldEnd (s : State) : Host.Outcome State Fault Refusal :=
  commit s true (s.modPkg (fun p => { p with tripHold := false }))

/-! ## Supplies (R513, R554) -/

/-- Everything but flash and OTP is lost. -/
def State.allLost (s : State) : State :=
  let s1 := s.devReset.noStructure Reg.fusedKeep
  { s1 with
    live := [], err := State.reset.err, hbm := State.reset.hbm,
    pkg := { s1.pkg with uptime := 0, retired := [], remap := [], sagHold := false, tripHold := false } }
/-- STANDBY_POWER_GOOD: a new boot identifier; the uptime starts again (R308, R309). -/
def execStandbyPowerGood (s : State) : Host.Outcome State Fault Refusal :=
  commit s true (
    if s.pkg.standby then s
    else
      let s1 := s.allLost.modPkg (fun p => { p with standby := true, powerUps := p.powerUps + 1 })
      (s1.setReg .stchBootId (bootIdOf s.pkg.powerUps)).cause 0)
/-- STANDBY_POWER_LOSS. -/
def execStandbyPowerLoss (s : State) : Host.Outcome State Fault Refusal :=
  commit s true (s.allLost.railsOff.modPkg (fun p => { p with standby := false }))
/-- RAIL_RAMP: the rails are good and PWROK_OUT rises, unless a trip holds them off. -/
def execRailRamp (s : State) : Host.Outcome State Fault Refusal :=
  commit s true (
    if s.pkg.rails ∨ !s.pkg.standby ∨ s.pkg.sagHold ∨ s.pkg.tripHold then s
    else (s.modPkg (fun p => { p with rails := true })).emit (.pin 2 true))

/-! ## Boot (R545, R554 to R559) -/

/-- Whether nothing holds the device in reset (R553, R554); a PLL locks to the reference (R549). -/
def Pkg.released (p : Pkg) : Bool := p.standby && p.rails && p.perstHigh && p.sysRstHigh && !p.sagHold && !p.tripHold && p.refOk

/-- The boot ROM checks a firmware copy (R558). -/
def State.checkCopy (s : State) (i : Nat) : State :=
  let img := fwImage (if i = 1 then s.flash.fw1 else s.flash.fw0)
  let ok := s.fwOk img
  let s1 := (s.setFld .devFw (if i = 1 then DevFw.seq1 else DevFw.seq0) (fwSeq img)).setFld .devFw (if i = 1 then DevFw.ok1 else DevFw.ok0) (b2n ok)
  if ok then s1 else s1.pkgEvent 0x4E03 15 (det [(1, i)])
/-- The copy that the boot ROM loads (R559). -/
def State.loadFirmware (s : State) : State :=
  let ok0 := s.fld .devFw DevFw.ok0 = 1
  let ok1 := s.fld .devFw DevFw.ok1 = 1
  if !ok0 ∧ !ok1 then (s.setFld .devBoot DevBoot.stage 4).pkgEvent 0x3E04 15 []
  else
    (s.setFld .devBoot DevBoot.fwCopy (b2n (ok1 ∧ (!ok0 ∨ s.fld .devFw DevFw.seq0 < s.fld .devFw DevFw.seq1)))).setFld .devBoot DevBoot.stage 2
/-- BOOT_START: a device that samples STRAP_TEST high stays in reset. -/
def execBootStart (straps : BitVec 4) (s : State) : Host.Outcome State Fault Refusal :=
  commit s true (
    if s.pkg.booted ∨ !s.pkg.released ∨ straps.getLsbD 3 then s
    else
      let s1 := s.modPkg (fun p => { p with booted := true, bootNs := p.uptime.toNat })
      let s2 := ((s1.setReg .devStrap (BitVec.ofNat 64 (straps.toNat % 8))).setFld .devClk DevClk.pllLocked 1).setFld .devClk DevClk.dieLocked 15
      ((s2.checkCopy 0).checkCopy 1).loadFirmware)

/-- A die fails its self-test, or is taken as failed (R556, R557). -/
def State.dieFails (s : State) (d : Nat) : State := s.pkgEvent 0x4E02 d (det [(1, d)])
/-- The primary die has failed: C2 takes over and the dies test themselves again; without C2 nothing boots (R556). -/
def State.primaryFails (s : State) : State :=
  if s.fld .devBoot DevBoot.fallback = 0 then
    (((s.setFld .devDie DevDie.tested (s.fld .devDie DevDie.tested % 2)).setFld .devDie DevDie.ok 0).setFld .devBoot DevBoot.primary 2).setFld
      .devBoot DevBoot.fallback 1
  else (s.setFld .devBoot DevBoot.stage 4).pkgEvent 0x3E02 15 []
/-- Whether the dies are testing themselves. -/
def State.testing (s : State) : Bool := s.pkg.booted && !s.pkg.bootDone && s.fld .devBoot DevBoot.stage = 2
/-- SELFTEST_REPORT. -/
def execSelftestReport (d : Nat) (ok : Bool) (s : State) : Host.Outcome State Fault Refusal :=
  commit s (decide (d < 4)) (
    if !s.testing ∨ bitAt (s.fld .devDie DevDie.tested) d ∨ (d = 0 ∧ s.fld .devBoot DevBoot.fallback = 1) then s
    else
      let s1 := s.setFld .devDie DevDie.tested (s.fld .devDie DevDie.tested + 2 ^ d)
      if ok then s1.setFld .devDie DevDie.ok (s1.fld .devDie DevDie.ok + 2 ^ d)
      else
        let s2 := s1.dieFails d
        if s.fld .devBoot DevBoot.primary = d then s2.primaryFails else s2)
/-- PRIMARY_TIMEOUT. -/
def execPrimaryTimeout (s : State) : Host.Outcome State Fault Refusal :=
  commit s true (
    let d := s.fld .devBoot DevBoot.primary
    if !s.testing ∨ bitAt (s.fld .devDie DevDie.tested) d then s else (s.dieFails d).primaryFails)

/-- The slot control block after a reset (R36, R40): HARN_BOOT, and the commit that autoload asks for. -/
def State.loadSlots (s : State) : State :=
  let c := s.flash.ctl
  let s1 := s.setReg .harnBoot (gfPair (b2n c.autoload + 2 * b2n c.preferred))
  if s.flash.current.isNone then s1.harnEvent 0x420B 0 0 0 0 none
  else if c.autoload ∧ s.fld .devStrap DevStrap.noAutoload = 0 then s1.slotCommit (b2n c.preferred) true
  else s1
/-- BOOT_DONE. A device that a fatal error has fenced during boot never reaches Bare (R51). -/
def execBootDone (s : State) : Host.Outcome State Fault Refusal :=
  commit s true (
    let prim := s.fld .devBoot DevBoot.primary
    if !s.testing ∨ s.devState = 3 ∨ !bitAt (s.fld .devDie DevDie.ok) prim then s
    else
      let s1 := ((s.setFld .devBoot DevBoot.stage 3).setFld .devBoot DevBoot.bootUs (s.sinceUs s.pkg.bootNs)).modPkg (fun p => { p with bootDone := true })
      let s2 := s1.pkgEvent 0x4E01 15 (det [(1, prim), (1, s.fld .devBoot DevBoot.fwCopy), (2, s.fld .devBoot DevBoot.causes)])
      (s2.setFld .devBoot DevBoot.causes 0).loadSlots)

/-- RAISE_FW_SEQ (R561): to the booted copy's sequence, at most 32. -/
def execRaiseFwSeq (s : State) : Host.Outcome State Fault Refusal :=
  commit s true (s.pfWrite (
    if s.devState = 2 then s.setFld .devFw DevFw.fwMin (max (s.fld .devFw DevFw.fwMin) (min 32 (s.bootedSeq.getD 0))) else s))

/-! ## The reference and the die-to-die links (R550, R565) -/

/-- REFCLK_LOST: a device in reset only counts the gap. -/
def execRefclkLost (s : State) : Host.Outcome State Fault Refusal :=
  commit s true (
    if !s.pkg.refOk ∨ !s.pkg.standby then s
    else
      let s1 := (s.modPkg (fun p => { p with refOk := false })).satFld .devClk DevClk.refGaps 1
      if s.pkg.booted then (s1.setFld .devClk DevClk.refLost 1).pkgEvent 0x3E03 15 [] else s1)
/-- REFCLK_RESTORED. -/
def execRefclkRestored (s : State) : Host.Outcome State Fault Refusal :=
  commit s true (s.modPkg (fun p => { p with refOk := true }))
/-- D2D_RETRY: counted for the event of the stitch; no link carries traffic in Bare. -/
def execD2dRetry (l : Nat) (s : State) : Host.Outcome State Fault Refusal :=
  commit s (decide (l < 8)) (if s.devState = 0 then s else s.modPkg (fun p => { p with d2dRetries := l :: p.d2dRetries }))
/-- D2D_LINK_LOST. -/
def execD2dLinkLost (l : Nat) (s : State) : Host.Outcome State Fault Refusal :=
  commit s (decide (l < 8)) (if s.devState = 0 then s else s.pkgEvent 0x3E01 (linkDie l) (det [(1, l)]))

/-! ## Loopbacks (R570) -/

/-- DEV_LOOP_START. -/
def execDevLoopStart (v : BitVec 64) (s : State) : Host.Outcome State Fault Refusal :=
  commit s true (s.pfWrite (
    let k := DevLoopCtl.kind.get v
    let s1 := ((s.setFld .devLoopCtl DevLoopCtl.kind k).setFld .devLoopCtl DevLoopCtl.target (DevLoopCtl.target.get v)).setFld .devLoopCtl
      DevLoopCtl.channel (DevLoopCtl.channel.get v)
    if DevLoopCtl.start.get v = 0 then s1
    else if s.devState = 1 ∧ s.drained ∧ 1 ≤ k ∧ k ≤ 4 ∧ !s.pkg.loopBusy then
      (s1.setReg .devLoopRes 0).modPkg (fun p => { p with loopBusy := true })
    else s1.setFld .devLoopRes DevLoopRes.refused 1))
/-- DEV_LOOP_DONE. -/
def execDevLoopDone (errors : Nat) (s : State) : Host.Outcome State Fault Refusal :=
  commit s true (
    if s.pkg.loopBusy then
      ((s.setFld .devLoopRes DevLoopRes.errors (min (2 ^ 32 - 1) errors)).setFld .devLoopRes DevLoopRes.done 1).modPkg (fun p =>
        { p with loopBusy := false })
    else s)

/-! ## The test port (R567 to R569) -/

/-- The IDCODE: version 1, part 0x5264, Stonte's JEDEC identity (R567). -/
def idcodeWord : Nat := 0x15264000 + 2 * (Config.jedecId % 2048) + 1
/-- Shift an instruction into the TAP. -/
def State.tapLoad (s : State) (i : Nat) : State := s.modPkg (fun p => { p with tapInstr := i })
/-- BYPASS: the one-bit register captures 0 (PRESUMED: IEEE 1149.1). -/
def State.tapBypass (s : State) : State := (s.tapLoad 0xFF).emit (.tap 0)
/-- A test instruction takes effect in Bare, and the PCIe link goes down, which acts as a PF FLR (R551, R569). -/
def State.tapTest (s : State) (i : Nat) : State :=
  if s.devState = 0 then
    let s1 := s.tapLoad i
    if s.host.linkUp then
      let s2 := s1.pfReset
      s2.linkDrop
    else s1
  else s.tapBypass

/-- TRST_N: selects IDCODE. -/
def execTrstN (s : State) : Host.Outcome State Fault Refusal := commit s true (s.tapLoad 1)
/-- IDCODE. -/
def execIdcode (s : State) : Host.Outcome State Fault Refusal := commit s true ((s.tapLoad 1).emit (.tap idcodeWord))
/-- SAMPLE_PRELOAD. -/
def execSamplePreload (pins : Nat) (s : State) : Host.Outcome State Fault Refusal := commit s true ((s.tapLoad 2).emit (.tap pins))
/-- EXTEST. -/
def execExtest (s : State) : Host.Outcome State Fault Refusal := commit s true (s.tapTest 3)
/-- EXTEST_PULSE. -/
def execExtestPulse (s : State) : Host.Outcome State Fault Refusal := commit s true (s.tapTest 4)
/-- EXTEST_TRAIN. -/
def execExtestTrain (s : State) : Host.Outcome State Fault Refusal := commit s true (s.tapTest 5)
/-- CLAMP. -/
def execClamp (s : State) : Host.Outcome State Fault Refusal := commit s true (s.tapTest 6)
/-- HIGHZ. -/
def execHighz (s : State) : Host.Outcome State Fault Refusal := commit s true (s.tapTest 7)
/-- BYPASS, and every code of no instruction. -/
def execBypass (code : BitVec 8) (s : State) : Host.Outcome State Fault Refusal :=
  commit s (decide (¬(1 ≤ code.toNat ∧ code.toNat ≤ 7))) s.tapBypass

end Sys2Proof.Machine
end

