-- ==== Sys2Proof/Machine/Regs.lean ====
section
/-! DEFINITION. The host's view of the registers: the value that each reads (R5 to R8, R112, R430, R431, R574 to R580), where an
offset of a BAR0 leads, what a write does, and the meanings of the commands that are register accesses of their own. -/
namespace Sys2Proof.Machine

/-! ## Computed views -/

/-- A word with some fields replaced. -/
def putAll (v : BitVec 64) (l : List (Fld × Nat)) : BitVec 64 := l.foldl (fun w (f, x) => f.put w x) v
/-- The bits whose index a condition names, below `n`. -/
def maskOf (n : Nat) (q : Nat → Bool) : Nat := (List.range n).foldl (fun a i => if q i then a + 2 ^ i else a) 0

/-- CORE_STATE (R112). -/
def State.coreStateWord (s : State) (c : Nat) (k : Core) : BitVec 64 :=
  let run := if k.halted then 0 else maskOf 8 (fun t => (k.thread t).started)
  let parked := maskOf 8 (fun t => match (k.thread t).stat with
    | .parked _ => true
    | _ => false)
  let st := if s.isRetired c then 3 else if k.halted then 2 else if run ≠ 0 then 1 else 0
  word64 [(CoreState.state, st), (CoreState.running, run), (CoreState.parked, parked)]
/-- CORE_QSTAT (R112). -/
def State.qstatWord (s : State) (c : Nat) (k : Core) : BitVec 64 :=
  word64 [(CoreQstat.matrix, (k.queue 0).length), (CoreQstat.vector, (k.queue 1).length), (CoreQstat.dma, (k.queue 2).length),
    (CoreQstat.dmaActive, (s.actsOf c 2).length), (CoreQstat.skiver, (k.queue 3).length)]
/-- CORE_MX_STATE (R139): the stored fields with the strips that descriptors occupy and the shapes of their last MMAs. -/
def State.mxStateWord (s : State) (c : Nat) (k : Core) : BitVec 64 :=
  let run := s.actsOf c 0
  putAll (s.reg (.coreMxState c)) [
    (CoreMxState.busy, maskOf 4 (fun i => run.any (fun a => a.desc.strips.contains i))),
    (CoreMxState.shape, ((List.range 4).map (fun i => mget k.matrix.lastShape i 0 * 4 ^ i)).sum),
    (CoreMxState.drainBusy, b2n (run.any (fun a => a.desc.op ≠ 1)))]
/-- CORE_SPM_BLK (R224): the stored count with the spare rows in use. -/
def State.spmBlkWord (s : State) (c : Nat) (k : Core) : BitVec 64 :=
  let used (b : Nat) : Nat := ((List.range 8).filter (fun i => s.remapUsed k.phys b i)).length
  putAll (s.reg (.coreSpmBlk c)) [
    (CoreSpmBlk.sparesUsed, ((List.range 32).map used).sum), (CoreSpmBlk.maxBankUsed, ((List.range 32).map used).foldl max 0)]
/-- The line at which a thread is parked by CINCH. -/
def Thread.cinchLine (th : Thread) : Option Nat :=
  match th.stat with
  | .parked (.cinch l) | .parked (.cinchFence l) => some l
  | _ => none
/-- CORE_SYNC_STAT (R284). -/
def State.syncStatWord (s : State) (c : Nat) (k : Core) : BitVec 64 :=
  putAll (s.reg (.coreSyncStat c)) [
    (CoreSyncStat.cinchWaiting, maskOf 8 (fun t => (k.thread t).cinchLine.isSome)),
    (CoreSyncStat.cinchLine, ((List.range 8).findSome? (fun t => (k.thread t).cinchLine)).getD 0)]

/-- A CORE register as it reads: 0 for a core that the device as framed does not have (R574). -/
def State.readCore (s : State) (c : Nat) (r : Reg) : BitVec 64 :=
  match mfind s.cores c with
  | none => 0
  | some k => match r with
    | .coreId _ => match s.ownerOf c with
      | none => s.reg r
      | some p => putAll (s.reg r) [(CoreId.partition, p), (CoreId.granted, 1)]
    | .coreState _ => s.coreStateWord c k
    | .coreQstat _ => s.qstatWord c k
    | .coreMxState _ => s.mxStateWord c k
    | .corePc _ t => BitVec.ofNat 64 ((k.thread t).pc % 2 ^ 32)
    | .coreEnv _ t i => BitVec.ofNat 64 ((k.thread t).env.getD i 0)
    | .coreSpmBlk _ => s.spmBlkWord c k
    | .coreSyncStat _ => s.syncStatWord c k
    | .corePhys _ => BitVec.ofNat 64 k.phys
    | .coreSpmRemap _ b i => mget s.pkg.remap (remapKey k.phys b i) (gfPair 0)
    | _ => s.reg r

/-- PART_ID (R442). -/
def State.partIdWord (s : State) (p : Nat) : BitVec 64 :=
  word64 [(PartId.partition, p), (PartId.granted, b2n (mfind s.parts p).isSome),
    (PartId.cores, ((List.range 512).filter (s.granted p)).length), (PartId.ethFirst, s.ethFirst p), (PartId.ethCount, s.ethCount p),
    (PartId.gtackFirst, s.gtFirst p), (PartId.gtackCount, s.gtCount p)]
/-- The bucket of PWR_PART, in nJ (R523, R540). -/
def State.bucketNj (s : State) (p : Nat) : Nat :=
  match mfind s.parts p with
  | none => 0
  | some q => unsigned 32 (q.bucket / 100000)
/-- Grid tacks 64j to 64j + 63 of the grant (R285). -/
def State.gtackWord (s : State) (p j : Nat) : BitVec 64 :=
  BitVec.ofNat 64 (maskOf 64 (fun i =>
    s.gtackSet? (64 * j + i) && s.gtFirst p ≤ 64 * j + i && 64 * j + i < s.gtFirst p + s.gtCount p))
/-- Lines of the grant that hold an arrival (R285). -/
def State.cinchWord (s : State) (p : Nat) : BitVec 64 :=
  BitVec.ofNat 64 (maskOf 64 (fun l => s.ownsLine p l && !(s.cinch l).arrived.isEmpty))

/-- Microseconds of a status register while an operation shows in it (R68). -/
def State.statusWord (s : State) (r : Reg) (running : Bool) : BitVec 64 :=
  if running then HarnStatus.elapsedUs.put (s.reg r) (min (2 ^ 32 - 1) (s.sinceUs s.harn.startNs)) else s.reg r
/-- Whether a strap commit of a partition runs. -/
def State.strapRuns (s : State) (p : Nat) : Bool :=
  match s.harn.op with
  | some (.strap r _) => r.part = p
  | _ => false

/-- A PART register as it reads; a register beyond the grant's queue count reads 0 (R574). -/
def State.readPart (s : State) (p : Nat) (r : Reg) : BitVec 64 :=
  let queue (i : Nat) : BitVec 64 := if s.ethCount p ≤ i then 0 else s.reg r
  match r with
  | .partId _ => s.partIdWord p
  | .partState _ => PartState.devState.put (s.reg r) s.devState
  | .partStrapStatus _ => s.statusWord r (s.strapRuns p)
  | .partLls _ d => s.reg (.llsSlice d p)
  | .partHbm _ => match s.regionOf p with
    | none => 0
    | some i => s.reg (.hbmRegion i)
  | .partHbmRdSnap _ => s.reg (.hbmRdSnap p)
  | .partHbmWrSnap _ => s.reg (.hbmWrSnap p)
  | .partFlagHold _ => match mfind s.parts p with
    | none => 0
    | some q => word64 [(PartFlagHold.held, q.held.length)]
  | .partGtack _ j => s.gtackWord p j
  | .partCinch _ => s.cinchWord p
  | .partStchCfg _ => s.reg (.stchPart p)
  | .partFabNode _ => s.reg .fabNode
  | .partFabReach _ i => BitVec.ofNat 64 (grain (s.reg (.fabReach p i)))
  | .partCollStat _ => PartCollStat.busy.put (s.reg r) (s.collBusy p)
  | .partSlew _ => s.reg (.optSlewPart p)
  | .partPwr _ => putAll (s.reg r) [(PartPwr.held, s.fld (.pwrPart p) PwrPart.held), (PartPwr.target, s.fld (.pwrPart p) PwrPart.target),
      (PartPwr.pct, s.fld .pwrState PwrState.pct)]
  | .partEthqCtl _ i | .partEthqTxBase _ i | .partEthqTxTail _ i | .partEthqTxHead _ i | .partEthqRxBase _ i | .partEthqRxTail _ i
  | .partEthqRxHead _ i | .partEthqStat _ i => queue i
  | _ => s.reg r

/-- A line register as it reads: while the ring is not off, detuning, heater power and the symbols corrected by a receive line
are what the optics measure, which nothing in the model gives (assumption 9). -/
def State.lineWord (s : State) (r : Reg) (rx : Bool) (k l : Nat) : BitVec 64 :=
  if s.fld r OptTxLine.state = 0 then s.reg r else
  let w := Config.freeWord (s.freeCtr + (if rx then 1000 else 0) + 9 * k + l)
  let v := putAll (s.reg r) [(OptTxLine.detune, wbits w 0 8), (OptTxLine.heaterMw, wbits w 16 16)]
  if rx then OptRxLine.corrected.put v (wbits w 32 32) else v
/-- OPT_LB_RES as it reads: in the modes that check PRBS31, its errors and whether every line locked are what the receivers
measure (assumption 9). -/
def State.loopWord (s : State) (k : Nat) : BitVec 64 :=
  let m := s.loopMode k
  if m = 1 ∨ m = 2 ∨ m = 3 ∨ m = 6 then
    let w := Config.freeWord (s.freeCtr + 2000 + k)
    putAll (s.reg (.optLbRes k)) [(OptLbRes.bitErrors, wbits w 0 32), (OptLbRes.locked, wbits w 32 1)]
  else s.reg (.optLbRes k)
/-- FAB_CONS_STAT as it reads (R479). -/
def State.consStatWord (s : State) (k : Nat) : BitVec 64 :=
  let l := s.link k
  putAll (s.reg (.fabConsStat k)) [(FabConsStat.resync, b2n (!l.resyncs.isEmpty)),
    (FabConsStat.recent, min 16 (l.faultAt.filter (fun t => (s.count + 2 ^ 48 - t) % 2 ^ 48 < 1024)).length)]

/-- Every register as it reads (R7): 0 for a field with an action, the last latch of a SNAP register. -/
def State.readReg (s : State) (r : Reg) : BitVec 64 :=
  match r with
  | .devId => DevId.idcode.put (s.reg r) idcodeWord
  | .harnState => putAll (s.reg r) [(HarnState.drained, b2n s.drained),
      (HarnState.busy, b2n (s.harn.op.isSome || (s.pkg.booted && !s.pkg.bootDone)))]
  | .harnStatus => s.statusWord r s.harn.op.isSome
  | .stchUptimeNs => s.pkg.uptime
  | .pwrPart p => PwrPart.bucket.put (s.reg r) (s.bucketNj p)
  | .errIntake => ErrIntake.occupied.put (s.reg r) s.intakeUsed
  | .fabTableStatus => word64 [(FabTableStatus.quiet, b2n s.quiet),
      (FabTableStatus.outstanding, min (2 ^ 32 - 1) (s.outstanding (s.fld .fabTableCtl FabTableCtl.partMask)))]
  | .fabConsStat k => s.consStatWord k
  | .optFeed j => OptFeed.shutterOpen.put (s.reg r) (b2n (s.shutterOpen j))
  | .optLbRes k => s.loopWord k
  | .optTxLine k l => s.lineWord r false k l
  | .optRxLine k l => s.lineWord r true k l
  | .coreCap c | .coreId c | .coreCtl c | .coreState c | .coreFault c | .coreQstat c | .coreMxState c | .coreMxInexact c | .corePc c _
  | .coreSkvGate c | .coreSkvSlots c | .coreSpmEcc c | .coreSpmBlk c | .coreTack c | .coreSyncStat c | .coreAwl c | .coreEnv c _ _
  | .coreBusySnap c _ | .corePhys c | .coreSpmRemap c _ _ => s.readCore c r
  | .partId p | .partState p | .partStrapStatus p | .partLls p _ | .partHbm p | .partHbmRdSnap p | .partHbmWrSnap p | .partFlagHold p
  | .partGtack p _ | .partCinch p | .partStchCfg p | .partFabNode p | .partFabReach p _ | .partCollStat p | .partSlew p | .partPwr p
  | .partEthqCtl p _ | .partEthqTxBase p _ | .partEthqTxTail p _ | .partEthqTxHead p _ | .partEthqRxBase p _ | .partEthqRxTail p _
  | .partEthqRxHead p _ | .partEthqStat p _ => s.readPart p r
  | _ => s.reg r

/-! ## Where an offset leads -/

/-- What lies at an offset of a BAR0: a register, a word of an MSI-X table, a pending-bit array, a word of an event view. -/
inductive BarPlace where
  | reg (r : Reg)
  | table (fn i : Nat)
  | pendBits (fn : Nat)
  | event (p i : Nat)
  | nothing

/-- A register of a block, if the offset names one. -/
def placeOf : Option Reg → BarPlace
  | none => .nothing
  | some r => .reg r

/-- VF BAR0 of a partition (R112, R430). -/
def State.vfPlace (s : State) (p off : Nat) : BarPlace :=
  if off < 0x10000 then placeOf (partBlockReg p off)
  else if off < 0x20000 then .event p ((off - 0x10000) / 8)
  else if 0x100000 ≤ off ∧ off < 0x100400 then .table (p + 1) ((off - 0x100000) / 8)
  else if off = 0x108000 then .pendBits (p + 1)
  else if 0x200000 ≤ off ∧ off < 0x400000 then
    match ((List.range 512).filter (s.granted p))[(off - 0x200000) / 0x1000]? with
    | none => .nothing
    | some c => placeOf (coreBlockReg c (off % 0x1000))
  else .nothing

/-- PF BAR0 beside its PART views (R429, R573). -/
def pfPlace (off : Nat) : BarPlace :=
  if off < 0x100000 then placeOf (devBlockReg off)
  else if off < 0x200000 then placeOf (harnBlockReg (off - 0x100000))
  else if off < 0x300000 then placeOf (stchBlockReg (off - 0x200000))
  else if off < 0x400000 then placeOf (pwrBlockReg (off - 0x300000))
  else if off < 0x500000 then placeOf (thrmBlockReg (off - 0x400000))
  else if off < 0x600000 then placeOf (errBlockReg (off - 0x500000))
  else if off < 0x800000 then placeOf (fabBlockReg (off - 0x600000))
  else if off < 0xA00000 then placeOf (optBlockReg (off - 0x800000))
  else if off < 0xC00000 then placeOf (hbmBlockReg (off - 0xA00000))
  else if off < 0x1000000 then placeOf (llsBlockReg (off - 0xC00000))
  else if off < 0x1800000 then placeOf (coreBlockReg ((off - 0x1000000) / 0x4000) (off % 0x4000))
  else if 0xF000000 ≤ off ∧ off < 0xF000100 then .table 0 ((off - 0xF000000) / 8)
  else if off = 0xF010000 then .pendBits 0
  else .nothing

/-- The partition and offset of a PART view of PF BAR0 (R431). -/
def viewOf (off : Nat) : Option (Nat × Nat) :=
  if 0x2000000 ≤ off ∧ off < 0xA000000 then some ((off - 0x2000000) / 0x400000, (off - 0x2000000) % 0x400000) else none

/-! ## Reads -/

/-- An MSI-X table word: entries are masked after reset (assumption 15). -/
def State.msixWord (s : State) (fn i : Nat) : BitVec 64 :=
  mget s.host.msixTab (fn * 128 + i) (if i % 2 = 1 then BitVec.ofNat 64 (2 ^ 32) else 0)

/-- The word at a place. -/
def State.readPlace (s : State) : BarPlace → BitVec 64
  | .reg r => s.readReg r
  | .table fn i => s.msixWord fn i
  | .pendBits fn => BitVec.ofNat 64 (maskOf 64 (fun v => s.host.msixPend.contains (fn * 64 + v)))
  | .event p i => match mfind s.parts p with
    | none => 0
    | some q => (toWords 8 (mget q.view (i / 8) [])).getD (i % 8) 0
  | .nothing => 0

/-- An aligned 8-byte read of a BAR0: none for Unsupported Request (R428). -/
def State.barRead (s : State) (via : Path) (off : Nat) : Option (BitVec 64) :=
  if !s.pkg.booted then none
  else match via with
    | .pf => some (match viewOf off with
      | some (p, o) => if (mfind s.parts p).isSome then s.readPlace (s.vfPlace p o) else 0
      | none => s.readPlace (pfPlace off))
    | .vf n => if s.devState = 0 ∨ (mfind s.parts (n - 1)).isNone ∨ s.host.vfEnable = false then none
      else some (s.readPlace (s.vfPlace (n - 1) off))

/-! ## Writes -/

/-- The state that a meaning answers, the old one where it answers none. -/
def State.took (s : State) (o : Host.Outcome State Fault Refusal) : State :=
  match o with
  | .next t => t
  | _ => s

/-- A write to fields without behaviour of their own (R6, R7). -/
def plainWord (r : Reg) (w v : BitVec 64) : BitVec 64 :=
  r.fields.foldl (fun w f => match f.acc with
    | .rw => f.put w (f.get v)
    | .w1c => f.put w (f.get w - (f.get w &&& f.get v))
    | .w1s => f.put w (f.get w ||| f.get v)
    | _ => w) w
/-- Such a write. -/
def State.plainWrite (s : State) (r : Reg) (v : BitVec 64) : State := s.setReg r (plainWord r (s.reg r) v)

/-- HARN_CTL (R68): other commands are refused. -/
def State.harnCtlWrite (s : State) (v : BitVec 64) : State :=
  let p := HarnCtl.partition.get v
  s.took (match HarnCtl.cmd.get v with
    | 1 => execCommitSlotA s
    | 2 => execCommitSlotB s
    | 3 => execCommitPush s
    | 4 => execArm s
    | 5 => execDrain s
    | 6 => execWriteSlotA s
    | 7 => execWriteSlotB s
    | 8 => execRaiseSeq s
    | 9 => execStrapPush .pf p s
    | 10 => execUnload .pf p s
    | 11 => execRelease p s
    | k => .next (s.harnCommand k none (s.harnRefuse k none)))
/-- PART_STRAP_CTL of a partition's VF (R68). -/
def State.strapCtlWrite (s : State) (p : Nat) (v : BitVec 64) : State :=
  s.took (match PartStrapCtl.cmd.get v with
    | 9 => execStrapPush (.vf (p + 1)) p s
    | 10 => execUnload (.vf (p + 1)) p s
    | _ => .next s)
/-- CORE_CTL (R112). -/
def State.coreCtlWrite (s : State) (c : Nat) (v : BitVec 64) : State :=
  s.took (match CoreCtl.cmd.get v with
    | 1 => execResume c s
    | 2 => execStopAll c s
    | 3 => execClearFault c s
    | _ => .next s)
/-- DEV_CTL (R572). -/
def State.devCtlWrite (s : State) (v : BitVec 64) : State :=
  s.took (match DevCtl.cmd.get v with
    | 1 => execWarmReset s
    | 2 => execRaiseFwSeq s
    | _ => .next s)
/-- PART_STEP_CTL (R511). -/
def State.stepCtlWrite (s : State) (p : Nat) (v : BitVec 64) : State :=
  s.took (match PartStepCtl.cmd.get v with
    | 1 => execStepBegin p s
    | 2 => execStepClose p s
    | 3 => execStepCommit p s
    | _ => .next s)
/-- OPT_PORT_CTL (R395, R418): disable where the write changes it, then the loopback that it asks for (assumption 54). -/
def State.portCtlWrite (s : State) (k : Nat) (v : BitVec 64) : State :=
  let off := OptPortCtl.disable.get v
  let m := OptPortCtl.loop.get v
  let s1 := if s.fld (.optPortCtl k) OptPortCtl.disable = off then s else s.took (execPortDisable k (off = 1) s)
  s1.took (execOpticalLoopback k (Fin.ofNat 8 m) s1)

/-- CORE_SPM_REMAP (R224): a pair that passes its check has no effect. -/
def State.remapWrite (s : State) (c b i : Nat) (v : BitVec 64) : State :=
  if gfOk v then s else s.gfReject none (0x1000000 + 0x4000 * c + 0x1800 + 0x40 * b + 8 * i)
/-- HBM_SCRUB_CTL (R254): a period outside 1 to 720 hours leaves the field unchanged. -/
def State.scrubCtlWrite (s : State) (v : BitVec 64) : State :=
  let h := HbmScrubCtl.periodH.get v
  (if 1 ≤ h ∧ h ≤ 720 then s.setFld .hbmScrubCtl HbmScrubCtl.periodH h else s).setFld .hbmScrubCtl HbmScrubCtl.enable
    (HbmScrubCtl.enable.get v)
/-- PWR_SAG_CTL (R540): a threshold or percentage outside its range leaves the field unchanged. -/
def State.sagCtlWrite (s : State) (v : BitVec 64) : State :=
  let t := PwrSagCtl.threshold.get v
  let k := PwrSagCtl.pct.get v
  let s1 := if 405 ≤ t ∧ t ≤ 460 then s.setFld .pwrSagCtl PwrSagCtl.threshold t else s
  (if 25 ≤ k ∧ k ≤ 100 then s1.setFld .pwrSagCtl PwrSagCtl.pct k else s1).setFld .pwrSagCtl PwrSagCtl.cut (PwrSagCtl.cut.get v)
/-- The bases of an Ethernet queue are written while it is disabled (R443). -/
def State.baseWrite (s : State) (p i : Nat) (r : Reg) (v : BitVec 64) : State :=
  if s.ethCount p ≤ i ∨ s.fld (.partEthqCtl p i) PartEthqCtl.enable = 1 then s else s.setReg r v

/-- A write to a register as its block performs it: the register's own meaning, or the access codes of its fields. A write of
PART_AWL_WIN whose bits [17:0] are not 0, which R511 says they must be, is ignored whole (DESIGN CHOICE, assumption 61). -/
def State.writeReg (s : State) (r : Reg) (v : BitVec 64) : State :=
  match r with
  | .harnCtl => s.harnCtlWrite v
  | .harnBoot => s.took (execHarnBootWrite v s)
  | .devCtl => s.devCtlWrite v
  | .devLoopCtl => s.took (execDevLoopStart v s)
  | .stchCtl => if StchCtl.cmd.get v = 1 then s.took (execRejoin s) else s
  | .pwrSagCtl => s.sagCtlWrite v
  | .pwrGrant p => s.took (execPwrGrantWrite p v s)
  | .errRingRead => s.setReg r (if v.toNat ≤ (s.reg .errRingHead).toNat then v else s.reg .errRingHead)
  | .errAwlCtl => s.took (execAwlScheduledStart v s)
  | .errCapCtl b => s.took (execErrCapCtlWrite b v s)
  | .fabTableCtl => s.took (execFabTableCtlWrite v s)
  | .fabRoute n => s.took (execFabRouteWrite n v s)
  | .fabXlate n => s.took (execFabXlateWrite n v s)
  | .fabReach p i => s.took (execFabReachWrite p i v s)
  | .optPortCtl k => s.portCtlWrite k v
  | .hbmScrubCtl => s.scrubCtlWrite v
  | .hbmMarginCtl => s.took (execMarginStart v s)
  | .coreCtl c => s.coreCtlWrite c v
  | .coreMxInexact c => if (mfind s.cores c).isSome then s.plainWrite r v else s
  | .coreSpmRemap c b i => if (mfind s.cores c).isSome then s.remapWrite c b i v else s
  | .partStrapCtl p => s.strapCtlWrite p v
  | .partRxCtl p => s.took (execPartRxCtlWrite p v s)
  | .partGtackCtl p => s.took (execPartGtackCtlWrite p v s)
  | .partStchCtl p => s.took (execPartStchCtlWrite p v s)
  | .partRegion p i w => s.took (execPartRegionWrite p i w v s)
  | .partEthqCtl p i => s.took (execPartEthqCtlWrite p i v s)
  | .partEthqTxTail p i => s.took (execEthqTxTailWrite p i v s)
  | .partEthqRxTail p i => s.took (execEthqRxTailWrite p i v s)
  | .partEthqTxBase p i => s.baseWrite p i r v
  | .partEthqRxBase p i => s.baseWrite p i r v
  | .partEvtRead p => s.setReg r (if v.toNat ≤ (s.reg (.partEvtHead p)).toNat then v else s.reg (.partEvtHead p))
  | .partStepCtl p => s.stepCtlWrite p v
  | .partStepId p | .partStepRange p _ _ => if s.stepState p = 0 then s.plainWrite r v else s
  | .partReplayCtl p => if PartReplayCtl.start.get v = 1 then s.took (execReplayStart p s) else s
  | .partWdigCtl p => s.took (execCompare p v s)
  | .partAwlCtl p => s.took (execAwlDeclaration p v s)
  | .partAwlWin _ => if v.toNat % 2 ^ 18 = 0 then s.plainWrite r v else s
  | _ => s.plainWrite r v

/-- A write to an MSI-X table word: an entry whose mask it clears sends the message held for it (R436). -/
def State.msixWrite (s : State) (fn i : Nat) (v : BitVec 64) : State :=
  let s1 := { s with host := { s.host with msixTab := mset s.host.msixTab (fn * 128 + i) v } }
  if i % 2 = 1 ∧ wbits v 32 1 = 0 ∧ s.host.msixPend.contains (fn * 64 + i / 2) then
    { s1 with host := { s1.host with msixPend := s1.host.msixPend.filter (· ≠ fn * 64 + i / 2) } }.emit (.msix fn (i / 2))
  else s1

/-- A write to a place; nothing else takes one. -/
def State.writePlace (s : State) (b : BarPlace) (v : BitVec 64) : State :=
  match b with
  | .reg r => s.writeReg r v
  | .table fn i => s.msixWrite fn i v
  | _ => s

/-- Whether a write to a place still acts while the device is Fenced (R51, assumption 56): HARN_CTL, which refuses, DEV_CTL,
whose WARM_RESET is the way out, a VF's PART_STRAP_CTL, which refuses, and the MSI-X tables of PCI Express. -/
def BarPlace.whenFenced : BarPlace → Bool
  | .reg .harnCtl | .reg .devCtl | .reg (.partStrapCtl _) | .table _ _ => true
  | _ => false

/-- REGISTER_WRITE (R7, R431, R575): one that is not aligned is not performed, one to a PART view has no effect. -/
def execRegisterWrite (via : Path) (off : Nat) (v : BitVec 64) (s : State) : Host.Outcome State Fault Refusal :=
  commit s (Instr.wf (.registerWrite via off v)) (
    if off % 8 ≠ 0 then s
    else match via with
      | .pf =>
        if (viewOf off).isSome then s
        else if (pfPlace off).whenFenced then s.pfRead (s.writePlace (pfPlace off) v)
        else s.pfWrite (s.writePlace (pfPlace off) v)
      | .vf n =>
        let b := s.vfPlace (n - 1) off
        if b.whenFenced ∧ (mfind s.parts (n - 1)).isSome ∧ s.host.vfEnable then s.writePlace b v
        else s.vfWrite (n - 1) (s.writePlace b v))

/-- MALFORMED_BAR_ACCESS (R575): a request of another size or alignment is not performed; a read of it completes with
Unsupported Request. An aligned 8-byte request is none. -/
def execMalformedBarAccess (via : Path) (off size : Nat) (isWrite : Bool) (s : State) : Host.Outcome State Fault Refusal :=
  commit s (Instr.wf (.malformedBarAccess via off size isWrite)) (
    if s.pkg.booted ∧ !isWrite ∧ (size ≠ 8 ∨ off % 8 ≠ 0) then s.emit .unsupported else s)

/-- The domain temperature as its registers show it (R541). -/
def State.domainCode (s : State) (d : Nat) : Nat :=
  match s.domainTemp d with
  | some (t, _) => unsigned 16 t
  | none => 0x7FFF
/-- THRM_MAXHOLD_READ (R541, R579): the held maximum, then the current temperature is held. -/
def execThrmMaxholdRead (d : Nat) (s : State) : Host.Outcome State Fault Refusal :=
  commit s (Instr.wf (.thrmMaxholdRead d)) (s.pfRead (
    (s.emit (.readData (s.readReg (.thrmMaxhold d)))).setFld (.thrmMaxhold d) ThrmMaxhold.hold (s.domainCode d)))

/-- ERR_INTAKE_READ (R509, R579): the peak starts again. -/
def execErrIntakeRead (s : State) : Host.Outcome State Fault Refusal :=
  commit s (Instr.wf .errIntakeRead) (s.pfRead ((s.emit (.readData (s.readReg .errIntake))).setFld .errIntake ErrIntake.peak 0))

/-- IRQ_STATUS_CLEAR (R7, R436). -/
def execIrqStatusClear (which : IrqReg) (v : BitVec 64) (s : State) : Host.Outcome State Fault Refusal :=
  commit s (Instr.wf (.irqStatusClear which v)) (match which with
    | .part p => s.vfWrite p (s.plainWrite (.partIrqStat p) v)
    | .dev => s.pfWrite (s.plainWrite .devIrqStat v)
    | .pwr => s.pfWrite (s.plainWrite .pwrIrqStat v))

end Sys2Proof.Machine
end

