-- ==== Sys2Proof/Machine/Clock.lean ====
section
/-! DEFINITION. One edge of the 100 MHz board reference, 20 core cycles (R83, R308, R521, R523, R524, R550): what the block does when
no command waits (assumption 2). -/
namespace Sys2Proof.Machine

/-- Whether a core runs: CORE_STATE.state 1 (R112). -/
def State.coreRuns (s : State) (c : Nat) (k : Core) : Bool :=
  !s.isRetired c && !k.halted && (List.range 8).any (fun t => (k.thread t).started)

/-- Whether only the bucket of its partition holds the head of an engine's queue back (R524). -/
def State.headHeld (s : State) (c : Nat) (k : Core) (q : Part) (eng : Nat) : Bool :=
  match k.queue eng with
  | [] => false
  | d :: _ => decide (q.bucket ≤ 0) && !k.halted && !k.stopping && !s.isRetired c && s.waitOk c d

/-- The cores of a partition with their contents. -/
def State.coreList (s : State) (p : Nat) : List (Nat × Core) := s.cores.filter (fun x => s.granted p x.1)

/-- Twenty core cycles of a partition: the charge of its running cores, and the cycles that a head waited. -/
def State.partEdge (s : State) (p : Nat) : State :=
  match mfind s.parts p with
  | none => s
  | some q =>
    let ks := s.coreList p
    let run := ks.countP (fun x => s.coreRuns x.1 x.2)
    let s1 := s.charge p (20 * 5000 * run)
    if ks.any (fun x => (List.range 4).any (s.headHeld x.1 x.2 q)) then s1.wrapFld (.partPwrStat p) PartPwrStat.waited 20 else s1

/-- UPTIME_NS advances by 10 while the standby domain is powered and the reference is present (R308, R550). -/
def State.uptimeEdge (s : State) : State := { s with pkg := { s.pkg with uptime := s.pkg.uptime + 10 } }
/-- The core clocks of a device that is out of reset (R83). -/
def State.cycleEdge (s : State) : State := { s with pkg := { s.pkg with cycles := s.pkg.cycles + 20 } }

/-- One edge of the reference. -/
def State.edge (s : State) : State :=
  if s.pkg.standby ∧ s.pkg.refOk then
    let s1 := s.uptimeEdge
    if s.pkg.booted then
      let s2 := s1.partNums.foldl State.partEdge s1.cycleEdge
      if s2.pkg.uptime.toNat % 1000 = 0 then s2.refillBuckets else s2
    else s1
  else s

end Sys2Proof.Machine
end

