-- ==== Sys2Proof/Machine/Dispatch.lean ====
section
/-! DEFINITION. The meaning of every command: one direct call each. -/
namespace Sys2Proof.Machine

/-- What a command does. -/
def exec (i : Instr) (s : State) : Host.Outcome State Fault Refusal :=
  match i with
  | .commitSlotA => Sys2Proof.Machine.execCommitSlotA s
  | .commitSlotB => Sys2Proof.Machine.execCommitSlotB s
  | .commitPush => Sys2Proof.Machine.execCommitPush s
  | .arm => Sys2Proof.Machine.execArm s
  | .drain => Sys2Proof.Machine.execDrain s
  | .drainTakesEffect => Sys2Proof.Machine.execDrainTakesEffect s
  | .writeSlotA => Sys2Proof.Machine.execWriteSlotA s
  | .writeSlotB => Sys2Proof.Machine.execWriteSlotB s
  | .slotWriteDone => Sys2Proof.Machine.execSlotWriteDone s
  | .raiseSeq => Sys2Proof.Machine.execRaiseSeq s
  | .strapPush via p => Sys2Proof.Machine.execStrapPush via p s
  | .unload via p => Sys2Proof.Machine.execUnload via p s
  | .release p => Sys2Proof.Machine.execRelease p s
  | .releaseStepEnd => Sys2Proof.Machine.execReleaseStepEnd s
  | .strapQueueStart => Sys2Proof.Machine.execStrapQueueStart s
  | .treeCommitStepEnd r => Sys2Proof.Machine.execTreeCommitStepEnd r s
  | .harnTimeout => Sys2Proof.Machine.execHarnTimeout s
  | .strapCommitStepEnd => Sys2Proof.Machine.execStrapCommitStepEnd s
  | .harnBootWrite v => Sys2Proof.Machine.execHarnBootWrite v s
  | .registerWrite via off v => Sys2Proof.Machine.execRegisterWrite via off v s
  | .malformedBarAccess via off size isWrite => Sys2Proof.Machine.execMalformedBarAccess via off size isWrite s
  | .thrmMaxholdRead d => Sys2Proof.Machine.execThrmMaxholdRead d s
  | .errIntakeRead => Sys2Proof.Machine.execErrIntakeRead s
  | .irqStatusClear which v => Sys2Proof.Machine.execIrqStatusClear which v s
  | .add c rd rs1 rs2 => Sys2Proof.Machine.execAdd c rd rs1 rs2 s
  | .sub c rd rs1 rs2 => Sys2Proof.Machine.execSub c rd rs1 rs2 s
  | .and c rd rs1 rs2 => Sys2Proof.Machine.execAnd c rd rs1 rs2 s
  | .or c rd rs1 rs2 => Sys2Proof.Machine.execOr c rd rs1 rs2 s
  | .xor c rd rs1 rs2 => Sys2Proof.Machine.execXor c rd rs1 rs2 s
  | .shl c rd rs1 rs2 => Sys2Proof.Machine.execShl c rd rs1 rs2 s
  | .shr c rd rs1 rs2 => Sys2Proof.Machine.execShr c rd rs1 rs2 s
  | .sra c rd rs1 rs2 => Sys2Proof.Machine.execSra c rd rs1 rs2 s
  | .slt c rd rs1 rs2 => Sys2Proof.Machine.execSlt c rd rs1 rs2 s
  | .sltu c rd rs1 rs2 => Sys2Proof.Machine.execSltu c rd rs1 rs2 s
  | .min c rd rs1 rs2 => Sys2Proof.Machine.execMin c rd rs1 rs2 s
  | .max c rd rs1 rs2 => Sys2Proof.Machine.execMax c rd rs1 rs2 s
  | .mul c rd rs1 rs2 => Sys2Proof.Machine.execMul c rd rs1 rs2 s
  | .mulh c rd rs1 rs2 => Sys2Proof.Machine.execMulh c rd rs1 rs2 s
  | .div c rd rs1 rs2 => Sys2Proof.Machine.execDiv c rd rs1 rs2 s
  | .rem c rd rs1 rs2 => Sys2Proof.Machine.execRem c rd rs1 rs2 s
  | .addi c rd rs1 imm => Sys2Proof.Machine.execAddi c rd rs1 imm s
  | .andi c rd rs1 imm => Sys2Proof.Machine.execAndi c rd rs1 imm s
  | .ori c rd rs1 imm => Sys2Proof.Machine.execOri c rd rs1 imm s
  | .xori c rd rs1 imm => Sys2Proof.Machine.execXori c rd rs1 imm s
  | .shli c rd rs1 imm => Sys2Proof.Machine.execShli c rd rs1 imm s
  | .shri c rd rs1 imm => Sys2Proof.Machine.execShri c rd rs1 imm s
  | .srai c rd rs1 imm => Sys2Proof.Machine.execSrai c rd rs1 imm s
  | .slti c rd rs1 imm => Sys2Proof.Machine.execSlti c rd rs1 imm s
  | .sltui c rd rs1 imm => Sys2Proof.Machine.execSltui c rd rs1 imm s
  | .ld c w rd rs1 imm u => Sys2Proof.Machine.execLd c w rd rs1 imm u s
  | .st c w rs2 rs1 imm => Sys2Proof.Machine.execSt c w rs2 rs1 imm s
  | .reservedInstruction f => Sys2Proof.Machine.execReservedInstruction f s
  | .beq c rs1 rs2 imm => Sys2Proof.Machine.execBeq c rs1 rs2 imm s
  | .bne c rs1 rs2 imm => Sys2Proof.Machine.execBne c rs1 rs2 imm s
  | .blt c rs1 rs2 imm => Sys2Proof.Machine.execBlt c rs1 rs2 imm s
  | .bge c rs1 rs2 imm => Sys2Proof.Machine.execBge c rs1 rs2 imm s
  | .bltu c rs1 rs2 imm => Sys2Proof.Machine.execBltu c rs1 rs2 imm s
  | .bgeu c rs1 rs2 imm => Sys2Proof.Machine.execBgeu c rs1 rs2 imm s
  | .jal c rd imm => Sys2Proof.Machine.execJal c rd imm s
  | .lui c rd imm => Sys2Proof.Machine.execLui c rd imm s
  | .jalr c rd rs1 imm => Sys2Proof.Machine.execJalr c rd rs1 imm s
  | .csrr c rd csr => Sys2Proof.Machine.execCsrr c rd csr s
  | .csrw c rs1 csr => Sys2Proof.Machine.execCsrw c rs1 csr s
  | .tstart c rd rs1 => Sys2Proof.Machine.execTstart c rd rs1 s
  | .yield c => Sys2Proof.Machine.execYield c s
  | .quantumExpiry c => Sys2Proof.Machine.execQuantumExpiry c s
  | .endThread c => Sys2Proof.Machine.execEndThread c s
  | .fenceL c => Sys2Proof.Machine.execFenceL c s
  | .fld c rd rs1 u => Sys2Proof.Machine.execFld c rd rs1 u s
  | .fst c rs1 rs2 u => Sys2Proof.Machine.execFst c rs1 rs2 u s
  | .fadd32 c rd rs1 rs2 u => Sys2Proof.Machine.execFadd32 c rd rs1 rs2 u s
  | .fadd64 c rd rs1 rs2 u => Sys2Proof.Machine.execFadd64 c rd rs1 rs2 u s
  | .faddf c rd rs1 rs2 u => Sys2Proof.Machine.execFaddf c rd rs1 rs2 u s
  | .fcas32 c rd rs1 rs2 rs3 u => Sys2Proof.Machine.execFcas32 c rd rs1 rs2 rs3 u s
  | .fcas64 c rd rs1 rs2 rs3 u => Sys2Proof.Machine.execFcas64 c rd rs1 rs2 rs3 u s
  | .fswp32 c rd rs1 rs2 u => Sys2Proof.Machine.execFswp32 c rd rs1 rs2 u s
  | .fswp64 c rd rs1 rs2 u => Sys2Proof.Machine.execFswp64 c rd rs1 rs2 u s
  | .fmin32 c rd rs1 rs2 u => Sys2Proof.Machine.execFmin32 c rd rs1 rs2 u s
  | .fmin64 c rd rs1 rs2 u => Sys2Proof.Machine.execFmin64 c rd rs1 rs2 u s
  | .fmax32 c rd rs1 rs2 u => Sys2Proof.Machine.execFmax32 c rd rs1 rs2 u s
  | .fmax64 c rd rs1 rs2 u => Sys2Proof.Machine.execFmax64 c rd rs1 rs2 u s
  | .tset c t => Sys2Proof.Machine.execTset c t s
  | .tclr c t => Sys2Proof.Machine.execTclr c t s
  | .twait c t => Sys2Proof.Machine.execTwait c t s
  | .twaitc c t => Sys2Proof.Machine.execTwaitc c t s
  | .ttest c rd t => Sys2Proof.Machine.execTtest c rd t s
  | .gtset c g => Sys2Proof.Machine.execGtset c g s
  | .gtclr c g => Sys2Proof.Machine.execGtclr c g s
  | .gtwait c g => Sys2Proof.Machine.execGtwait c g s
  | .gtwaitc c g => Sys2Proof.Machine.execGtwaitc c g s
  | .gttest c rd g => Sys2Proof.Machine.execGttest c rd g s
  | .gtsetr c rs1 g => Sys2Proof.Machine.execGtsetr c rs1 g s
  | .cinch c line => Sys2Proof.Machine.execCinch c line s
  | .cinchRelease line => Sys2Proof.Machine.execCinchRelease line s
  | .rxarm c rs1 g => Sys2Proof.Machine.execRxarm c rs1 g s
  | .rxwait c rs1 => Sys2Proof.Machine.execRxwait c rs1 s
  | .issue c eng src rs1 => Sys2Proof.Machine.execIssue c eng src rs1 s
  | .descriptorComplete c eng k => Sys2Proof.Machine.execDescriptorComplete c eng k s
  | .resume c => Sys2Proof.Machine.execResume c s
  | .stopAll c => Sys2Proof.Machine.execStopAll c s
  | .clearFault c => Sys2Proof.Machine.execClearFault c s
  | .mma c u => Sys2Proof.Machine.execMma c u s
  | .matrixDrain c => Sys2Proof.Machine.execMatrixDrain c s
  | .lpLoad c u => Sys2Proof.Machine.execLpLoad c u s
  | .lpAdd c u => Sys2Proof.Machine.execLpAdd c u s
  | .zero c => Sys2Proof.Machine.execZero c s
  | .stripFailure c strip => Sys2Proof.Machine.execStripFailure c strip s
  | .vectorAdd c u => Sys2Proof.Machine.execVectorAdd c u s
  | .vectorMultiply c u => Sys2Proof.Machine.execVectorMultiply c u s
  | .vectorFma c u => Sys2Proof.Machine.execVectorFma c u s
  | .vectorMax c u => Sys2Proof.Machine.execVectorMax c u s
  | .vectorMin c u => Sys2Proof.Machine.execVectorMin c u s
  | .convert c u => Sys2Proof.Machine.execConvert c u s
  | .rowSum c u => Sys2Proof.Machine.execRowSum c u s
  | .rowMax c u => Sys2Proof.Machine.execRowMax c u s
  | .rowSoftmax c u => Sys2Proof.Machine.execRowSoftmax c u s
  | .division c u => Sys2Proof.Machine.execDivision c u s
  | .sqrt c u => Sys2Proof.Machine.execSqrt c u s
  | .rsqrt c u => Sys2Proof.Machine.execRsqrt c u s
  | .reciprocal c u => Sys2Proof.Machine.execReciprocal c u s
  | .exp2 c u => Sys2Proof.Machine.execExp2 c u s
  | .log2 c u => Sys2Proof.Machine.execLog2 c u s
  | .sinCos c u => Sys2Proof.Machine.execSinCos c u s
  | .tanh c u => Sys2Proof.Machine.execTanh c u s
  | .sigmoid c u => Sys2Proof.Machine.execSigmoid c u s
  | .erf c u => Sys2Proof.Machine.execErf c u s
  | .gelu c u => Sys2Proof.Machine.execGelu c u s
  | .copy c u => Sys2Proof.Machine.execCopy c u s
  | .fill c u => Sys2Proof.Machine.execFill c u s
  | .digest c u => Sys2Proof.Machine.execDigest c u s
  | .digestWithRoot c u => Sys2Proof.Machine.execDigestWithRoot c u s
  | .mcastPut c u => Sys2Proof.Machine.execMcastPut c u s
  | .mcastColl c u => Sys2Proof.Machine.execMcastColl c u s
  | .reduceScatter c u => Sys2Proof.Machine.execReduceScatter c u s
  | .reduceScatterCombine c k u => Sys2Proof.Machine.execReduceScatterCombine c k u s
  | .allGather c u => Sys2Proof.Machine.execAllGather c u s
  | .counts c u => Sys2Proof.Machine.execCounts c u s
  | .expand c u => Sys2Proof.Machine.execExpand c u s
  | .compact c u => Sys2Proof.Machine.execCompact c u s
  | .rowScan c u => Sys2Proof.Machine.execRowScan c u s
  | .rowPack c u => Sys2Proof.Machine.execRowPack c u s
  | .rowUnpack c u => Sys2Proof.Machine.execRowUnpack c u s
  | .gate c u => Sys2Proof.Machine.execGate c u s
  | .slots c u => Sys2Proof.Machine.execSlots c u s
  | .xchg c u => Sys2Proof.Machine.execXchg c u s
  | .combine c u => Sys2Proof.Machine.execCombine c u s
  | .pendingBlockWriteback d p => Sys2Proof.Machine.execPendingBlockWriteback d p s
  | .scrubRead k ch r => Sys2Proof.Machine.execScrubRead k ch r s
  | .hbmChannelLost k ch => Sys2Proof.Machine.execHbmChannelLost k ch s
  | .hbmStackLost k => Sys2Proof.Machine.execHbmStackLost k s
  | .marginStart v => Sys2Proof.Machine.execMarginStart v s
  | .marginDone low high => Sys2Proof.Machine.execMarginDone low high s
  | .stitchTick gf => Sys2Proof.Machine.execStitchTick gf s
  | .marker port payload crcOk sinceNs => Sys2Proof.Machine.execMarker port payload crcOk sinceNs s
  | .inputLost n => Sys2Proof.Machine.execInputLost n s
  | .standbyTakeover => Sys2Proof.Machine.execStandbyTakeover s
  | .segmentDeadline p => Sys2Proof.Machine.execSegmentDeadline p s
  | .slipToken n => Sys2Proof.Machine.execSlipToken n s
  | .cinchNote n => Sys2Proof.Machine.execCinchNote n s
  | .rejoin => Sys2Proof.Machine.execRejoin s
  | .partStchCtlWrite p v => Sys2Proof.Machine.execPartStchCtlWrite p v s
  | .partRxCtlWrite p v => Sys2Proof.Machine.execPartRxCtlWrite p v s
  | .partGtackCtlWrite p v => Sys2Proof.Machine.execPartGtackCtlWrite p v s
  | .flagRelease p u => Sys2Proof.Machine.execFlagRelease p u s
  | .read n u => Sys2Proof.Machine.execRead n u s
  | .atomic n u => Sys2Proof.Machine.execAtomic n u s
  | .write n u => Sys2Proof.Machine.execWrite n u s
  | .tackSet n => Sys2Proof.Machine.execTackSet n s
  | .xchgWrite n u => Sys2Proof.Machine.execXchgWrite n u s
  | .collWrite n u => Sys2Proof.Machine.execCollWrite n u s
  | .collCount n u => Sys2Proof.Machine.execCollCount n u s
  | .rspData n u => Sys2Proof.Machine.execRspData n u s
  | .rspAck n => Sys2Proof.Machine.execRspAck n s
  | .rspFault n => Sys2Proof.Machine.execRspFault n s
  | .ackCoalesceTimer k => Sys2Proof.Machine.execAckCoalesceTimer k s
  | .packetForward n => Sys2Proof.Machine.execPacketForward n s
  | .flitReceive port bytes => Sys2Proof.Machine.execFlitReceive port bytes s
  | .flitSlot port => Sys2Proof.Machine.execFlitSlot port s
  | .nak port => Sys2Proof.Machine.execNak port s
  | .nakRepeat port => Sys2Proof.Machine.execNakRepeat port s
  | .ackTimer port => Sys2Proof.Machine.execAckTimer port s
  | .replayTimeout port => Sys2Proof.Machine.execReplayTimeout port s
  | .fabTableCtlWrite v => Sys2Proof.Machine.execFabTableCtlWrite v s
  | .fabRouteWrite n v => Sys2Proof.Machine.execFabRouteWrite n v s
  | .fabXlateWrite n v => Sys2Proof.Machine.execFabXlateWrite n v s
  | .fabReachWrite p n v => Sys2Proof.Machine.execFabReachWrite p n v s
  | .gfTableReload tab n w copyOk => Sys2Proof.Machine.execGfTableReload tab n w copyOk s
  | .credReq port v => Sys2Proof.Machine.execCredReq port v s
  | .credHold port v => Sys2Proof.Machine.execCredHold port v s
  | .credFence port v => Sys2Proof.Machine.execCredFence port v s
  | .credSet port v => Sys2Proof.Machine.execCredSet port v s
  | .credDone port v => Sys2Proof.Machine.execCredDone port v s
  | .resyncTimeout port j asSender => Sys2Proof.Machine.execResyncTimeout port j asSender s
  | .pktAbort port v => Sys2Proof.Machine.execPktAbort port v s
  | .pktAbortAck port v => Sys2Proof.Machine.execPktAbortAck port v s
  | .ctrlResend port k => Sys2Proof.Machine.execCtrlResend port k s
  | .partRegionWrite p n w v => Sys2Proof.Machine.execPartRegionWrite p n w v s
  | .laneTag port line tag => Sys2Proof.Machine.execLaneTag port line tag s
  | .seekWaitEnd port => Sys2Proof.Machine.execSeekWaitEnd port s
  | .trainHello port v => Sys2Proof.Machine.execTrainHello port v s
  | .trainDone port => Sys2Proof.Machine.execTrainDone port s
  | .trainTimeout port => Sys2Proof.Machine.execTrainTimeout port s
  | .echoReq port token => Sys2Proof.Machine.execEchoReq port token s
  | .echoRsp port token rttNs => Sys2Proof.Machine.execEchoRsp port token rttNs s
  | .burnishDue port line => Sys2Proof.Machine.execBurnishDue port line s
  | .burnishReq port line => Sys2Proof.Machine.execBurnishReq port line s
  | .burnishReady port line => Sys2Proof.Machine.execBurnishReady port line s
  | .swap port lane line flit => Sys2Proof.Machine.execSwap port lane line flit s
  | .burnishDone port line => Sys2Proof.Machine.execBurnishDone port line s
  | .optRingAlarm port line side => Sys2Proof.Machine.execOptRingAlarm port line side s
  | .mislock port line wrongLine => Sys2Proof.Machine.execMislock port line wrongLine s
  | .mislockReport port line => Sys2Proof.Machine.execMislockReport port line s
  | .mislockDone port line failed => Sys2Proof.Machine.execMislockDone port line failed s
  | .laneMove port lane line flit => Sys2Proof.Machine.execLaneMove port lane line flit s
  | .retire port line => Sys2Proof.Machine.execRetire port line s
  | .optFeedLow j power => Sys2Proof.Machine.execOptFeedLow j power s
  | .feedRestored j power => Sys2Proof.Machine.execFeedRestored j power s
  | .slewMicrosecond => Sys2Proof.Machine.execSlewMicrosecond s
  | .portDisable port off => Sys2Proof.Machine.execPortDisable port off s
  | .opticalLoopback port mode => Sys2Proof.Machine.execOpticalLoopback port mode s
  | .ethFrameReceive e f fcs => Sys2Proof.Machine.execEthFrameReceive e f fcs s
  | .ethLinkUp e => Sys2Proof.Machine.execEthLinkUp e s
  | .ethLinkFail e => Sys2Proof.Machine.execEthLinkFail e s
  | .ethPeerReplayTimeout n => Sys2Proof.Machine.execEthPeerReplayTimeout n s
  | .ethTxComplete p q e => Sys2Proof.Machine.execEthTxComplete p q e s
  | .partEthqCtlWrite p n v => Sys2Proof.Machine.execPartEthqCtlWrite p n v s
  | .ethqTxTailWrite p n v => Sys2Proof.Machine.execEthqTxTailWrite p n v s
  | .ethqRxTailWrite p n v => Sys2Proof.Machine.execEthqRxTailWrite p n v s
  | .ethqIrqGap p n => Sys2Proof.Machine.execEthqIrqGap p n s
  | .hostCompletion tag st data => Sys2Proof.Machine.execHostCompletion tag st data s
  | .hostCompletionTimeout tag => Sys2Proof.Machine.execHostCompletionTimeout tag s
  | .vfFlr n => Sys2Proof.Machine.execVfFlr n s
  | .pfFlr => Sys2Proof.Machine.execPfFlr s
  | .vfEnableClear => Sys2Proof.Machine.execVfEnableClear s
  | .pcieHotReset => Sys2Proof.Machine.execPcieHotReset s
  | .getVersion tr => Sys2Proof.Machine.execGetVersion tr s
  | .getCapabilities tr => Sys2Proof.Machine.execGetCapabilities tr s
  | .negotiateAlgorithms tr => Sys2Proof.Machine.execNegotiateAlgorithms tr s
  | .getDigests tr => Sys2Proof.Machine.execGetDigests tr s
  | .getCertificate tr => Sys2Proof.Machine.execGetCertificate tr s
  | .challenge tr nonce => Sys2Proof.Machine.execChallenge tr nonce s
  | .getMeasurements tr nonce => Sys2Proof.Machine.execGetMeasurements tr nonce s
  | .setEndpointId eid => Sys2Proof.Machine.execSetEndpointId eid s
  | .pldmDiscovery => Sys2Proof.Machine.execPldmDiscovery s
  | .pldmSensorRead sensor => Sys2Proof.Machine.execPldmSensorRead sensor s
  | .pldmFirmwareUpdate bytes img => Sys2Proof.Machine.execPldmFirmwareUpdate bytes img s
  | .eventRecordWrite sealOk pathOk => Sys2Proof.Machine.execEventRecordWrite sealOk pathOk s
  | .errCapCtlWrite b v => Sys2Proof.Machine.execErrCapCtlWrite b v s
  | .awlScheduledStart v => Sys2Proof.Machine.execAwlScheduledStart v s
  | .awlDeclaration p v => Sys2Proof.Machine.execAwlDeclaration p v s
  | .awlKernelDone c expected found => Sys2Proof.Machine.execAwlKernelDone c expected found s
  | .stepBegin p => Sys2Proof.Machine.execStepBegin p s
  | .stepClose p => Sys2Proof.Machine.execStepClose p s
  | .stepFoldDone p => Sys2Proof.Machine.execStepFoldDone p s
  | .stepCommit p => Sys2Proof.Machine.execStepCommit p s
  | .replayStart p => Sys2Proof.Machine.execReplayStart p s
  | .compare p v => Sys2Proof.Machine.execCompare p v s
  | .powerSample vin iin pin => Sys2Proof.Machine.execPowerSample vin iin pin s
  | .sagWarn vinMin => Sys2Proof.Machine.execSagWarn vinMin s
  | .sagWarnEnd => Sys2Proof.Machine.execSagWarnEnd s
  | .sagReset vinMin => Sys2Proof.Machine.execSagReset vinMin s
  | .sagResetRelease => Sys2Proof.Machine.execSagResetRelease s
  | .pwrGrantWrite p v => Sys2Proof.Machine.execPwrGrantWrite p v s
  | .sensorRead rd => Sys2Proof.Machine.execSensorRead rd s
  | .tripHoldEnd => Sys2Proof.Machine.execTripHoldEnd s
  | .standbyPowerGood => Sys2Proof.Machine.execStandbyPowerGood s
  | .standbyPowerLoss => Sys2Proof.Machine.execStandbyPowerLoss s
  | .railRamp => Sys2Proof.Machine.execRailRamp s
  | .perstN high => Sys2Proof.Machine.execPerstN high s
  | .sysRstN high => Sys2Proof.Machine.execSysRstN high s
  | .warmReset => Sys2Proof.Machine.execWarmReset s
  | .raiseFwSeq => Sys2Proof.Machine.execRaiseFwSeq s
  | .trstN => Sys2Proof.Machine.execTrstN s
  | .bootStart straps => Sys2Proof.Machine.execBootStart straps s
  | .selftestReport d ok => Sys2Proof.Machine.execSelftestReport d ok s
  | .primaryTimeout => Sys2Proof.Machine.execPrimaryTimeout s
  | .bootDone => Sys2Proof.Machine.execBootDone s
  | .refclkLost => Sys2Proof.Machine.execRefclkLost s
  | .d2dRetry l => Sys2Proof.Machine.execD2dRetry l s
  | .d2dLinkLost l => Sys2Proof.Machine.execD2dLinkLost l s
  | .devLoopStart v => Sys2Proof.Machine.execDevLoopStart v s
  | .devLoopDone errors => Sys2Proof.Machine.execDevLoopDone errors s
  | .idcode => Sys2Proof.Machine.execIdcode s
  | .samplePreload pins => Sys2Proof.Machine.execSamplePreload pins s
  | .extest => Sys2Proof.Machine.execExtest s
  | .extestPulse => Sys2Proof.Machine.execExtestPulse s
  | .extestTrain => Sys2Proof.Machine.execExtestTrain s
  | .clamp => Sys2Proof.Machine.execClamp s
  | .highz => Sys2Proof.Machine.execHighz s
  | .bypass code => Sys2Proof.Machine.execBypass code s
  | .trainingStepEnd port ok lines => Sys2Proof.Machine.execTrainingStepEnd port ok lines s
  | .burnishStepEnd port line ok => Sys2Proof.Machine.execBurnishStepEnd port line ok s
  | .mislockSweepDone port line rx ok => Sys2Proof.Machine.execMislockSweepDone port line rx ok s
  | .mislockCheckEnd port line tagsOk => Sys2Proof.Machine.execMislockCheckEnd port line tagsOk s
  | .refclkRestored => Sys2Proof.Machine.execRefclkRestored s
  | .replayResponseTimeout p => Sys2Proof.Machine.execReplayResponseTimeout p s
  | .firmwareCopyWritten => Sys2Proof.Machine.execFirmwareCopyWritten s
  | .platformEventMessage g => Sys2Proof.Machine.execPlatformEventMessage g s
  | .msixUnmask via vec => Sys2Proof.Machine.execMsixUnmask via vec s
  | .pcieLinkUp => Sys2Proof.Machine.execPcieLinkUp s

end Sys2Proof.Machine
end

