-- ==== Sys2Proof/Safety.lean ====
section
/-! DEFINITION. The terms in which the statements speak: commands that complete, queues that hold commands of the package, what
an effect leaves unchanged, and when the Harness or a thread may go on. -/
namespace Sys2Proof.Machine

/-! ## Running -/

/-- Command `i` answers with a next state of which `P` holds. -/
def Completes (i : Instr) (s : State) (P : State → Prop) : Prop := ∃ t, exec i s = .next t ∧ P t

/-- Every waiting command names units that the package has. -/
def State.QueueOk (s : State) : Prop := ∀ i ∈ s.pending, i.wf = true

/-- The state after `n` steps, if none of them stops. -/
def State.steps : Nat → State → Option State
  | 0, s => some s
  | n + 1, s => match step s with
    | .next t => t.steps n
    | _ => none

/-- The register file is canonical: no register is listed twice, none at its reset word (R581). -/
def State.RegsOk (s : State) : Prop := (s.regs.map Prod.fst).Nodup ∧ ∀ p ∈ s.regs, p.2 ≠ p.1.resetWord

/-! ## Frames -/

/-- Between `s` and `t` only registers that `P` names, sent items and pending messages may differ. -/
def RegFrame (P : Reg → Bool) (s t : State) : Prop :=
  t = { s with regs := t.regs, host := { s.host with msixPend := t.host.msixPend }, out := t.out } ∧ ∀ r, P r = false → t.reg r = s.reg r

/-- Cores, partitions, tacks, arrivals, memories, fabric, Ethernet, tick, power, flash and package are unchanged. -/
def SameData (s t : State) : Prop :=
  t = { s with regs := t.regs, live := t.live, host := t.host, harn := t.harn, err := t.err, out := t.out, freeCtr := t.freeCtr }

/-- The scratchpad bytes of every core, the LLS slices and the HBM are unchanged. -/
def SameMemory (s t : State) : Prop :=
  (∀ c, (mfind t.cores c).map Core.spm = (mfind s.cores c).map Core.spm) ∧ t.lls = s.lls ∧ t.hbm = s.hbm

/-! ## The Harness -/

/-- The Harness takes commands: the device has booted and no test instruction holds it (R555, R569). -/
abbrev State.HarnOpen (s : State) : Prop := s.pkg.booted = true ∧ s.pkg.bootDone = true ∧ s.tapHolds = false

/-- A command is refused (R64, R67): HARN_STATUS shows result 3 and HARN_REFUSED; the device's state, the Harness, cores,
partitions, memories, fabric and tick are as they were. -/
def HarnRefused (s x : State) : Prop :=
  x.fld .harnStatus HarnStatus.result = 3 ∧ x.fld .harnStatus HarnStatus.code = 0x420A ∧ x.devState = s.devState ∧ SameData s x
  ∧ x.harn = s.harn
/-- A command that came through VF `p + 1` is refused: PART_STRAP_STATUS shows it. -/
def StrapRefused (p : Nat) (s x : State) : Prop :=
  x.fld (.partStrapStatus p) HarnStatus.result = 3 ∧ x.fld (.partStrapStatus p) HarnStatus.code = 0x420A ∧ SameData s x ∧ x.harn = s.harn
/-- The running operation has failed with a code (R48, R57, R68): none runs, HARN_STATUS shows result 2 and the code; the device's
state, the partitions and the staging store are as they were. -/
def HarnFailed (code : Nat) (s x : State) : Prop :=
  x.harn.op = none ∧ x.fld .harnState HarnState.busy = 0 ∧ x.fld .harnStatus HarnStatus.result = 2
  ∧ x.fld .harnStatus HarnStatus.code = code % 2 ^ 16 ∧ x.parts = s.parts ∧ x.devState = s.devState ∧ x.harn.staging = s.harn.staging

/-- The registers that a change of the device state may write. -/
def Reg.devMove : Reg → Bool
  | .harnState | .harnStatus | .devIrqStat | .partIrqStat _ => true
  | _ => false

/-! ## Registers -/

/-- Registers whose fields have no behaviour beyond their access codes (R7): a write to any other is a command of its own, is
conditional, or is bounded by a rule. -/
def Reg.plain : Reg → Bool
  | .harnCtl | .harnBoot | .devCtl | .devLoopCtl | .stchCtl | .pwrSagCtl | .pwrGrant _ | .errRingRead | .errAwlCtl | .errCapCtl _
  | .fabTableCtl | .fabRoute _ | .fabXlate _ | .fabReach _ _ | .optPortCtl _ | .hbmScrubCtl | .hbmMarginCtl | .coreCtl _
  | .coreMxInexact _ | .coreSpmRemap _ _ _ | .partStrapCtl _ | .partRxCtl _ | .partGtackCtl _ | .partStchCtl _ | .partRegion _ _ _
  | .partEthqCtl _ _ | .partEthqTxTail _ _ | .partEthqRxTail _ _ | .partEthqTxBase _ _ | .partEthqRxBase _ _ | .partEvtRead _
  | .partStepCtl _ | .partStepId _ | .partStepRange _ _ _ | .partReplayCtl _ | .partWdigCtl _ | .partAwlCtl _ | .partAwlWin _ => false
  | _ => true

/-- A field after a write of `v` to its register, by its access code (R7): its bits one by one. -/
def Fld.written (f : Fld) (old v new : Nat) : Prop :=
  match f.acc with
  | .rw => new = v
  | .w1c => ∀ i, new.testBit i = (old.testBit i && !v.testBit i)
  | .w1s => ∀ i, new.testBit i = (old.testBit i || v.testBit i)
  | _ => new = old

/-- The register that IRQ_STATUS_CLEAR names. -/
def irqReg : IrqReg → Reg
  | .part p => .partIrqStat p
  | .dev => .devIrqStat
  | .pwr => .pwrIrqStat

/-! ## Threads -/

/-- Thread `t` of core `c` runs and its next instruction is the word `w` (R73, R105). -/
def State.Runs (s : State) (c t w : Nat) : Prop :=
  ∃ k, mfind s.cores c = some k ∧ k.run = some t ∧ k.halted = false ∧ k.awl = none ∧ s.isRetired c = false
    ∧ (k.thread t).stat = .ready ∧ (k.thread t).pc < envAt (k.thread t).env 1 ∧ k.fetch t = w

/-- Of the cores only thread `t` of core `c` may differ, and of the running counts only the scalar engine's busy count. -/
def ThreadOnly (c t : Nat) (s x : State) : Prop :=
  (∀ d, d ≠ c → mfind x.cores d = mfind s.cores d)
  ∧ mfind x.cores c = (mfind s.cores c).map (fun k => k.setThread t (x.thread c t))
  ∧ ∀ r, r ≠ .coreBusySnap c 2 → regGet x.live r = regGet s.live r

/-- Thread `t` of core `c` holds `v` in register `rd`, unless that is g0, and goes on at `pc`; nothing else differs. -/
def Wrote (c t rd : Nat) (v : BitVec 64) (pc : Nat) (s x : State) : Prop :=
  x = { s with cores := x.cores, live := x.live } ∧ ThreadOnly c t s x
  ∧ x.thread c t = { s.thread c t with regs := (x.thread c t).regs, pc := pc }
  ∧ ∀ r, (x.thread c t).g r = if r = rd ∧ r ≠ 0 then v else (s.thread c t).g r

/-- Thread `t` of core `c` goes on at `pc` with its registers as they were. -/
def WentOn (c t pc : Nat) (s x : State) : Prop := ThreadOnly c t s x ∧ x.thread c t = { s.thread c t with pc := pc }

/-- The address of the instruction after the one that a thread is at. -/
def State.nextPc (s : State) (c t : Nat) : Nat := ((s.thread c t).pc + 4) % 2 ^ 32

/-- Core `c` has halted on a fault that it records (R108): cause, thread, engine and program counter; its queues are empty and
its threads stand where they were. -/
def Halted (c cause thread engine pc : Nat) (s x : State) : Prop :=
  x = { s with regs := x.regs, cores := x.cores, host := { s.host with msixPend := x.host.msixPend }, err := x.err, out := x.out }
  ∧ x.cores = mmod s.cores c (fun k => { k with halted := true, run := none, queues := [] })
  ∧ x.fld (.coreFault c) CoreFault.cause = cause ∧ x.fld (.coreFault c) CoreFault.thread = thread
  ∧ x.fld (.coreFault c) CoreFault.engine = engine ∧ x.fld (.coreFault c) CoreFault.pc = pc

/-! ## Bytes -/

/-- The byte that a memory holds at an address: of a scratchpad, of the LLS scratch space of a partition on a die, or, as the
stack holds it, of a partition's HBM region. -/
def State.byteAt (s : State) (l : Loc) (a : Nat) : Byte :=
  match l with
  | .spm c => match mfind s.cores c with
    | none => 0
    | some k => memGet k.spm a
  | .lls d p => memGet (s.slice d p).mem a
  | .hbm p => match s.hbmPlace p a with
    | none => 0
    | some (ch, byte) => memGet s.hbm.mem (hbmAddr ch byte)

/-- The bytes of `l` from `a` are `bs`, and every other byte of every scratchpad and LLS scratch space, and all of HBM, is as in
`s`. -/
def Stored (l : Loc) (a : Nat) (bs : List Byte) (s x : State) : Prop :=
  (∀ i, i < bs.length → x.byteAt l (a + i) = bs.getD i 0)
  ∧ (∀ c b, (l = .spm c ∧ a ≤ b ∧ b < a + bs.length) ∨ x.byteAt (.spm c) b = s.byteAt (.spm c) b)
  ∧ (∀ d p b, (l = .lls d p ∧ a ≤ b ∧ b < a + bs.length) ∨ x.byteAt (.lls d p) b = s.byteAt (.lls d p) b) ∧ x.hbm = s.hbm

/-! ## Descriptors -/

/-- The descriptor `d` of engine `eng` of core `c` has joined those in progress in `s`, with `left` transfers outstanding; the
core's queues hold what they held in `s`. -/
def Started (c eng left : Nat) (d : Desc) (s x : State) : Prop :=
  ∃ k k' a, mfind s.cores c = some k ∧ mfind x.cores c = some k' ∧ k'.active = k.active ++ [a]
    ∧ (∀ e, (k'.queue e).map Desc.words = (k.queue e).map Desc.words)
    ∧ a.eng = eng ∧ a.desc = d ∧ a.left = left ∧ a.silent = false ∧ a.failed = false

/-- Outside some spans of core `c`'s scratchpad every byte of every scratchpad is as in `s`, and so are the LLS slices and HBM. -/
def OnlySpans (c : Nat) (spans : List Span) (s x : State) : Prop :=
  (∀ d a, d ≠ c ∨ touches spans a = false → x.byteAt (.spm d) a = s.byteAt (.spm d) a) ∧ x.lls = s.lls ∧ x.hbm = s.hbm

/-- Core `c` has halted on a fault with this cause. -/
def Stopped (c cause : Nat) (x : State) : Prop :=
  (∃ k, mfind x.cores c = some k ∧ k.halted = true ∧ k.queues = []) ∧ x.fld (.coreFault c) CoreFault.cause = cause

/-! ## Events -/

/-- An event of this code stands in the intake, or in the overflow entry of its class (R493). -/
def State.Noted (s : State) (code : Nat) : Prop :=
  (∃ r ∈ s.err.intake, r.code = code) ∨ (mfind s.err.overflow (code / 4096)).isSome = true

/-- A counter field has grown by `n`, saturating (R7). -/
def Counted (r : Reg) (f : Fld) (n : Nat) (s x : State) : Prop := x.fld r f = min (2 ^ f.width - 1) (s.fld r f + n)

end Sys2Proof.Machine
end

