-- ==== Sys2Proof/Certificates/Slice0/Obligations.lean ====
section
/-! DEFINITION. The statements about the block: what each command does, what it leaves, and what every step keeps. -/
open Sys2Proof Sys2Proof.Machine

/-- ARM arms a Framed device; DRAIN takes it back to Framed unless a partition is Armed (R51, R62, R64, R67, R68). COMPLETES: ARM, DRAIN, DRAIN_TAKES_EFFECT. On a booted device that no test instruction holds: ARM in Framed with the Harness idle leaves the device Armed with HARN_STATUS.result 1, and ARM in Armed does the same and so leaves it Armed, which is the model's choice (assumption 50); ARM in another state, or while an operation runs or requests wait, is refused. DRAIN in Framed or Armed with the Harness idle and no granted partition Armed leaves the device Framed with result 1; with one Armed it is refused. While a strap commit or a RELEASE runs, or requests wait, DRAIN joins the end of the queue and nothing else changes; in Bare and Fenced, and during a tree commit or a slot write, it is refused. A recorded DRAIN at the front of the queue of an idle Harness leaves the queue and then does what DRAIN does at once. Where the device moves, nothing but HARN_STATE, HARN_STATUS, the interrupt status registers, sent and pending messages changes; a refusal shows result 3 and HARN_REFUSED and leaves the device's state, the queue, cores, partitions, memories, fabric and tick. -/
def Obligations.ArmAndDrainMoveTheDevice : Prop :=
  ∀ s : State,
    let up (st : Nat) (x t : State) : Prop := t.devState = st ∧ t.fld .harnStatus HarnStatus.result = 1 ∧ RegFrame Reg.devMove x t
    let armed : Prop := ∃ p ∈ s.partNums, s.partState p = 2
    (s.HarnOpen →
      (s.harnBusy = false → s.devState = 1 ∨ s.devState = 2 → Completes .arm s (up 2 s))
      ∧ (s.harnBusy = true ∨ s.devState = 0 ∨ s.devState = 3 → Completes .arm s (HarnRefused s))
      ∧ (s.devState = 1 ∨ s.devState = 2 → s.harn.op = none → s.harn.queue = [] →
          (¬ armed → Completes .drain s (up 1 s)) ∧ (armed → Completes .drain s (HarnRefused s)))
      ∧ (s.devState = 1 ∨ s.devState = 2 →
          (∃ r st, s.harn.op = some (.strap r st)) ∨ (∃ p st, s.harn.op = some (.release p st)) ∨ (s.harn.op = none ∧ s.harn.queue ≠ []) →
          Completes .drain s (fun t => t = { s with harn := { s.harn with queue := s.harn.queue ++ [none] } }))
      ∧ (s.devState = 0 ∨ s.devState = 3 ∨ (∃ a b c, s.harn.op = some (.tree a b c)) ∨ (∃ k, s.harn.op = some (.slotWrite k)) →
          Completes .drain s (HarnRefused s)))
    ∧ (∀ rest, s.harn.op = none → s.harn.queue = none :: rest →
        (¬ armed → Completes .drainTakesEffect s (up 1 { s with harn := { s.harn with queue := rest } }))
        ∧ (armed → Completes .drainTakesEffect s (HarnRefused { s with harn := { s.harn with queue := rest } })))

/-- RAISE_SEQ raises the fused minimum and never lowers it; a write of HARN_BOOT rewrites the copy of the slot control block that was not written last (R8, R32, R40, R51, R64, R67, R68). COMPLETES: RAISE_SEQ, HARN_BOOT_WRITE. On a booted device that no test instruction holds, RAISE_SEQ in Armed with the Harness idle leaves HARN_FUSE.min_sequence at the greater of its old value and the lesser of 64 and header word 5 of the committed image, with result 1, and changes only HARN_FUSE, HARN_STATUS, the interrupt status, sent and pending messages; in another state or beside an operation it is refused. A write of HARN_BOOT in a booted device that is not Fenced, with a pair that complements, stores the pair with the reserved bits of its grain 0 and rewrites the copy of the slot control block that is not in force: that copy is good, is the one then in force, says the two flags and a count one higher modulo 2^32, and the valid words as before; the other copy, both images and all else stay. A pair that does not complement leaves register and flash. In Fenced the write changes nothing. -/
def Obligations.RaiseSeqAndBootSettings : Prop :=
  ∀ s : State,
    (s.HarnOpen →
      (s.harnBusy = false → s.devState = 2 → Completes .raiseSeq s (fun t =>
        t.fld .harnFuse HarnFuse.minSequence = max (s.fld .harnFuse HarnFuse.minSequence) (min 64 (wordAt (grains s.harn.staging) 5))
        ∧ s.fld .harnFuse HarnFuse.minSequence ≤ t.fld .harnFuse HarnFuse.minSequence
        ∧ t.fld .harnStatus HarnStatus.result = 1
        ∧ RegFrame (fun r => decide (r ∈ [Reg.harnFuse, .harnStatus, .devIrqStat])) s t))
      ∧ (s.harnBusy = true ∨ s.devState ≠ 2 → Completes .raiseSeq s (HarnRefused s)))
    ∧ ∀ v : BitVec 64, s.pkg.booted = true →
      (s.devState ≠ 3 → gfOk v = true → Completes (.harnBootWrite v) s (fun t =>
        t.reg .harnBoot = gfPair (v.toNat % 4) ∧ t.flash.ctl.autoload = bitAt v.toNat 0 ∧ t.flash.ctl.preferred = bitAt v.toNat 1
        ∧ t.flash.ctl.count = (s.flash.ctl.count + 1) % 2 ^ 32
        ∧ t.flash.ctl.validA = s.flash.ctl.validA ∧ t.flash.ctl.validB = s.flash.ctl.validB
        ∧ (if s.flash.current = some false then t.flash.ctl0 = s.flash.ctl0 ∧ t.flash.ctl1.good = true ∧ t.flash.current = some true
           else t.flash.ctl1 = s.flash.ctl1 ∧ t.flash.ctl0.good = true ∧ t.flash.current = some false)
        ∧ t = { s with regs := t.regs, flash := { s.flash with ctl0 := t.flash.ctl0, ctl1 := t.flash.ctl1 } }
        ∧ ∀ r, r ≠ .harnBoot → t.reg r = s.reg r))
      ∧ (s.devState ≠ 3 → gfOk v = false → Completes (.harnBootWrite v) s (fun t => t.reg .harnBoot = s.reg .harnBoot ∧ t.flash = s.flash))
      ∧ (s.devState = 3 → Completes (.harnBootWrite v) s (fun t => t = s))

/-- A commit command in Bare, or in Framed when drained, starts step 1 of a tree commit (R37, R42, R60, R63, R64, R67, R68, R433, R434). COMPLETES: COMMIT_SLOT_A, COMMIT_SLOT_B, COMMIT_PUSH. On a booted device that no test instruction holds, with the Harness idle: in Bare COMMIT_SLOT_A and COMMIT_SLOT_B start a tree commit in step 1 whose image is what the flash holds in that slot, and COMMIT_PUSH, when the address is a multiple of 4,096 and the length one of 8, starts one that asks the host for the first pairs at HARN_PUSH_ADDR, 16 or fewer if the length holds fewer. HARN_STATE.busy reads 1, HARN_STATUS.step 1 and result 0; cores, partitions, memories, flash and package are unchanged, and every register but HARN_STATE and HARN_STATUS. While the PF is no bus master a push fails at once with HOST_ERR and HARN_REFUSED, the model's choice of code (assumption 49). In Framed with HARN_STATE.drained 1 each command takes the device to Bare, with every port Dark, and starts its commit there. In Framed not drained, in Armed and Fenced, and beside another operation, each is refused, and so is a push of another address or length. -/
def Obligations.TreeCommitsStart : Prop :=
  ∀ s : State, s.HarnOpen →
    let addr := s.fld .harnPushAddr HarnPushAddr.addr
    let len := s.fld .harnPushLen HarnPushLen.len
    let n := min 16 (len / 8)
    let fits : Prop := addr % 4096 = 0 ∧ len % 8 = 0
    let started (src : Nat) (t : State) : Prop :=
      t.harn.op = some (.tree src 1 false) ∧ t.fld .harnState HarnState.busy = 1 ∧ t.fld .harnStatus HarnStatus.step = 1
      ∧ t.fld .harnStatus HarnStatus.result = 0
    let kept (t : State) : Prop := SameData s t ∧ ∀ r, r ≠ .harnState → r ≠ .harnStatus → t.reg r = s.reg r
    let bare (t : State) : Prop := t.devState = 0 ∧ t.flash = s.flash ∧ ∀ k, k < 68 → t.portState k = 0
    (s.harnBusy = false → s.devState = 0 →
      Completes .commitSlotA s (fun t => started 1 t ∧ kept t ∧ t.harn.loader.img = s.flash.slotImage 0 ∧ t.out = s.out)
      ∧ Completes .commitSlotB s (fun t => started 2 t ∧ kept t ∧ t.harn.loader.img = s.flash.slotImage 1 ∧ t.out = s.out)
      ∧ (fits → s.host.busMaster.getLsbD 0 = true →
        Completes .commitPush s (fun t => started 3 t ∧ kept t ∧ t.harn.loader.todo = (if n = 0 then [] else [(0, n)])
          ∧ (0 < n → ∃ tag, t.out = s.out ++ [.hostRead 0 tag addr (8 * n)]) ∧ (n = 0 → t.out = s.out)))
      ∧ (fits → 0 < n → s.host.busMaster.getLsbD 0 = false → Completes .commitPush s (fun t => HarnFailed 0x420A s t ∧ t.Noted 0x4A03)))
    ∧ (s.harnBusy = false → s.devState = 1 → s.drained = true →
      Completes .commitSlotA s (fun t => started 1 t ∧ bare t ∧ t.harn.loader.img = s.flash.slotImage 0)
      ∧ Completes .commitSlotB s (fun t => started 2 t ∧ bare t ∧ t.harn.loader.img = s.flash.slotImage 1)
      ∧ (fits → s.host.busMaster.getLsbD 0 = true → Completes .commitPush s (fun t => started 3 t ∧ bare t)))
    ∧ (s.harnBusy = true ∨ (s.devState = 1 ∧ s.drained = false) ∨ s.devState = 2 ∨ s.devState = 3 →
      ∀ i ∈ [Instr.commitSlotA, .commitSlotB, .commitPush], Completes i s (HarnRefused s))
    ∧ (¬ fits → Completes .commitPush s (HarnRefused s))

/-- A slot write marks its slot invalid first, then holds the staged image and marks it valid (R38, R39, R40, R64, R67, R68, R451). COMPLETES: WRITE_SLOT_A, WRITE_SLOT_B, SLOT_WRITE_DONE. On a booted device that no test instruction holds, in Framed or Armed, with the Harness idle and no firmware update being written, WRITE_SLOT_A and WRITE_SLOT_B of a slot that is not the preferred one start a slot write, with HARN_STATE.busy 1 and HARN_STATUS.step 8, and leave the slot invalid; images and the other slot's valid word stay. The end of a slot write leaves the staged image in the slot and the slot valid, ends the operation with result 1 and busy 0, and leaves the other slot alone. Cores, partitions, memories and fabric are unchanged. A write of the preferred slot, one in Bare or Fenced, one beside another operation and one beside a firmware update are refused and leave the flash. -/
def Obligations.SlotWritesGuardTheSlot : Prop :=
  ∀ s : State,
    let kept (t : State) : Prop := t.cores = s.cores ∧ t.parts = s.parts ∧ t.lls = s.lls ∧ t.hbm = s.hbm ∧ t.fab = s.fab ∧ t.pkg = s.pkg
    let other (k : Nat) (t : State) : Prop := t.flash.slot (1 - k) = s.flash.slot (1 - k) ∧ t.flash.slotValid (1 - k) = s.flash.slotValid (1 - k)
    (s.HarnOpen → ∀ k i, (k, i) ∈ [(0, Instr.writeSlotA), (1, .writeSlotB)] →
      (s.harnBusy = false → s.devState = 1 ∨ s.devState = 2 → s.pkg.fwUpdate = none → s.fld .harnBoot HarnBoot.preferred ≠ k →
        Completes i s (fun t => t.harn.op = some (.slotWrite k) ∧ t.fld .harnState HarnState.busy = 1 ∧ t.fld .harnStatus HarnStatus.step = 8
          ∧ t.flash.slotValid k = false ∧ t.flash.slot k = s.flash.slot k ∧ other k t ∧ kept t))
      ∧ (s.harnBusy = true ∨ s.devState = 0 ∨ s.devState = 3 ∨ s.pkg.fwUpdate.isSome = true ∨ s.fld .harnBoot HarnBoot.preferred = k →
        Completes i s (HarnRefused s)))
    ∧ ∀ k, k < 2 → s.harn.op = some (.slotWrite k) →
        Completes .slotWriteDone s (fun t => t.harn.op = none ∧ t.flash.slot k = s.harn.staging ∧ t.flash.slotValid k = true ∧ other k t
          ∧ t.fld .harnState HarnState.busy = 0 ∧ t.fld .harnStatus HarnStatus.result = 1 ∧ kept t)

/-- Tree commit steps advance, the last frames the device, and a step that fails or exceeds its maximum ends the commit (R36, R42, R43, R46, R48, R49, R51, R67, R68). COMPLETES: TREE_COMMIT_STEP_END, HARN_TIMEOUT. Step 1 of an image that is read and passes its checks stages it and goes on to step 2; while its image is still being read its end changes nothing. Steps 2 and 5 go on to the next and change only the Harness and HARN_STATUS. Step 3 goes on to step 4 when every die-to-die link comes out with eight working modules, and fails with HARN_D2D_TRAIN when one does not. Step 6 of a commit in Bare whose digest matches leaves the device Framed with the operation over and result 1. An image that fails its checks fails with their code, a digest that does not match with HARN_DIGEST, and a timeout of any step with HARN_TIMEOUT: no operation runs, busy is 0, result 2, and the device's state, the partitions, the cores and the staging store are as before; a commit that autoload asked for is instead followed by that of the other slot, in step 1. -/
def Obligations.TreeCommitStepsAndTimeout : Prop :=
  ∀ (s : State) (r : TrainReport) (src st : Nat) (auto : Bool), s.harn.op = some (.tree src st auto) →
    let failed (code : Nat) (t : State) : Prop :=
      if auto = true then t.harn.op = some (.tree (2 - src + 1) 1 false) ∧ t.fld .harnState HarnState.busy = 1 ∧ t.devState = s.devState
      else HarnFailed code s t ∧ t.cores = s.cores
    let modules (l : Nat) : Nat := match r.links.find? (fun x => x.link = l) with
      | none => 8
      | some x => min 8 x.modules
    (st = 1 → s.harn.loader.todo = [] → Completes (.treeCommitStepEnd r) s (fun t =>
      match s.treeCheck s.harn.loader.img with
      | none => t.harn.op = some (.tree src 2 auto) ∧ t.harn.staging = s.harn.loader.img
        ∧ t = { s with regs := t.regs, harn := t.harn } ∧ ∀ q, q ≠ .harnStatus → t.reg q = s.reg q
      | some (code, _) => failed code t))
    ∧ (st = 1 → s.harn.loader.todo ≠ [] → Completes (.treeCommitStepEnd r) s (fun t => t = s))
    ∧ (st = 2 ∨ st = 5 →
      Completes (.treeCommitStepEnd r) s (fun t => t.harn.op = some (.tree src (st + 1) auto)
        ∧ t.fld .harnStatus HarnStatus.step = st + 1
        ∧ t = { s with regs := t.regs, harn := { s.harn with op := t.harn.op } } ∧ ∀ q, q ≠ .harnStatus → t.reg q = s.reg q))
    ∧ (st = 3 →
      ((∀ l, l < 8 → modules l = 8) → Completes (.treeCommitStepEnd r) s (fun t => t.harn.op = some (.tree src 4 auto)
        ∧ t.cores = s.cores ∧ t.parts = s.parts ∧ ∀ l, l < 8 → t.fld (.devD2d l) DevD2d.modules = 8))
      ∧ ((∃ l, l < 8 ∧ modules l < 8) → Completes (.treeCommitStepEnd r) s (failed 0x4206)))
    ∧ (st = 6 → s.devState = 0 → Completes (.treeCommitStepEnd r) s (fun t =>
      if digestOk (grains s.harn.staging) = true then t.harn.op = none ∧ t.devState = 1 ∧ t.fld .harnStatus HarnStatus.result = 1
      else failed 0x4208 t))
    ∧ Completes .harnTimeout s (failed 0x4209)

/-- Strap requests start or wait in order, under the conditions of R58, and UNLOAD frames the partition and keeps its memory (R52, R53, R58, R64, R67, R68, R428). COMPLETES: STRAP_PUSH, STRAP_QUEUE_START, UNLOAD. On a booted device that no test instruction holds, through the PF, or through the enabled VF of a granted partition: STRAP_PUSH for a Framed partition of an Armed device, whose address is a multiple of 4,096 and whose length one of 8, starts a strap commit when the Harness is idle and its function is a bus master, and joins the end of the queue, nothing else changing, while a strap commit or a RELEASE runs and fewer than 32 wait; for another partition or device state, another address or length, or with the queue full, it is refused. A queued request at the front of an idle Harness leaves the queue and starts when the conditions still hold and its function is a bus master; one that no longer meets them leaves the queue and is refused. UNLOAD of an Armed partition of a Framed or Armed device, the Harness idle, leaves the partition Framed with result 1, its digests 0, and every scratchpad byte, the LLS slices and the HBM as before; beside an operation it is refused, and, the model's choice (assumption 50), for a partition that is not Armed. A refusal shows result 3 and HARN_REFUSED, in HARN_STATUS for the PF and in PART_STRAP_STATUS for a VF. -/
def Obligations.StrapRequestsAndUnload : Prop :=
  ∀ (s : State),
    let refused (via : Path) (p : Nat) (x t : State) : Prop := (via = .pf → HarnRefused x t) ∧ (via ≠ .pf → StrapRefused p x t)
    let begun (p : Nat) (t : State) : Prop := t.fld .harnState HarnState.busy = 1 ∧ t.fld (.partStrapStatus p) HarnStatus.step = 7
      ∧ SameMemory s t ∧ t.parts = s.parts
    (∀ p (via : Path), p < 32 → s.HarnOpen → via = .pf ∨ (via = .vf (p + 1) ∧ s.host.vfEnable = true ∧ (mfind s.parts p).isSome = true) →
      let addr := if via = .pf then s.fld .harnPushAddr HarnPushAddr.addr else s.fld (.partStrapAddr p) PartStrapAddr.addr
      let len := if via = .pf then s.fld .harnPushLen HarnPushLen.len else s.fld (.partStrapLen p) PartStrapLen.len
      let r : StrapReq := ⟨p, addr, len, decide (via = .pf)⟩
      let good : Prop := s.strapAllowed p = true ∧ addr % 4096 = 0 ∧ len % 8 = 0
      let running : Prop := (∃ q st, s.harn.op = some (.strap q st)) ∨ ∃ q st, s.harn.op = some (.release q st)
      (good → s.harnBusy = false → s.host.busMaster.getLsbD (p + 1) = true →
        Completes (.strapPush via p) s (fun t => t.harn.op = some (.strap r 1) ∧ begun p t))
      ∧ (good → running → s.queuedStraps < 32 →
        Completes (.strapPush via p) s (fun t => t = { s with harn := { s.harn with queue := s.harn.queue ++ [some r] } }))
      ∧ (¬ good ∨ (running ∧ 32 ≤ s.queuedStraps) → Completes (.strapPush via p) s (refused via p s))
      ∧ (s.harnBusy = false → s.devState = 1 ∨ s.devState = 2 → s.partState p = 2 → s.fld (.partState p) PartState.releasing = 0 →
        Completes (.unload via p) s (fun t => t.partState p = 1
          ∧ t.fld (if via = .pf then .harnStatus else .partStrapStatus p) HarnStatus.result = 1
          ∧ (∀ i, i < 6 → t.reg (.partStrapDigest p i) = 0 ∧ t.reg (.partStrapKey p i) = 0) ∧ SameMemory s t))
      ∧ (s.harnBusy = true ∨ s.partState p ≠ 2 → Completes (.unload via p) s (refused via p s)))
    ∧ ∀ r rest, s.harn.op = none → s.harn.queue = some r :: rest → r.part < 32 →
      let x : State := { s with harn := { s.harn with queue := rest } }
      (s.strapAllowed r.part = true → s.host.busMaster.getLsbD (r.part + 1) = true →
        Completes .strapQueueStart s (fun t => t.harn.op = some (.strap r 1) ∧ t.harn.queue = rest ∧ begun r.part t))
      ∧ (s.strapAllowed r.part = false →
        Completes .strapQueueStart s (refused (if r.viaPf = true then .pf else .vf (r.part + 1)) r.part x))

/-- A strap commit arms its partition in its last step, and takes back what it wrote when it fails; RELEASE zeroes what the partition holds and frames it (R33, R52, R53, R56, R57, R67, R68, R446). COMPLETES: STRAP_COMMIT_STEP_END, HARN_TIMEOUT, RELEASE, RELEASE_STEP_END. Of a strap commit whose present ranges are read: step 1 of an image that passes its check goes on to step 2 when its function is a bus master; step 2 without a bad pair goes on to step 3; step 3 whose key passes records the digests and goes on to step 4; step 4, while the conditions of R58 hold, leaves the partition Armed with the operation over and result 1. A check that fails in step 1, a bad pair in step 2, a key that fails in step 3 and a timeout of any step end it with their code, and every scratchpad row that step 2 wrote reads zero. RELEASE of a granted partition of a Framed or Armed device, the Harness idle, starts its first step with releasing set; of another partition or beside an operation it is refused. Its first step ends once no descriptor of the partition is in progress, its second leaves every scratchpad byte of its cores zero and no slice of it, its third every HBM byte of its region zero with other HBM bytes as before, and its fourth leaves it Framed, not releasing, logs PART_RELEASED and ends the operation. -/
def Obligations.StrapCommitAndReleaseSteps : Prop :=
  ∀ (s : State),
    (∀ r st, s.harn.op = some (.strap r st) → r.part < 32 →
      let l := s.harn.loader
      let failed (code : Nat) (t : State) : Prop := HarnFailed code s t
        ∧ ∀ c a n, (c, a, n) ∈ l.rows → ∀ b, a ≤ b → b < a + n → t.byteAt (.spm c) b = 0
      let i := Instr.strapCommitStepEnd
      (l.todo = [] →
        (st = 1 → s.strapCheck r.part = none → s.host.busMaster.getLsbD (r.part + 1) = true →
          Completes i s (fun t => t.harn.op = some (.strap r 2) ∧ SameData s t))
        ∧ (∀ code, st = 1 → s.strapCheck r.part = some code → Completes i s (failed code))
        ∧ (st = 2 → l.bad = false → Completes i s (fun t => t.harn.op = some (.strap r 3) ∧ t.parts = s.parts
            ∧ ∀ c a, t.byteAt (.spm c) a = s.byteAt (.spm c) a))
        ∧ (st = 2 → l.bad = true → Completes i s (failed 0x4202))
        ∧ (∀ key, st = 3 → s.strapKey r.part l.img = some key → Completes i s (fun t => t.harn.op = some (.strap r 4) ∧ SameData s t
            ∧ ∀ j, j < 6 → t.reg (.partStrapDigest r.part j) = (toWords 6 (sha384 (imageBytes l.img))).getD j 0
              ∧ t.reg (.partStrapKey r.part j) = (toWords 6 key).getD j 0))
        ∧ (st = 3 → s.strapKey r.part l.img = none → Completes i s (failed 0x4212))
        ∧ (st = 4 → s.strapAllowed r.part = true →
          Completes i s (fun t => t.harn.op = none ∧ t.partState r.part = 2 ∧ t.fld .harnStatus HarnStatus.result = 1)))
      ∧ Completes .harnTimeout s (failed 0x4209))
    ∧ (∀ p, p < 32 → s.HarnOpen →
      (s.harnBusy = false → s.devState = 1 ∨ s.devState = 2 → (mfind s.parts p).isSome = true →
        Completes (.release p) s (fun t => t.harn.op = some (.release p 1) ∧ t.fld (.partState p) PartState.releasing = 1 ∧ SameMemory s t))
      ∧ (s.harnBusy = true ∨ mfind s.parts p = none → Completes (.release p) s (HarnRefused s)))
    ∧ (∀ p st, p < 32 → s.harn.op = some (.release p st) →
      let active : Prop := ∃ c ∈ s.coresOf p, ∃ k, mfind s.cores c = some k ∧ k.active ≠ []
      (st = 1 → active → Completes .releaseStepEnd s (fun t => t = s))
      ∧ (st = 1 → ¬ active → Completes .releaseStepEnd s (fun t => t.harn.op = some (.release p 2) ∧ SameData s t))
      ∧ (st = 2 → Completes .releaseStepEnd s (fun t => t.harn.op = some (.release p 3) ∧ t.hbm = s.hbm
        ∧ (∀ c ∈ s.coresOf p, ∀ a, (mfind t.cores c).map (fun k => memGet k.spm a) = (mfind s.cores c).map (fun _ => 0))
        ∧ (∀ d, (mfind t.lls (32 * d + p)).isNone = true)))
      ∧ (st = 3 → Completes .releaseStepEnd s (fun t => t.harn.op = some (.release p 4) ∧ t.cores = s.cores ∧ t.lls = s.lls
        ∧ ∀ a, memGet t.hbm.mem a = if s.inRegion p a then 0 else memGet s.hbm.mem a))
      ∧ (st = 4 → Completes .releaseStepEnd s (fun t => t.harn.op = none ∧ t.partState p = 1
        ∧ t.fld (.partState p) PartState.releasing = 0 ∧ t.Noted 0x4A01 ∧ SameMemory s t)))

/-- A register write changes each field of one register as its access code says, and nothing else (R6, R7, R429, R431, R436, R573). COMPLETES: REGISTER_WRITE, IRQ_STATUS_CLEAR. In a booted device that is not Fenced an aligned write through the PF to the offset of a register without behaviour of its own, and one through an existing VF of a granted partition, leaves each RW field at the written value, clears in each W1C field the bits written 1, sets in each W1S field the bits written 1, and leaves every other field, every other register and all other state. A clear of an interrupt status register does the same to that register: of the device or of power through the PF, of a granted partition through its VF. A write to a PART view of the PF, a write through the PF before the device has booted, one through the VF of a partition that is not granted, and a write in a Fenced device to any place but HARN_CTL, DEV_CTL, PART_STRAP_CTL and the MSI-X tables (these four are the model's choice, assumption 56) change nothing. -/
def Obligations.RegisterWritesFollowAccessCodes : Prop :=
  ∀ (s : State) (v : BitVec 64),
    let wrote (r : Reg) (t : State) : Prop :=
      (∀ f ∈ r.fields, f.written (s.fld r f) (f.get v) (t.fld r f)) ∧ t = { s with regs := t.regs } ∧ ∀ q, q ≠ r → t.reg q = s.reg q
    let same (t : State) : Prop := t = s
    let open_ (p : Nat) : Prop := p < 32 ∧ (mfind s.parts p).isSome = true ∧ s.host.vfEnable = true
    (s.pkg.booted = true → s.devState ≠ 3 →
      (∀ off r, off % 8 = 0 → viewOf off = none → pfPlace off = .reg r → r.plain = true → Completes (.registerWrite .pf off v) s (wrote r))
      ∧ Completes (.irqStatusClear .dev v) s (wrote .devIrqStat) ∧ Completes (.irqStatusClear .pwr v) s (wrote .pwrIrqStat))
    ∧ (∀ p, open_ p → s.devState ≠ 3 →
        (∀ off r, off % 8 = 0 → s.vfPlace p off = .reg r → r.plain = true → Completes (.registerWrite (.vf (p + 1)) off v) s (wrote r))
        ∧ Completes (.irqStatusClear (.part p) v) s (wrote (.partIrqStat p)))
    ∧ (∀ off, (viewOf off).isSome = true ∨ s.pkg.booted = false ∨ (s.devState = 3 ∧ (pfPlace off).whenFenced = false) →
        Completes (.registerWrite .pf off v) s same)
    ∧ (∀ p off, p < 32 → (mfind s.parts p).isSome = false ∨ (s.devState = 3 ∧ (s.vfPlace p off).whenFenced = false) →
        Completes (.registerWrite (.vf (p + 1)) off v) s same)
    ∧ (s.pkg.booted = false ∨ s.devState = 3 → Completes (.irqStatusClear .dev v) s same ∧ Completes (.irqStatusClear .pwr v) s same)
    ∧ (∀ p, p < 32 → (mfind s.parts p).isSome = false ∨ s.devState = 3 → Completes (.irqStatusClear (.part p) v) s same)

/-- A request to a BAR0 that is not a single aligned 8-byte access is not performed (R575). COMPLETES: MALFORMED_BAR_ACCESS. For a request whose size is not 8 bytes or whose offset is not a multiple of 8, through the PF or an existing VF: a read of a booted device answers Unsupported Request and changes nothing else, and one of a device that has not booted changes nothing; a write changes nothing. A register write at an offset that is not a multiple of 8 changes nothing either. -/
def Obligations.MalformedAccessIsNotPerformed : Prop :=
  ∀ (s : State) (via : Path) (off size : Nat), via.wf = true → size ≠ 8 ∨ off % 8 ≠ 0 →
    (s.pkg.booted = true →
      exec (.malformedBarAccess via off size false) s = .next { s with out := s.out ++ [.unsupported] })
    ∧ (s.pkg.booted = false → exec (.malformedBarAccess via off size false) s = .next s)
    ∧ exec (.malformedBarAccess via off size true) s = .next s
    ∧ ∀ v, off % 8 ≠ 0 → exec (.registerWrite via off v) s = .next s

/-- The two reads with side effects answer the register and restart what it holds (R509, R541, R579). COMPLETES: THRM_MAXHOLD_READ, ERR_INTAKE_READ. In a booted device a read of THRM_MAXHOLD of domain d answers the register's value and then holds the domain's current temperature; a read of ERR_INTAKE answers its value and leaves the peak 0, with the other fields as before. No other register and no other state changes. Before the device has booted neither read does anything. -/
def Obligations.ReadsWithSideEffects : Prop :=
  ∀ s : State, (s.pkg.booted = true →
    (∀ d, d < 23 → Completes (.thrmMaxholdRead d) s (fun t =>
      t.out = s.out ++ [.readData (s.readReg (.thrmMaxhold d))] ∧ t.fld (.thrmMaxhold d) ThrmMaxhold.hold = s.domainCode d
      ∧ t = { s with regs := t.regs, out := t.out } ∧ ∀ r, r ≠ .thrmMaxhold d → t.reg r = s.reg r))
    ∧ Completes .errIntakeRead s (fun t =>
      t.out = s.out ++ [.readData (s.readReg .errIntake)] ∧ t.fld .errIntake ErrIntake.peak = 0
      ∧ t.fld .errIntake ErrIntake.coalesced = s.fld .errIntake ErrIntake.coalesced
      ∧ t = { s with regs := t.regs, out := t.out } ∧ ∀ r, r ≠ .errIntake → t.reg r = s.reg r))
    ∧ (s.pkg.booted = false → (∀ d, d < 23 → Completes (.thrmMaxholdRead d) s (fun t => t = s)) ∧ Completes .errIntakeRead s (fun t => t = s))

/-- A completion retires its tag and hands its bytes to the descriptor that asked; a failed read faults the descriptor, a failed image read ends the commit (R100, R432, R434). COMPLETES: HOST_COMPLETION, HOST_COMPLETION_TIMEOUT. The completion without error of a read that the descriptor in progress of a core asked for, while it still waits for others, retires the tag, puts the bytes at their position in the descriptor's buffer and leaves it one transfer fewer to wait for; nothing outside that core and the host port changes. A completion with an error, or a timeout, of such a read retires the tag and halts the core: with CRC_BLOCK where the data were poisoned, else with NODE_UNREACHABLE. A failed or timed-out read of an image that no autoload asked for, of a pushed tree image or of a strap image, retires the tag and ends the commit with result 2 and HARN_REFUSED (that the code is HARN_REFUSED is the model's choice, assumption 49). A completion or timeout of an unknown tag changes nothing. -/
def Obligations.HostCompletionsReachTheirUser : Prop :=
  ∀ (s : State) (tag : Nat) (us : List Upset),
    (∀ q, mfind s.host.reqs tag = some q →
      (∀ c id pos k a, q.use = .dma c id pos → mfind s.cores c = some k → k.active = [a] → a.id = id →
        (∀ data, 2 ≤ a.left → data.length = q.len →
          Completes (.hostCompletion tag (.ok us) data) s (fun t =>
            t = { s with host := { s.host with reqs := mdel s.host.reqs tag }, cores := mset s.cores c { k with
              active := [{ a with buf := memWrite a.buf pos data, left := a.left - 1 }] } }))
        ∧ (s.fld (.coreFault c) CoreFault.cause = 0 →
          let faulted (cause : Nat) (t : State) : Prop := mfind t.host.reqs tag = none ∧ Stopped c cause t
          (∀ data, Completes (.hostCompletion tag .unsupported data) s (faulted cNode)
            ∧ Completes (.hostCompletion tag .aborted data) s (faulted cNode)
            ∧ Completes (.hostCompletion tag .poisoned data) s (faulted cCrc))
          ∧ Completes (.hostCompletionTimeout tag) s (faulted cNode)))
      ∧ (q.use = .loader →
          let failed (t : State) : Prop := mfind t.host.reqs tag = none ∧ t.harn.op = none
            ∧ t.fld .harnStatus HarnStatus.result = 2 ∧ t.fld .harnStatus HarnStatus.code = 0x420A
          let ends (P : State → Prop) : Prop :=
            (∀ st data, (∀ u, st ≠ .ok u) → Completes (.hostCompletion tag st data) s P) ∧ Completes (.hostCompletionTimeout tag) s P
          (s.harn.op = some (.tree 3 1 false) → ends (fun t => failed t ∧ t.cores = s.cores ∧ t.parts = s.parts))
          ∧ ∀ r st, s.harn.op = some (.strap r st) → ends failed))
    ∧ (mfind s.host.reqs tag = none →
        (∀ st data, Completes (.hostCompletion tag st data) s (fun t => t = s)) ∧ Completes (.hostCompletionTimeout tag) s (fun t => t = s))

/-- A function-level reset zeroes the VF's host registers and unloads an Armed partition, and keeps its memory (R444, R445, R551). COMPLETES: VF_FLR, PF_FLR, VF_ENABLE_CLEAR, PCIE_HOT_RESET. A VF FLR of partition p leaves every register of its host side zero, no host read of its function outstanding, and its MSI-X table at reset, frames the partition when it was Armed and not being released, ends a strap commit of the partition that runs and leaves none of it in the queue, and, unless a strap commit is running, keeps every scratchpad, the LLS slices and the HBM. A PF FLR and a hot reset zero HARN_PUSH_ADDR and HARN_PUSH_LEN, put the PF's MSI-X table at reset and do the same to every VF; clearing VF Enable does it to every VF and leaves VF Enable clear; a hot reset leaves the link down, with no width and no speed. -/
def Obligations.FunctionResetsClearTheHostSide : Prop :=
  ∀ s : State,
    let cleared (p : Nat) (t : State) : Prop :=
      (∀ r ∈ flrRegs p, t.reg r = 0) ∧ (∀ x ∈ t.host.reqs, x.2.fn ≠ p + 1) ∧ (∀ x ∈ t.host.msixTab, x.1 / 128 ≠ p + 1)
      ∧ (∀ r st, t.harn.op = some (.strap r st) → r.part ≠ p) ∧ ∀ r, some r ∈ t.harn.queue → r.part ≠ p
    let kept (t : State) : Prop := (∀ r st, s.harn.op ≠ some (.strap r st)) → SameMemory s t
    (∀ p, p < 32 → Completes (.vfFlr (p + 1)) s (fun t => cleared p t ∧ kept t
      ∧ (s.partState p = 2 → s.fld (.partState p) PartState.releasing = 0 → t.partState p = 1)))
    ∧ (let all (t : State) : Prop := kept t ∧ ∀ p, p < 32 → cleared p t
       let push (t : State) : Prop := t.reg .harnPushAddr = 0 ∧ t.reg .harnPushLen = 0 ∧ (∀ x ∈ t.host.msixTab, x.1 / 128 ≠ 0)
       Completes .pfFlr s (fun t => all t ∧ push t)
       ∧ Completes .vfEnableClear s (fun t => all t ∧ t.host.vfEnable = false)
       ∧ Completes .pcieHotReset s (fun t => all t ∧ push t ∧ t.host.linkUp = false ∧ t.host.linkWidth = 0 ∧ t.host.linkGen = 0))

/-- Link up opens the functions, and unmasking a vector sends the message held for it (R426, R436, R555). COMPLETES: PCIE_LINK_UP, MSIX_UNMASK. Link up of a booted device that no test instruction holds sets the link with a width of 1, 2, 4, 8 or 16 lanes and a generation of 1 to 6, both open, VF Enable and every Bus Master Enable (the last two are the model's choice, assumption 52) and changes nothing else; of any other device it changes nothing. Unmasking a vector of a function leaves it unmasked and not pending; when its message was held pending the message is sent, otherwise nothing is; no register changes. A vector that the function does not have changes nothing. -/
def Obligations.LinkUpAndUnmask : Prop :=
  ∀ s : State,
    ((s.pkg.booted = true → s.tapHolds = false → Completes .pcieLinkUp s (fun t =>
        t.host.linkWidth ∈ [1, 2, 4, 8, 16] ∧ 1 ≤ t.host.linkGen ∧ t.host.linkGen ≤ 6
        ∧ t = { s with freeCtr := t.freeCtr, host := { s.host with linkUp := true, linkWidth := t.host.linkWidth,
                                                                   linkGen := t.host.linkGen, vfEnable := true, busMaster := BitVec.allOnes 33 } }))
      ∧ (s.pkg.booted = false ∨ s.tapHolds = true → Completes .pcieLinkUp s (fun t => t = s)))
    ∧ ∀ (via : Path) (vec : Nat), via.wf = true →
      (vec < (if pathFn via = 0 then 16 else 64) → Completes (.msixUnmask via vec) s (fun t =>
        t.msixMasked (pathFn via) vec = false
        ∧ (pathFn via * 64 + vec ∈ s.host.msixPend →
            t.out = s.out ++ [.msix (pathFn via) vec] ∧ pathFn via * 64 + vec ∉ t.host.msixPend)
        ∧ (pathFn via * 64 + vec ∉ s.host.msixPend → t.out = s.out)
        ∧ t = { s with host := { s.host with msixTab := t.host.msixTab, msixPend := t.host.msixPend }, out := t.out }))
      ∧ ((if pathFn via = 0 then 16 else 64) ≤ vec → Completes (.msixUnmask via vec) s (fun t => t = s))

/-- Each class 0x0 instruction writes its result to rd and nothing else (R72, R78, R80). COMPLETES: ADD, SUB, AND, OR, XOR, SHL, SHR, SRA, SLT, SLTU, MIN, MAX, MUL, MULH, DIV, REM. When the running thread's next word is the class 0x0 word of a function and its registers, the command leaves rd holding the function's result on rs1 and rs2 (unless rd is g0, which keeps reading zero), every other register of the thread as before, the program counter 4 further modulo 2^32, and changes no other thread, core, register, memory or queue (the scalar engine's busy count apart). DIV by zero gives all ones, REM by zero gives rs1, the shifts take the low six bits of rs2. -/
def Obligations.AluRegisterResults : Prop :=
  ∀ (s : State) (c t : Nat) (rd rs1 rs2 : Fin 32), c < 512 →
    let a := s.gpr c t rs1
    let b := s.gpr c t rs2
    let sh := b.toNat % 64
    let does (f : Nat) (i : Instr) (v : BitVec 64) : Prop :=
      s.Runs c t (rd.val * 2 ^ 4 + rs1.val * 2 ^ 9 + rs2.val * 2 ^ 14 + f * 2 ^ 19) → Completes i s (Wrote c t rd v (s.nextPc c t) s)
    does 0 (.add c rd rs1 rs2) (a + b)
    ∧ does 1 (.sub c rd rs1 rs2) (a - b)
    ∧ does 2 (.and c rd rs1 rs2) (a &&& b)
    ∧ does 3 (.or c rd rs1 rs2) (a ||| b)
    ∧ does 4 (.xor c rd rs1 rs2) (a ^^^ b)
    ∧ does 5 (.shl c rd rs1 rs2) (a <<< sh)
    ∧ does 6 (.shr c rd rs1 rs2) (a >>> sh)
    ∧ does 7 (.sra c rd rs1 rs2) (a.sshiftRight sh)
    ∧ does 8 (.slt c rd rs1 rs2) (if a.toInt < b.toInt then 1 else 0)
    ∧ does 9 (.sltu c rd rs1 rs2) (if a.toNat < b.toNat then 1 else 0)
    ∧ does 10 (.min c rd rs1 rs2) (if b.toInt < a.toInt then b else a)
    ∧ does 11 (.max c rd rs1 rs2) (if a.toInt < b.toInt then b else a)
    ∧ does 12 (.mul c rd rs1 rs2) (a * b)
    ∧ does 13 (.mulh c rd rs1 rs2) (BitVec.ofInt 64 (a.toInt * b.toInt / 2 ^ 64))
    ∧ does 14 (.div c rd rs1 rs2) (if b = 0 then BitVec.ofInt 64 (-1) else BitVec.ofInt 64 (a.toInt.tdiv b.toInt))
    ∧ does 15 (.rem c rd rs1 rs2) (if b = 0 then a else BitVec.ofInt 64 (a.toInt.tmod b.toInt))

/-- Each class 0x1 instruction and LUI write their result to rd and nothing else (R72, R78, R80, R81). COMPLETES: ADDI, ANDI, ORI, XORI, SHLI, SHRI, SRAI, SLTI, SLTUI, LUI. As for class 0x0, with the second operand the immediate of 13 bits sign-extended to 64: when the running thread's next word is the class 0x1 word of the function, rd takes the result and the thread goes on 4 further. LUI leaves imm23 * 2^23 in rd. -/
def Obligations.AluImmediateResults : Prop :=
  ∀ (s : State) (c t : Nat) (rd rs1 : Fin 32) (imm : BitVec 13), c < 512 →
    let a := s.gpr c t rs1
    let b := imm.signExtend 64
    let sh := b.toNat % 64
    let does (f : Nat) (i : Instr) (v : BitVec 64) : Prop :=
      s.Runs c t (1 + rd.val * 2 ^ 4 + rs1.val * 2 ^ 9 + f * 2 ^ 14 + imm.toNat * 2 ^ 19) → Completes i s (Wrote c t rd v (s.nextPc c t) s)
    does 0 (.addi c rd rs1 imm) (a + b)
    ∧ does 2 (.andi c rd rs1 imm) (a &&& b)
    ∧ does 3 (.ori c rd rs1 imm) (a ||| b)
    ∧ does 4 (.xori c rd rs1 imm) (a ^^^ b)
    ∧ does 5 (.shli c rd rs1 imm) (a <<< sh)
    ∧ does 6 (.shri c rd rs1 imm) (a >>> sh)
    ∧ does 7 (.srai c rd rs1 imm) (a.sshiftRight sh)
    ∧ does 8 (.slti c rd rs1 imm) (if a.toInt < b.toInt then 1 else 0)
    ∧ does 9 (.sltui c rd rs1 imm) (if a.toNat < b.toNat then 1 else 0)
    ∧ ∀ u : BitVec 23, s.Runs c t (7 + rd.val * 2 ^ 4 + u.toNat * 2 ^ 9) →
        Completes (.lui c rd u) s (Wrote c t rd (BitVec.ofNat 64 (u.toNat * 2 ^ 23)) (s.nextPc c t) s)

/-- Branches go on at their target exactly when their condition holds; JAL and JALR link and jump (R78, R81, R82). COMPLETES: BEQ, BNE, BLT, BGE, BLTU, BGEU, JAL, JALR. When the running thread's next word is that of a branch, the thread goes on at its own address plus 4 times the signed immediate, modulo 2^32, if the condition holds, and 4 further otherwise, with its registers as before. JAL does so always and writes the address of the following instruction into rd. JALR does the same for the target rs1 plus 4 times its signed immediate when that is a multiple of 4, and otherwise halts the core with MISALIGN, register and program counter unchanged; its target is kept as a 64-bit value, which is the model's choice (assumption 65). Nothing else changes. -/
def Obligations.BranchesAndJumps : Prop :=
  ∀ (s : State) (c t : Nat), c < 512 →
    let pc := (s.thread c t).pc
    (∀ (rs1 rs2 : Fin 32) (imm : BitVec 13),
      let a := s.gpr c t rs1
      let b := s.gpr c t rs2
      let does (cond : Nat) (i : Instr) (p : Prop) : Prop :=
        s.Runs c t (5 + rs2.val * 2 ^ 4 + rs1.val * 2 ^ 9 + cond * 2 ^ 14 + imm.toNat * 2 ^ 19) → Completes i s (fun x =>
          (p → Wrote c t 0 0 (Int.emod ((pc : Int) + 4 * imm.toInt) (2 ^ 32)).toNat s x) ∧ (¬ p → Wrote c t 0 0 (s.nextPc c t) s x))
      does 0 (.beq c rs1 rs2 imm) (a = b)
      ∧ does 1 (.bne c rs1 rs2 imm) (a ≠ b)
      ∧ does 2 (.blt c rs1 rs2 imm) (a.toInt < b.toInt)
      ∧ does 3 (.bge c rs1 rs2 imm) (b.toInt ≤ a.toInt)
      ∧ does 4 (.bltu c rs1 rs2 imm) (a.toNat < b.toNat)
      ∧ does 5 (.bgeu c rs1 rs2 imm) (b.toNat ≤ a.toNat))
    ∧ (∀ (rd : Fin 32) (imm : BitVec 23), s.Runs c t (6 + rd.val * 2 ^ 4 + imm.toNat * 2 ^ 9) →
        Completes (.jal c rd imm) s (Wrote c t rd (BitVec.ofNat 64 (pc + 4)) (Int.emod ((pc : Int) + 4 * imm.toInt) (2 ^ 32)).toNat s))
    ∧ ∀ (rd rs1 : Fin 32) (imm : BitVec 13),
        s.Runs c t (10 + rd.val * 2 ^ 4 + rs1.val * 2 ^ 9 + 6 * 2 ^ 14 + imm.toNat * 2 ^ 19) →
        let tgt := (Int.emod ((s.gpr c t rs1).toInt + 4 * imm.toInt) (2 ^ 64)).toNat
        (tgt % 4 = 0 → Completes (.jalr c rd rs1 imm) s (Wrote c t rd (BitVec.ofNat 64 (pc + 4)) tgt s))
        ∧ (tgt % 4 ≠ 0 → s.fld (.coreFault c) CoreFault.cause = 0 →
            Completes (.jalr c rd rs1 imm) s (Halted c cMisalign (t % 8) 0xF (pc % 2 ^ 32) s))

/-- A local load reads little-endian bytes of the thread's window, a local store writes them, and bad offsets fault (R77, R78, R79, R104, R105, R202). COMPLETES: LD, ST. When the running thread's next word is a local load or store of 2^w bytes at offset rs1 plus its signed immediate: if the offset is a multiple of 2^w and the access ends within spm_limit, LD (with no storage error met) leaves the zero-extended bytes at spm_base plus the offset in rd and changes no memory, and ST, when no open step guards the bytes, leaves the low bytes of rs2 there, every other byte of every scratchpad, LLS and HBM as before. Otherwise the core halts: MISALIGN for a misaligned offset, BOUND beyond the limit, with no byte and no thread changed. -/
def Obligations.LocalLoadsAndStores : Prop :=
  ∀ (s : State) (c t : Nat) (w : Fin 4) (r rs1 : Fin 32) (imm : BitVec 13), c < 512 →
    let o := (s.gpr c t rs1 + imm.signExtend 64).toNat
    let a := envAt (s.thread c t).env 0 + o
    let n := 2 ^ w.val
    let lim := envAt (s.thread c t).env 1
    let word (cls : Nat) : Nat := cls + r.val * 2 ^ 4 + rs1.val * 2 ^ 9 + w.val * 2 ^ 14 + imm.toNat * 2 ^ 19
    let stops (i : Instr) : Prop := s.fld (.coreFault c) CoreFault.cause = 0 →
      (o % n ≠ 0 → Completes i s (Halted c cMisalign (t % 8) 0xF ((s.thread c t).pc % 2 ^ 32) s))
      ∧ (o % n = 0 → lim < o + n → Completes i s (Halted c cBound (t % 8) 0xF ((s.thread c t).pc % 2 ^ 32) s))
    (s.Runs c t (word 2) →
      (∀ k, mfind s.cores c = some k → o % n = 0 → o + n ≤ lim →
        Completes (.ld c w r rs1 imm []) s (Wrote c t r (BitVec.ofNat 64 (leNat (memRead k.spm a n))) (s.nextPc c t) s))
      ∧ stops (.ld c w r rs1 imm []))
    ∧ (s.Runs c t (word 3) →
      (∀ k, mfind s.cores c = some k → o % n = 0 → o + n ≤ lim → s.stepGuards (.spm c) a n = false →
        Completes (.st c w r rs1 imm) s (fun x =>
          x = { s with cores := x.cores, live := x.live }
          ∧ (∀ d, d ≠ c → mfind x.cores d = mfind s.cores d)
          ∧ x.thread c t = { s.thread c t with pc := s.nextPc c t } ∧ (∀ u, u ≠ t → x.thread c u = s.thread c u)
          ∧ ∃ k', mfind x.cores c = some k' ∧ memRead k'.spm a n = leBytes n (s.gpr c t r).toNat
            ∧ (∀ b, b < a ∨ a + n ≤ b → memGet k'.spm b = memGet k.spm b)
            ∧ (mget k'.blk (a / 4096) Blk.zero).valid = false))
      ∧ stops (.st c w r rs1 imm))

/-- A word of no instruction halts the core with ILLEGAL_INSN, a fetch beyond the limit with BOUND (R78, R105, R108, R201, R202, R482). COMPLETES: RESERVED_INSTRUCTION. When the word at the running thread's program counter is of no instruction and the core records no earlier fault, the core halts with ILLEGAL_INSN recorded against that thread and program counter: its queues are emptied, no thread's registers or program counters change, no memory changes. A fetch at or beyond spm_limit halts it with BOUND in the same way, whatever scalar command is next. A fetch that meets storage errors counts those corrected; one that loses a row halts the core with ENGINE_HW, whatever the word, and one that loses none halts it with ILLEGAL_INSN when the word is of no instruction. -/
def Obligations.ReservedInstructionFaults : Prop :=
  ∀ (s : State) (c t : Nat) (us : List Upset), c < 512 → s.fld (.coreFault c) CoreFault.cause = 0 →
    let pc := (s.thread c t).pc
    let met := s.upsets (.spm c) [(envAt (s.thread c t).env 0 + pc, 4)] us
    let stops (i : Instr) (cause : Nat) (s1 : State) : Prop := Completes i s (Halted c cause (t % 8) 0xF (pc % 2 ^ 32) s1)
    (∀ w, s.Runs c t w → wordValid w = false →
      stops (.reservedInstruction ⟨c, []⟩) cIllegal s)
    ∧ (∀ w, s.Runs c t w → met.1.fld (.coreFault c) CoreFault.cause = 0 →
        (met.2 ≠ .none → stops (.reservedInstruction ⟨c, us⟩) cHw met.1)
        ∧ (met.2 = .none → wordValid w = false → met.1.Runs c t w → stops (.reservedInstruction ⟨c, us⟩) cIllegal met.1))
    ∧ ∀ k, mfind s.cores c = some k → k.run = some t → k.halted = false → k.awl = none → s.isRetired c = false →
        (k.thread t).stat = .ready → envAt (k.thread t).env 1 ≤ (k.thread t).pc →
        ∀ i ∈ [Instr.reservedInstruction ⟨c, us⟩, .yield c, .endThread c, .fenceL c], stops i cBound s

/-- CSRR reads the numbered values, CSRW moves an envelope only within the PROGRAM section's, other numbers fault (R82, R83, R104, R106). COMPLETES: CSRR, CSRW. CSRR leaves in rd the thread number, the core, the partition, STCH_COUNT, UPTIME_NS, the cycles since the strap commit or an envelope field of the issuing or the named thread. CSRW of an envelope field, of the issuing or of the named thread, replaces that field when the envelope that results lies within the PROGRAM section's, and otherwise halts the core with BOUND, the envelope unchanged. A number that is not in the table, or for CSRW not writable, halts the core with ILLEGAL_INSN. -/
def Obligations.ControlAndStatusRegisters : Prop :=
  ∀ (s : State) (c t : Nat) (k : Core), c < 512 → mfind s.cores c = some k →
    (∀ (rd : Fin 32) (n : BitVec 13), s.Runs c t (10 + rd.val * 2 ^ 4 + n.toNat * 2 ^ 19) →
      let gives (v : BitVec 64) : Prop := Completes (.csrr c rd n) s (Wrote c t rd v (s.nextPc c t) s)
      (n.toNat = 0 → gives (BitVec.ofNat 64 t)) ∧ (n.toNat = 1 → gives (BitVec.ofNat 64 c))
      ∧ (∀ p, n.toNat = 2 → s.ownerOf c = some p → gives (BitVec.ofNat 64 p))
      ∧ (n.toNat = 3 → gives (BitVec.ofNat 64 s.count)) ∧ (n.toNat = 4 → gives s.pkg.uptime)
      ∧ (n.toNat = 5 → gives (BitVec.ofNat 64 (s.pkg.cycles - k.cycBase)))
      ∧ (∀ i, i < 6 → n.toNat = 0x100 + i → gives (BitVec.ofNat 64 (envAt (s.thread c t).env i)))
      ∧ (∀ u i, u < 8 → i < 6 → n.toNat = 0x200 + 8 * u + i → gives (BitVec.ofNat 64 (envAt (s.thread c u).env i)))
      ∧ (csrKnown n.toNat = false → s.fld (.coreFault c) CoreFault.cause = 0 →
          Completes (.csrr c rd n) s (Halted c cIllegal (t % 8) 0xF ((s.thread c t).pc % 2 ^ 32) s)))
    ∧ ∀ (rs1 : Fin 32) (n : BitVec 13), s.Runs c t (10 + rs1.val * 2 ^ 9 + 2 ^ 14 + n.toNat * 2 ^ 19) →
      (∀ i, i < 6 → n.toNat = 0x100 + i →
        let env := (padEnv (s.thread c t).env).set i (s.gpr c t rs1).toNat
        (envWithin env k.progEnv = true → Completes (.csrw c rs1 n) s (fun x => x = { s with cores := x.cores, live := x.live }
          ∧ ThreadOnly c t s x ∧ x.thread c t = { s.thread c t with env := env, pc := s.nextPc c t }))
        ∧ (envWithin env k.progEnv = false → s.fld (.coreFault c) CoreFault.cause = 0 →
            Completes (.csrw c rs1 n) s (Halted c cBound (t % 8) 0xF ((s.thread c t).pc % 2 ^ 32) s)))
      ∧ (∀ u i, u < 8 → i < 6 → n.toNat = 0x200 + 8 * u + i →
        let env := (padEnv (s.thread c u).env).set i (s.gpr c t rs1).toNat
        (envWithin env k.progEnv = true → Completes (.csrw c rs1 n) s (fun x => x = { s with cores := x.cores, live := x.live }
          ∧ ∀ v, x.thread c v = { s.thread c v with
              env := if v = u then env else (s.thread c v).env, pc := if v = t then s.nextPc c t else (s.thread c v).pc }))
        ∧ (envWithin env k.progEnv = false → s.fld (.coreFault c) CoreFault.cause = 0 →
            Completes (.csrw c rs1 n) s (Halted c cBound (t % 8) 0xF ((s.thread c t).pc % 2 ^ 32) s)))
      ∧ (csrWritable n.toNat = false → s.fld (.coreFault c) CoreFault.cause = 0 →
          Completes (.csrw c rs1 n) s (Halted c cIllegal (t % 8) 0xF ((s.thread c t).pc % 2 ^ 32) s))

/-- TSTART, YIELD, END, FENCE.L and the end of a quantum (R71, R72, R73, R74, R75, R82). COMPLETES: TSTART, YIELD, QUANTUM_EXPIRY, END, FENCE_L.L. TSTART of a stopped thread at an aligned entry leaves that thread ready there with cleared registers and the PROGRAM envelope, and 0 in rd; of a started thread it leaves 1 in rd and nothing else; an entry that is not 4-byte aligned halts the core with MISALIGN. YIELD and the end of a quantum pass the scalar engine to the next ready thread in ascending order, wrapping, YIELD after moving the thread 4 further. END of a thread whose descriptors have not all completed leaves it ending; of one without, while another thread is started, stopped. FENCE.L goes on when no far store of the thread is unacknowledged and parks it otherwise. -/
def Obligations.ThreadsStartYieldAndEnd : Prop :=
  ∀ (s : State) (c t : Nat) (k : Core), c < 512 → mfind s.cores c = some k →
    (∀ rd rs1 : Fin 32, s.Runs c t (10 + rd.val * 2 ^ 4 + rs1.val * 2 ^ 9 + 2 * 2 ^ 14) →
      let u := (s.gpr c t rs1).toNat % 8
      let entry := (s.gpr c t rs1).toNat / 2 ^ 32
      (entry % 4 ≠ 0 → s.fld (.coreFault c) CoreFault.cause = 0 →
        Completes (.tstart c rd rs1) s (Halted c cMisalign (t % 8) 0xF ((s.thread c t).pc % 2 ^ 32) s))
      ∧ (entry % 4 = 0 → (k.thread u).started = true → Completes (.tstart c rd rs1) s (Wrote c t rd 1 (s.nextPc c t) s))
      ∧ (entry % 4 = 0 → (k.thread u).started = false → Completes (.tstart c rd rs1) s (fun x =>
          x.thread c u = ⟨.ready, entry, [], k.progEnv, 0⟩ ∧ (x.thread c t).pc = s.nextPc c t
          ∧ (∀ r, (x.thread c t).g r = if r = rd ∧ r ≠ 0 then 0 else (s.thread c t).g r)
          ∧ (∀ v, v ≠ t → v ≠ u → x.thread c v = s.thread c v) ∧ x = { s with cores := x.cores, live := x.live })))
    ∧ (s.Runs c t (10 + 3 * 2 ^ 14) → Completes (.yield c) s (fun x =>
        x = { s with cores := x.cores, live := x.live } ∧ x.thread c t = { s.thread c t with pc := s.nextPc c t }
        ∧ (mfind x.cores c).map Core.run = some (k.nextReady t) ∧ ∀ u, u ≠ t → x.thread c u = s.thread c u))
    ∧ (k.run = some t → k.halted = false → s.isRetired c = false → Completes (.quantumExpiry c) s (fun x =>
        x = { s with cores := mset s.cores c { k with run := k.nextReady t } }))
    ∧ (s.Runs c t (10 + 4 * 2 ^ 14) →
        (k.busyThread t = true → Completes (.endThread c) s (fun x =>
          (x.thread c t).stat = .ending ∧ (x.thread c t).pc = s.nextPc c t ∧ SameMemory s x))
        ∧ (∀ u, k.busyThread t = false → u ≠ t → (u, k.thread u) ∈ k.threads → (k.thread u).stat = .ready →
          Completes (.endThread c) s (fun x =>
            (x.thread c t).stat = .stopped ∧ SameMemory s x ∧ (mfind x.cores c).map Core.taskSet = some k.taskSet)))
    ∧ (s.Runs c t (10 + 5 * 2 ^ 14) →
        ((s.thread c t).unacked = 0 → Completes (.fenceL c) s (Wrote c t 0 0 (s.nextPc c t) s))
        ∧ ((s.thread c t).unacked ≠ 0 → Completes (.fenceL c) s (fun x =>
            x.thread c t = { s.thread c t with stat := .parked .fence, pc := s.nextPc c t }
            ∧ (∀ u, u ≠ t → x.thread c u = s.thread c u) ∧ x = { s with cores := x.cores, live := x.live })))

/-- The core-tack functions set, clear, wait on and test one tack of the core (R73, R261, R262, R264). COMPLETES: TSET, TCLR, TWAIT, TWAITC, TTEST. For a tack that SYNC_USE lists: TSET, with no thread of the core parked on it, leaves it set and TCLR clear, every other tack of the core as before, a redundant change counted; with threads parked on it TSET makes each of them ready, and leaves the tack clear when one of them parked by TWAITC. TWAIT goes on when it is set and parks otherwise; TWAITC does the same and leaves the tack clear when it was set. TTEST leaves 1 or 0 in its register and the tack as it was. Each moves the thread 4 further and keeps its registers (TTEST but rd). A tack that SYNC_USE does not list halts the core with DESC_SYNC. -/
def Obligations.CoreTacksSetClearAndWait : Prop :=
  ∀ (s : State) (c t : Nat) (k : Core) (tk rd : Fin 32), c < 512 → mfind s.cores c = some k →
    let word (fn : Nat) : Nat := 9 + tk.val * 2 ^ 4 + fn * 2 ^ 14
    let v := s.fld (.coreTack c) CoreTack.value
    let setNow := v.testBit tk.val
    let parkedOn (cl : Bool) (x : State) : Prop := x = { s with cores := x.cores, live := x.live }
      ∧ x.thread c t = { s.thread c t with stat := .parked (.tack tk cl), pc := s.nextPc c t } ∧ ∀ u, u ≠ t → x.thread c u = s.thread c u
    (s.usesTack c tk = true →
      (s.Runs c t (word 0) → (∀ x ∈ k.threads, ∀ cl, x.2.stat ≠ .parked (.tack tk cl)) → Completes (.tset c tk) s (fun x =>
        WentOn c t (s.nextPc c t) s x ∧ x.fld (.coreTack c) CoreTack.value = v ||| 2 ^ tk.val
        ∧ (setNow = true → s.fld (.coreSyncStat c) CoreSyncStat.redundant + 1 < 2 ^ 32 →
            x.fld (.coreSyncStat c) CoreSyncStat.redundant = s.fld (.coreSyncStat c) CoreSyncStat.redundant + 1)
        ∧ x = { s with cores := x.cores, live := x.live, regs := x.regs }
        ∧ ∀ r, r ≠ .coreTack c → r ≠ .coreSyncStat c → x.reg r = s.reg r))
      ∧ (s.Runs c t (word 0) → ∀ u cl, (u, k.thread u) ∈ k.threads → (k.thread u).stat = .parked (.tack tk cl) →
        Completes (.tset c tk) s (fun x => (x.thread c u).stat = .ready ∧ (x.thread c t).pc = s.nextPc c t
          ∧ (cl = true → (x.fld (.coreTack c) CoreTack.value).testBit tk.val = false)))
      ∧ (s.Runs c t (word 1) → Completes (.tclr c tk) s (fun x =>
        WentOn c t (s.nextPc c t) s x ∧ (∀ i, (x.fld (.coreTack c) CoreTack.value).testBit i = (v.testBit i && decide (i ≠ tk.val)))
        ∧ x = { s with cores := x.cores, live := x.live, regs := x.regs }
        ∧ ∀ r, r ≠ .coreTack c → r ≠ .coreSyncStat c → x.reg r = s.reg r))
      ∧ (s.Runs c t (word 2) →
        (setNow = true → Completes (.twait c tk) s (Wrote c t 0 0 (s.nextPc c t) s))
        ∧ (setNow = false → Completes (.twait c tk) s (parkedOn false)))
      ∧ (s.Runs c t (word 3) →
        (setNow = true → Completes (.twaitc c tk) s (fun x => x.thread c t = { s.thread c t with pc := s.nextPc c t }
          ∧ (∀ i, (x.fld (.coreTack c) CoreTack.value).testBit i = (v.testBit i && decide (i ≠ tk.val)))
          ∧ (∀ u, u ≠ t → x.thread c u = s.thread c u) ∧ x = { s with cores := x.cores, live := x.live, regs := x.regs }
          ∧ ∀ r, r ≠ .coreTack c → r ≠ .coreSyncStat c → x.reg r = s.reg r))
        ∧ (setNow = false → Completes (.twaitc c tk) s (parkedOn true)))
      ∧ (s.Runs c t (word 4 + rd.val * 2 ^ 9) → Completes (.ttest c rd tk) s
          (Wrote c t rd (if setNow = true then 1 else 0) (s.nextPc c t) s)))
    ∧ (s.usesTack c tk = false → s.fld (.coreFault c) CoreFault.cause = 0 →
      ∀ fn i, (fn, i) ∈ [(0, Instr.tset c tk), (1, .tclr c tk), (2, .twait c tk), (3, .twaitc c tk), (4 + 32 * rd.val, .ttest c rd tk)] →
        s.Runs c t (9 + tk.val * 2 ^ 4 + fn % 32 * 2 ^ 14 + fn / 32 * 2 ^ 9) →
        Completes i s (Halted c cSync (t % 8) 0xF ((s.thread c t).pc % 2 ^ 32) s))

/-- The grid-tack functions set, clear, wait on and test one grid tack of the device (R73, R261, R262, R264). COMPLETES: GTSET, GTCLR, GTWAIT, GTWAITC, GTTEST. For a grid tack that the partition's SYNC_USE lists: GTSET, with no thread of the device parked on it, leaves it set and GTCLR clear, every other grid tack as before; with threads parked on it GTSET makes each of them ready, and leaves the tack clear when one of them parked by GTWAITC. GTWAIT goes on when it is set and parks otherwise; GTWAITC does the same and leaves it clear when it was set. GTTEST leaves 1 or 0 in its register and the tacks as they were. Each moves the thread 4 further and changes no memory. A tack that is not listed halts the core with DESC_SYNC. -/
def Obligations.GridTacksSetClearAndWait : Prop :=
  ∀ (s : State) (c t : Nat) (g : Fin 1024) (rd : Fin 32), c < 512 →
    let word (sub : Nat) : Nat := 9 + sub * 2 ^ 4 + 5 * 2 ^ 14 + g.val * 2 ^ 19
    let setNow := s.gtacks.getLsbD g.val
    let moved (x : State) : Prop := x.thread c t = { s.thread c t with pc := s.nextPc c t } ∧ SameMemory s x
    let parkedOn (cl : Bool) (x : State) : Prop := x = { s with cores := x.cores, live := x.live }
      ∧ x.thread c t = { s.thread c t with stat := .parked (.gtack g cl), pc := s.nextPc c t } ∧ ∀ u, u ≠ t → x.thread c u = s.thread c u
    (s.usesGtack c g = true →
      (s.Runs c t (word 0) → (∀ y ∈ s.cores, ∀ x ∈ y.2.threads, ∀ cl, x.2.stat ≠ .parked (.gtack g cl)) →
        Completes (.gtset c g) s (fun x => moved x ∧ ∀ i, x.gtacks.getLsbD i = (s.gtacks.getLsbD i || decide (i = g.val))))
      ∧ (s.Runs c t (word 0) → ∀ d k u cl, (d, k) ∈ s.cores → mfind s.cores d = some k → (u, k.thread u) ∈ k.threads →
        (k.thread u).stat = .parked (.gtack g cl) →
        Completes (.gtset c g) s (fun x => (x.thread d u).stat = .ready ∧ (x.thread c t).pc = s.nextPc c t ∧ SameMemory s x
          ∧ (cl = true → x.gtacks.getLsbD g.val = false)))
      ∧ (s.Runs c t (word 1) →
        Completes (.gtclr c g) s (fun x => moved x ∧ ∀ i, x.gtacks.getLsbD i = (s.gtacks.getLsbD i && decide (i ≠ g.val))))
      ∧ (s.Runs c t (word 2) →
        (setNow = true → Completes (.gtwait c g) s (Wrote c t 0 0 (s.nextPc c t) s))
        ∧ (setNow = false → Completes (.gtwait c g) s (parkedOn false)))
      ∧ (s.Runs c t (word 3) →
        (setNow = true →
          Completes (.gtwaitc c g) s (fun x => moved x ∧ ∀ i, x.gtacks.getLsbD i = (s.gtacks.getLsbD i && decide (i ≠ g.val))))
        ∧ (setNow = false → Completes (.gtwaitc c g) s (parkedOn true)))
      ∧ (s.Runs c t (word 4 + rd.val * 2 ^ 9) → Completes (.gttest c rd g) s
          (Wrote c t rd (if setNow = true then 1 else 0) (s.nextPc c t) s)))
    ∧ (s.usesGtack c g = false → s.fld (.coreFault c) CoreFault.cause = 0 →
      ∀ sub i, (sub, i) ∈ [(0, Instr.gtset c g), (1, .gtclr c g), (2, .gtwait c g), (3, .gtwaitc c g), (4, .gttest c rd g)] →
        s.Runs c t (word sub + (if sub = 4 then rd.val * 2 ^ 9 else 0)) →
        Completes i s (Halted c cSync (t % 8) 0xF ((s.thread c t).pc % 2 ^ 32) s))

/-- CINCH arrives at its line and parks; a line whose participants have all arrived releases them together (R73, R261, R274, R275, R278). COMPLETES: CINCH, CINCH_RELEASE. CINCH by a participating thread whose far stores are acknowledged parks it at the line and adds its arrival; with far stores outstanding it parks before arriving. By a thread or core outside the line's use it halts the core with DESC_SYNC. The release of a device-scope line at which every listed thread has arrived leaves no arrival there and every arrived thread that is still parked at it ready, and leaves as it was one that has been stopped since; a line where one is missing stays as it is. No memory changes. -/
def Obligations.CinchLinesGatherAndRelease : Prop :=
  ∀ (s : State) (line : Fin 64),
    (∀ (c t p : Nat), c < 512 → t < 8 → s.ownerOf c = some p → s.Runs c t (9 + 6 * 2 ^ 14 + line.val * 2 ^ 19) →
      (∀ u, s.lineUse p line = some u → u.mask.getLsbD t = true → c ∈ u.cores →
        ((s.thread c t).unacked = 0 → Completes (.cinch c line) s (fun x =>
          x.thread c t = { s.thread c t with stat := .parked (.cinch line), pc := s.nextPc c t }
          ∧ (x.cinch line).arrived = (s.cinch line).arrived ++ [c * 8 + t] ∧ (∀ l, l ≠ line.val → x.cinch l = s.cinch l)
          ∧ x = { s with cores := x.cores, live := x.live, cinches := x.cinches } ∧ ∀ v, v ≠ t → x.thread c v = s.thread c v))
        ∧ ((s.thread c t).unacked ≠ 0 → Completes (.cinch c line) s (fun x =>
          x.thread c t = { s.thread c t with stat := .parked (.cinchFence line), pc := s.nextPc c t } ∧ x.cinches = s.cinches)))
      ∧ (s.fld (.coreFault c) CoreFault.cause = 0 →
          (s.lineUse p line = none ∨ ∃ u, s.lineUse p line = some u ∧ (u.mask.getLsbD t = false ∨ c ∉ u.cores)) →
          Completes (.cinch c line) s (Halted c cSync (t % 8) 0xF ((s.thread c t).pc % 2 ^ 32) s)))
    ∧ ∀ p u, s.linePart line = some (p, u) → u.line = line.val → u.cores ≠ [] →
        (u.grid = false → s.allArrived u = true → Completes (.cinchRelease line) s (fun x =>
          x.cinch line = ⟨[], false, []⟩ ∧ SameMemory s x ∧ x.regs = s.regs
          ∧ (∀ a ∈ (s.cinch line).arrived, (s.thread (a / 8) (a % 8)).stat = .parked (.cinch line) → (x.thread (a / 8) (a % 8)).stat = .ready)
          ∧ ∀ c t, (s.thread c t).stat ≠ .parked (.cinch line) → x.thread c t = s.thread c t))
        ∧ (s.allArrived u = false → Completes (.cinchRelease line) s (fun x => x = s))

/-- RXARM arms a receive counter and fires at once when it is already there; RXWAIT parks until the threshold (R261, R267, R270). COMPLETES: RXARM, RXWAIT. With rs1[31:6] zero and the grid tack listed: RXARM of a counter below the threshold leaves it armed with tack and threshold, and sets nothing; of one that has reached it, with no thread parked on the tack, leaves it disarmed and the tack set. RXWAIT goes on when the threshold is reached and parks the thread otherwise. A set bit in rs1[31:6] halts the core with ILLEGAL_INSN, nothing armed, and RXARM for a tack that is not listed halts it with DESC_SYNC. -/
def Obligations.ReceiveCountersArmAndWait : Prop :=
  ∀ (s : State) (c t p : Nat) (rs1 : Fin 32) (g : Fin 1024), c < 512 → s.ownerOf c = some p →
    let v := s.gpr c t rs1
    let ctr := v.toNat % 64
    let thr := v.toNat / 2 ^ 32
    let wordArm : Nat := 9 + rs1.val * 2 ^ 9 + 7 * 2 ^ 14 + g.val * 2 ^ 19
    let wordWait : Nat := 9 + 2 ^ 4 + rs1.val * 2 ^ 9 + 7 * 2 ^ 14
    (v.toNat / 64 % 2 ^ 26 = 0 →
      (s.Runs c t wordArm → s.usesGtack c g = true →
        (reached (s.rxLow p ctr) thr = false → Completes (.rxarm c rs1 g) s (fun x =>
          x.thread c t = { s.thread c t with pc := s.nextPc c t } ∧ x.fld (.partRxArm p ctr) PartRxArm.armed = 1
          ∧ x.fld (.partRxArm p ctr) PartRxArm.tack = g.val ∧ x.fld (.partRxArm p ctr) PartRxArm.threshold = thr ∧ x.gtacks = s.gtacks
          ∧ x = { s with cores := x.cores, live := x.live, regs := x.regs } ∧ ∀ r, r ≠ .partRxArm p ctr → x.reg r = s.reg r))
        ∧ (reached (s.rxLow p ctr) thr = true → (∀ y ∈ s.cores, ∀ x ∈ y.2.threads, ∀ cl, x.2.stat ≠ .parked (.gtack g cl)) →
          Completes (.rxarm c rs1 g) s (fun x => x.fld (.partRxArm p ctr) PartRxArm.armed = 0 ∧ SameMemory s x
            ∧ ∀ i, x.gtacks.getLsbD i = (s.gtacks.getLsbD i || decide (i = g.val)))))
      ∧ (s.Runs c t wordArm → s.usesGtack c g = false → s.fld (.coreFault c) CoreFault.cause = 0 →
          Completes (.rxarm c rs1 g) s (Halted c cSync (t % 8) 0xF ((s.thread c t).pc % 2 ^ 32) s))
      ∧ (s.Runs c t wordWait →
        (reached (s.rxLow p ctr) thr = true → Completes (.rxwait c rs1) s (Wrote c t 0 0 (s.nextPc c t) s))
        ∧ (reached (s.rxLow p ctr) thr = false → Completes (.rxwait c rs1) s (fun x =>
            x.thread c t = { s.thread c t with stat := .parked (.rx ctr thr), pc := s.nextPc c t }
            ∧ x = { s with cores := x.cores, live := x.live }))))
    ∧ (v.toNat / 64 % 2 ^ 26 ≠ 0 → s.fld (.coreFault c) CoreFault.cause = 0 →
      (s.Runs c t wordArm → Completes (.rxarm c rs1 g) s (Halted c cIllegal (t % 8) 0xF ((s.thread c t).pc % 2 ^ 32) s))
      ∧ (s.Runs c t wordWait → Completes (.rxwait c rs1) s (Halted c cIllegal (t % 8) 0xF ((s.thread c t).pc % 2 ^ 32) s)))

/-- ISSUE captures the eight words of a descriptor at the end of its engine's queue, or faults as its header says (R81, R84, R85, R86, R87, R202). COMPLETES: ISSUE. With a header of the named engine whose fields are legal and whose tacks SYNC_USE lists, and fewer than 16 entries in the queue, ISSUE from registers 8, 16 or 24 on, and ISSUE from a 64-byte aligned scratchpad offset within the limit, add the words with thread, program counter and envelope at the queue's end and move the thread 4 further; no other queue, no register and no memory changes. A full queue parks the thread with the queue as it was. A bad header halts the core with DESC_INVALID, an unlisted tack with DESC_SYNC, recorded against the scalar engine with the descriptor's tag (the engine recorded is the model's choice, assumption 67). Any other first register halts it with ILLEGAL_INSN, a misaligned offset with MISALIGN, one beyond the limit with BOUND, and a read that loses a row of the scratchpad with ENGINE_HW. -/
def Obligations.IssueCapturesTheDescriptor : Prop :=
  ∀ (s : State) (c t : Nat) (k : Core) (eng : Fin 4) (fromRegs : Bool) (rs1 : Fin 32), c < 512 → mfind s.cores c = some k →
    s.Runs c t (8 + eng.val * 2 ^ 4 + (if fromRegs then 1 else 0) * 2 ^ 7 + rs1.val * 2 ^ 9) →
    let from_ (us : List Upset) : DescSource := if fromRegs then .regs else .spm us
    let stops (us : List Upset) (cause : Nat) (s1 : State) : Prop := s1.fld (.coreFault c) CoreFault.cause = 0 →
      Completes (.issue c eng (from_ us) rs1) s (Halted c cause (t % 8) 0xF ((s.thread c t).pc % 2 ^ 32) s1)
    let o := (s.gpr c t rs1).toNat
    let met (us : List Upset) := s.readSpans (.spm c) [(envAt (s.thread c t).env 0 + o, 64)] us
    (fromRegs = true → rs1.val ≠ 8 → rs1.val ≠ 16 → rs1.val ≠ 24 → ∀ us, stops us cIllegal s)
    ∧ (fromRegs = false → ∀ us, (o % 64 ≠ 0 → stops us cMisalign s)
        ∧ (o % 64 = 0 → envAt (s.thread c t).env 1 < o + 64 → stops us cBound s)
        ∧ (o % 64 = 0 → o + 64 ≤ envAt (s.thread c t).env 1 → (met us).2.2 ≠ .none → stops us cHw (met us).1))
    ∧ ∀ ws : List (BitVec 64),
      (if fromRegs then (rs1.val = 8 ∨ rs1.val = 16 ∨ rs1.val = 24) ∧ ws = (List.range 8).map (fun i => s.gpr c t (rs1 + i))
       else o % 64 = 0 ∧ o + 64 ≤ envAt (s.thread c t).env 1
              ∧ ws = toWords 8 (memRead k.spm (envAt (s.thread c t).env 0 + o) 64)) →
      let d : Desc := ⟨ws, t, (s.thread c t).pc, (s.thread c t).env, false⟩
      let blamed (cause : Nat) : Prop := Completes (.issue c eng (from_ []) rs1) s (fun x =>
        Halted c cause (t % 8) 0xF ((s.thread c t).pc % 2 ^ 32) s x ∧ x.fld (.coreFault c) CoreFault.tag = wbits (ws.getD 0 0) 40 8)
      (headerBad (ws.getD 0 0) eng = false → s.tackListed c d.wait = true → s.tackListed c d.set = true →
        ((k.queue eng).length < 16 → Completes (.issue c eng (from_ []) rs1) s (fun x =>
          x = { s with cores := x.cores, live := x.live } ∧ (∀ e, e ≠ c → mfind x.cores e = mfind s.cores e)
          ∧ x.thread c t = { s.thread c t with pc := s.nextPc c t } ∧ (∀ u, u ≠ t → x.thread c u = s.thread c u)
          ∧ ∃ k', mfind x.cores c = some k' ∧ k'.queue eng = k.queue eng ++ [d] ∧ (∀ e, e ≠ eng.val → k'.queue e = k.queue e)
            ∧ k'.spm = k.spm ∧ k'.active = k.active))
        ∧ (16 ≤ (k.queue eng).length → Completes (.issue c eng (from_ []) rs1) s (fun x =>
          x = { s with cores := x.cores } ∧ x.thread c t = { s.thread c t with stat := .parked (.queueFull eng) }
          ∧ (mfind x.cores c).map Core.queues = some k.queues)))
      ∧ (s.fld (.coreFault c) CoreFault.cause = 0 →
        (headerBad (ws.getD 0 0) eng = true → blamed cDesc)
        ∧ (headerBad (ws.getD 0 0) eng = false → (s.tackListed c d.wait && s.tackListed c d.set) = false → blamed cSync))

/-- Far loads, stores and atomics on the thread's own scratchpad window read, modify and write it and answer the old value (R97, R105, R352, R359, R360, R362, R363, R364). COMPLETES: FLD, FST, FADD32, FADD64, FADDF, FCAS32, FCAS64, FSWP32, FSWP64, FMIN32, FMIN64, FMAX32, FMAX64. For an address that names the own device, partition and scratchpad, aligned to the access and within the thread's window, with no open step guarding it and no storage error met: FLD leaves the eight bytes in rd, FST leaves rs2 there, the integer atomics leave the sum, the swapped, the compared-and-swapped, the lesser or the greater value (signed), each of 32 or 64 bits, and the old value sign-extended in rd, and FADDF adds an FP32 value to a long partial of the exact class and leaves the old one rounded to FP32 in rd. The thread is ready 4 further; every other byte, thread and core is as before, and every register of the block. A misaligned address halts the core with MISALIGN and one whose bytes pass the window's limit with BOUND; FADDF on a long partial of the wide class halts it with DESC_INVALID; FST with 16 far stores unacknowledged parks the thread and writes nothing. -/
def Obligations.FarAccessesToTheOwnScratchpad : Prop :=
  ∀ (s : State) (c t p : Nat) (k : Core) (rd rs1 rs2 rs3 : Fin 32), c < 512 → mfind s.cores c = some k → s.ownerOf c = some p →
    s.noLogical = false →
    let addr := (s.gpr c t rs1).toNat
    bitsOf addr 54 10 = s.ownLnode → bitsOf addr 49 5 = p → bitsOf addr 46 3 = 0 → bitsOf addr 21 25 = c →
    let o := addr % 2 ^ 21
    let a := envAt (s.thread c t).env 0 + o
    let op := (s.gpr c t rs2).toNat
    let cmp := (s.gpr c t rs3).toNat
    let cur (n : Nat) : Nat := leNat (memRead k.spm a n)
    let word (fn : Nat) : Nat := 4 + rd.val * 2 ^ 4 + rs1.val * 2 ^ 9 + rs2.val * 2 ^ 14 + fn * 2 ^ 19 + rs3.val * 2 ^ 24
    let does (fn n : Nat) (i : Instr) (new : Nat) (dest : Nat) (back : BitVec 64) : Prop :=
      s.Runs c t (word fn) → addr % n = 0 → o + n ≤ envAt (s.thread c t).env 1 → (fn = 0 ∨ s.stepGuards (.spm c) a n = false) →
      (fn = 1 → (s.thread c t).unacked < 16) → Completes i s (fun x => x = { s with cores := x.cores, live := x.live } ∧ (∀ d, d ≠ c → mfind x.cores d = mfind s.cores d)
        ∧ x.thread c t = { s.thread c t with regs := (x.thread c t).regs, pc := s.nextPc c t }
        ∧ (∀ r, (x.thread c t).g r = if r = dest ∧ r ≠ 0 then back else (s.thread c t).g r)
        ∧ (∀ u, u ≠ t → x.thread c u = s.thread c u) ∧ Stored (.spm c) a (leBytes n new) s x)
    let stops (cause : Nat) (i : Instr) : Prop := Completes i s (Halted c cause (t % 8) 0xF ((s.thread c t).pc % 2 ^ 32) s)
    (s.fld (.coreFault c) CoreFault.cause = 0 → ∀ fn n i, (fn, n, i) ∈ [(0, 8, Instr.fld c rd rs1 []), (1, 8, .fst c rs1 rs2 []),
        (2, 4, .fadd32 c rd rs1 rs2 []), (3, 8, .fadd64 c rd rs1 rs2 []), (4, 16, .faddf c rd rs1 rs2 []), (5, 4, .fcas32 c rd rs1 rs2 rs3 []),
        (6, 8, .fcas64 c rd rs1 rs2 rs3 []), (7, 4, .fswp32 c rd rs1 rs2 []), (8, 8, .fswp64 c rd rs1 rs2 []),
        (9, 4, .fmin32 c rd rs1 rs2 []), (10, 8, .fmin64 c rd rs1 rs2 []), (11, 4, .fmax32 c rd rs1 rs2 []),
        (12, 8, .fmax64 c rd rs1 rs2 [])] → s.Runs c t (word fn) →
      (addr % n ≠ 0 → stops cMisalign i)
      ∧ (addr % n = 0 → envAt (s.thread c t).env 1 < o + n → (fn = 1 → (s.thread c t).unacked < 16) → stops cBound i)
      ∧ (fn = 4 → addr % n = 0 → o + n ≤ envAt (s.thread c t).env 1 → s.stepGuards (.spm c) a n = false →
          (Acc.ofLp (cur 16)).wide = true → stops cDesc i))
    ∧ (s.Runs c t (word 1) → addr % 8 = 0 → 16 ≤ (s.thread c t).unacked → Completes (.fst c rs1 rs2 []) s (fun x =>
        x = { s with cores := x.cores } ∧ x.thread c t = { s.thread c t with stat := .parked .storeFull } ∧ SameMemory s x))
    ∧ (
    let old (n : Nat) : BitVec 64 := BitVec.ofInt 64 (signed (8 * n) (cur n))
    does 0 8 (.fld c rd rs1 []) (cur 8) rd (BitVec.ofNat 64 (cur 8))
    ∧ does 1 8 (.fst c rs1 rs2 []) op 0 0
    ∧ does 5 4 (.fcas32 c rd rs1 rs2 rs3 []) (if cur 4 = cmp % 2 ^ 32 then op % 2 ^ 32 else cur 4) rd (old 4)
    ∧ does 6 8 (.fcas64 c rd rs1 rs2 rs3 []) (if cur 8 = cmp then op else cur 8) rd (old 8)
    ∧ does 2 4 (.fadd32 c rd rs1 rs2 []) ((cur 4 + op % 2 ^ 32) % 2 ^ 32) rd (old 4)
    ∧ does 3 8 (.fadd64 c rd rs1 rs2 []) ((cur 8 + op) % 2 ^ 64) rd (old 8)
    ∧ does 7 4 (.fswp32 c rd rs1 rs2 []) (op % 2 ^ 32) rd (old 4)
    ∧ does 8 8 (.fswp64 c rd rs1 rs2 []) (op) rd (old 8)
    ∧ does 9 4 (.fmin32 c rd rs1 rs2 []) (if signed 32 (cur 4) ≤ signed 32 op then cur 4 else op % 2 ^ 32) rd (old 4)
    ∧ does 10 8 (.fmin64 c rd rs1 rs2 []) (if signed 64 (cur 8) ≤ signed 64 op then cur 8 else op) rd (old 8)
    ∧ does 11 4 (.fmax32 c rd rs1 rs2 []) (if signed 32 op ≤ signed 32 (cur 4) then cur 4 else op % 2 ^ 32) rd (old 4)
    ∧ does 12 8 (.fmax64 c rd rs1 rs2 []) (if signed 64 op ≤ signed 64 (cur 8) then cur 8 else op) rd (old 8)
    ∧ ((Acc.ofLp (cur 16)).wide = false → does 4 16 (.faddf c rd rs1 rs2 [])
        (((Acc.ofLp (cur 16)).addProduct (ofF32 (op % 2 ^ 32)) 1000).toLp) rd (BitVec.ofNat 64 (Acc.ofLp (cur 16)).toF32)))

/-- A far access to another partition, and GTSETR, become one packet with an open entry (R272, R320, R352, R353, R359, R360). COMPLETES: GTSETR. For a target partition that XLATE places on this device in the same row and that the reach of the partition admits, its injections not stopped: FLD parks its thread after the instruction and puts a READ of eight bytes on VC1 among the packets that wait, and an atomic does so with an ATOMIC of its operands and function; FST puts a WRITE of rs2, and GTSETR a TACK_SET with the receive counter, count and flag of rs1, on VC3, count one more unacknowledged store and go on 4 further, when fewer than 16 are unacknowledged. Each names partition, space, offset, core and thread, and an entry under its tag awaits one answer. With 16 unacknowledged FST and GTSETR park and send nothing. FLD of a node that XLATE does not place, or that the reach does not admit, halts the core with NODE_UNREACHABLE and sends nothing, and GTSETR with a set bit in rs1[48:39] halts it with ILLEGAL_INSN. No memory and no register of the block changes. -/
def Obligations.FarRequestsBecomePackets : Prop :=
  ∀ (s : State) (c t p : Nat) (rd rs1 rs2 rs3 : Fin 32) (g : Fin 1024), c < 512 → (mfind s.cores c).isSome = true → s.ownerOf c = some p →
    s.injectStopped p = false →
    let v := s.gpr c t rs1
    let node := bitsOf v.toNat 54 10
    let part := bitsOf v.toNat 49 5
    let word (fn : Nat) : Nat := 4 + rd.val * 2 ^ 4 + rs1.val * 2 ^ 9 + rs2.val * 2 ^ 14 + fn * 2 ^ 19 + rs3.val * 2 ^ 24
    let tword : Nat := 9 + 5 * 2 ^ 4 + rs1.val * 2 ^ 9 + 5 * 2 ^ 14 + g.val * 2 ^ 19
    let sent (use : XferUse) (vc op : Nat) (data : List Byte) (x : State) (more : Pkt → Prop) : Prop :=
      x = { s with cores := x.cores, live := x.live, fab := x.fab } ∧ SameMemory s x
      ∧ ∃ w, x.fab.waiting = s.fab.waiting ++ [w] ∧ w.vc = vc ∧ w.pkt.op = op ∧ w.pkt.dstNode = s.ownNode ∧ w.pkt.dstPart = part
        ∧ w.pkt.srcPart = p ∧ w.pkt.core = c ∧ w.pkt.thread = t ∧ w.pkt.data = data ∧ more w.pkt
        ∧ mfind x.fab.xfers w.pkt.tag = some ⟨use, p, node, 1, false⟩
    let store (use : XferUse) (op : Nat) (data : List Byte) (more : Pkt → Prop) (x : State) : Prop :=
      sent use 3 op data x more
      ∧ x.thread c t = { s.thread c t with unacked := (s.thread c t).unacked + 1, pc := s.nextPc c t }
    (s.xlate node = none ∨ s.inReach p node part = false → bitsOf v.toNat 46 3 < 3 → v.toNat % 8 = 0 → part ≠ p → s.Runs c t (word 0) →
        s.fld (.coreFault c) CoreFault.cause = 0 →
        Completes (.fld c rd rs1 []) s (fun x => Stopped c cNode x ∧ SameMemory s x ∧ x.fab.waiting = s.fab.waiting))
    ∧ (wbits v 39 10 ≠ 0 → s.Runs c t tword → s.fld (.coreFault c) CoreFault.cause = 0 →
        Completes (.gtsetr c rs1 g) s (Halted c cIllegal (t % 8) 0xF ((s.thread c t).pc % 2 ^ 32) s))
    ∧ (wbits v 39 10 = 0 → s.Runs c t tword → 16 ≤ (s.thread c t).unacked → Completes (.gtsetr c rs1 g) s (fun x =>
        x = { s with cores := x.cores } ∧ x.thread c t = { s.thread c t with stat := .parked .storeFull }))
    ∧ (s.xlate node = some s.ownNode → s.inReach p node part = true → node / 32 = s.ownLnode / 32 →
      (bitsOf v.toNat 46 3 < 3 → v.toNat % 8 = 0 → part ≠ p →
        let at_ (q : Pkt) : Prop := q.space = bitsOf v.toNat 46 3 ∧ q.offset = bitsOf v.toNat 0 46
        (s.Runs c t (word 0) → Completes (.fld c rd rs1 []) s (fun x =>
          sent (.far c t 0 rd) 1 0 (leBytes 16 8) x at_
          ∧ x.thread c t = { s.thread c t with stat := .parked (.far rd), pc := s.nextPc c t }))
        ∧ (∀ fn n i, (fn, n, i) ∈ [(2, 4, Instr.fadd32 c rd rs1 rs2 []), (3, 8, .fadd64 c rd rs1 rs2 []), (4, 16, .faddf c rd rs1 rs2 []),
            (5, 4, .fcas32 c rd rs1 rs2 rs3 []), (6, 8, .fcas64 c rd rs1 rs2 rs3 []), (7, 4, .fswp32 c rd rs1 rs2 []),
            (8, 8, .fswp64 c rd rs1 rs2 []), (9, 4, .fmin32 c rd rs1 rs2 []), (10, 8, .fmin64 c rd rs1 rs2 []),
            (11, 4, .fmax32 c rd rs1 rs2 []), (12, 8, .fmax64 c rd rs1 rs2 [])] → v.toNat % n = 0 → s.Runs c t (word fn) →
          let cmp := if fn = 5 ∨ fn = 6 then (s.gpr c t rs3).toNat else 0
          Completes i s (fun x =>
            sent (.far c t fn rd) 1 1 (leBytes 8 (s.gpr c t rs2).toNat ++ leBytes 8 cmp ++ leBytes 8 fn) x at_
            ∧ x.thread c t = { s.thread c t with stat := .parked (.far rd), pc := s.nextPc c t }))
        ∧ (s.Runs c t (word 1) → (s.thread c t).unacked < 16 → Completes (.fst c rs1 rs2 []) s
            (store (.farStore c t (s.thread c t).pc) 8 (leBytes 8 (s.gpr c t rs2).toNat) at_))
        ∧ (s.Runs c t (word 1) → 16 ≤ (s.thread c t).unacked → Completes (.fst c rs1 rs2 []) s (fun x =>
            x = { s with cores := x.cores } ∧ x.thread c t = { s.thread c t with stat := .parked .storeFull })))
      ∧ (wbits v 39 10 = 0 → s.Runs c t tword → (s.thread c t).unacked < 16 → Completes (.gtsetr c rs1 g) s
          (store (.farStore c t (s.thread c t).pc) 9 (leBytes 8 g) (fun q =>
            q.flagged = decide (wbits v 38 1 = 1) ∧ q.rx = wbits v 32 6 ∧ q.flagCount = wbits v 0 32))))

/-- A store that passes its checks is written, counted and owed an acknowledgement; a flagged one waits for its count (R266, R268, R269, R272, R273, R353, R355, R356). COMPLETES: WRITE, XCHG_WRITE, COLL_WRITE, COLL_COUNT, TACK_SET, FLAG_RELEASE. When a waiting store (WRITE, XCHG_WRITE, COLL_WRITE or COLL_COUNT) passes the checks of R355 for a place in a scratchpad or in LLS scratch space and is not held back by a flag, its bytes are there and no other byte changes, its receive counter has its bytes and one packet more, the packet has left and an acknowledgement is owed to its source. A flagged one whose count is not reached, or that finds an older held one whose count is reached, is held when fewer than 16 are, and nothing is written; with 16 held it stays in its buffer and nothing changes. FLAG_RELEASE writes and counts the first held one whose count is reached. TACK_SET under the same rules leaves its grid tack set when no thread is parked on it. One that fails a check, or whose operation is reserved, is owed a fault and changes no memory and no grid tack. -/
def Obligations.StoresArriveAtTheirPlace : Prop :=
  ∀ (s : State),
    let owed (w : WaitPkt) (ok : Bool) (x : State) : Prop := ∃ a ∈ x.fab.acks, a.node = w.pkt.srcNode ∧ a.part = w.pkt.srcPart
      ∧ a.tag = w.pkt.tag ∧ (a.cause = 0 ↔ ok = true)
    let counted (w : WaitPkt) (x : State) : Prop :=
      x.fld (.partRxBytes w.pkt.dstPart w.pkt.rx) PartRxBytes.bytes
          = (s.fld (.partRxBytes w.pkt.dstPart w.pkt.rx) PartRxBytes.bytes + w.pkt.length) % 2 ^ PartRxBytes.bytes.width
      ∧ x.fld (.partRxPkts w.pkt.dstPart w.pkt.rx) PartRxPkts.packets
          = (s.fld (.partRxPkts w.pkt.dstPart w.pkt.rx) PartRxPkts.packets + 1) % 2 ^ PartRxPkts.packets.width
    let noWaiter (g : Nat) : Prop := ∀ y ∈ s.cores, ∀ x ∈ y.2.threads, ∀ cl, x.2.stat ≠ .parked (.gtack g cl)
    let tackSet (g : Nat) (x : State) : Prop := ∀ j, x.gtacks.getLsbD j = (s.gtacks.getLsbD j || decide (j = g))
    (∀ op mk, (op, mk) ∈ [(8, fun i => Instr.write i []), (0x10, fun i => .xchgWrite i []), (0x18, fun i => .collWrite i []),
        (0x19, fun i => .collCount i []), (9, fun i => .tackSet i)] →
      ∀ (i : Nat) (w : WaitPkt), s.waitingPkt i (fun p => p.op = op || isReservedOp p.op) = some w → w.pkt.data.length = w.pkt.length →
        let held := s.heldPkts w.pkt.dstPart
        let back := reached (s.rxLow w.pkt.dstPart w.pkt.rx) w.pkt.flagCount = false
          ∨ ∃ h ∈ held, reached (s.rxLow w.pkt.dstPart h.pkt.rx) h.pkt.flagCount = true
        let gone (x : State) : Prop := x.fab.waiting = s.fab.waiting.eraseIdx i
        (w.pkt.op = op → (w.pkt.flagged = true → held.length < 16 ∧ ¬ back) →
          (∀ l a, (∀ p, l ≠ .hbm p) → s.checkPacket w = .inl (some (l, a)) →
            Completes (mk i) s (fun x => Stored l a w.pkt.data s x ∧ counted w x ∧ owed w true x ∧ gone x))
          ∧ (s.checkPacket w = .inl none → noWaiter (bitsOf (leNat w.pkt.data) 0 10) →
            Completes (mk i) s (fun x => SameMemory s x ∧ owed w true x ∧ gone x ∧ tackSet (bitsOf (leNat w.pkt.data) 0 10) x)))
        ∧ (∀ place, w.pkt.op = op → s.checkPacket w = .inl place → w.pkt.flagged = true →
          (held.length < 16 → back → (mfind s.parts w.pkt.dstPart).isSome = true →
            Completes (mk i) s (fun x => SameMemory s x ∧ x.heldPkts w.pkt.dstPart = held ++ [w]
              ∧ x.regs = s.regs ∧ x.gtacks = s.gtacks ∧ x.fab.acks = s.fab.acks))
          ∧ (16 ≤ held.length → Completes (mk i) s (fun x => x = s)))
        ∧ (∀ cause, cause ≠ 0 → s.checkPacket w = .inr cause →
          Completes (mk i) s (fun x => SameMemory s x ∧ owed w false x ∧ gone x ∧ x.gtacks = s.gtacks)))
    ∧ ∀ (p : Nat) (q : Part) (w : WaitPkt) (pre rest : List WaitPkt), p < 32 → mfind s.parts p = some q → q.held = pre ++ w :: rest →
        (∀ v ∈ pre, reached (s.rxLow p v.pkt.rx) v.pkt.flagCount = false) →
        w.pkt.dstPart = p → reached (s.rxLow p w.pkt.rx) w.pkt.flagCount = true → w.pkt.data.length = w.pkt.length →
        let left (x : State) : Prop := (mfind x.parts p).map Part.held = some (pre ++ rest)
        (∀ l a, w.pkt.op ≠ 9 → w.pkt.op ≠ 0 → w.pkt.op ≠ 1 → (∀ p, l ≠ .hbm p) →
          s.spaceLoc p w.pkt.space w.pkt.offset w.pkt.span = some (l, a) → s.stepGuards l a w.pkt.span = false →
          Completes (.flagRelease p []) s (fun x => Stored l a w.pkt.data s x ∧ counted w x ∧ owed w true x ∧ left x))
        ∧ (w.pkt.op = 9 → noWaiter (bitsOf (leNat w.pkt.data) 0 10) →
          Completes (.flagRelease p []) s (fun x => SameMemory s x ∧ owed w true x ∧ left x ∧ tackSet (bitsOf (leNat w.pkt.data) 0 10) x))

/-- A READ answers the bytes and changes none; an ATOMIC leaves its result and answers the old value (R353, R354, R355, R359, R362, R363, R364). COMPLETES: READ, ATOMIC. When a waiting READ from this device passes the checks for a place in a scratchpad or in LLS scratch space and meets no storage error, a response with its tag and the bytes waits for it, with the block's check value and state when it asks for a whole aligned block, and no memory changes. An integer ATOMIC that passes them leaves the result of its function at the place and no other byte changed, and a response carries the old value sign-extended to 64 bits; FADDF on a long partial of the exact class leaves the sum and answers the old value rounded to FP32. One that fails a check is owed a fault with its cause and changes no memory. -/
def Obligations.LoadsAndAtomicsArriveAtTheirPlace : Prop :=
  ∀ (s : State) (i : Nat) (w : WaitPkt),
    (∀ cause, s.checkPacket w = .inr cause →
      let refused (x : State) : Prop := SameMemory s x ∧ x.fab.waiting = s.fab.waiting.eraseIdx i
        ∧ ∃ b ∈ x.fab.acks, b.node = w.pkt.srcNode ∧ b.part = w.pkt.srcPart ∧ b.tag = w.pkt.tag ∧ b.cause = cause
      (s.waitingPkt i (fun p => p.op = 0 || isReservedOp p.op) = some w → Completes (.read i []) s refused)
      ∧ (s.waitingPkt i (fun p => p.op = 1 || isReservedOp p.op) = some w → Completes (.atomic i []) s refused))
    ∧ ∀ (l : Loc) (a : Nat), (∀ p, l ≠ .hbm p) → s.checkPacket w = .inl (some (l, a)) →
    w.pkt.srcNode = s.ownNode → s.logicalOf s.ownNode = some s.ownLnode →
    let bytes (n : Nat) : List Byte := (List.range n).map (fun j => s.byteAt l (a + j))
    let answered (data : List Byte) (more : Pkt → Prop) (x : State) : Prop :=
      x = { s with live := x.live, fab := x.fab, cores := x.cores, lls := x.lls }
      ∧ ∃ r, x.fab.waiting = s.fab.waiting.eraseIdx i ++ [r] ∧ r.pkt.op = 0x20 ∧ r.pkt.tag = w.pkt.tag ∧ r.pkt.data = data ∧ more r.pkt
    (s.waitingPkt i (fun p => p.op = 0 || isReservedOp p.op) = some w → w.pkt.op = 0 →
      Completes (.read i []) s (fun x => SameMemory s x ∧ answered (bytes w.pkt.span) (fun r =>
        (a % 4096 = 0 ∧ w.pkt.span = 4096 → r.chk = true ∧ r.check = (s.blkOf l (a / 4096)).check.toNat
          ∧ r.valid = (s.blkOf l (a / 4096)).valid)) x))
    ∧ (s.waitingPkt i (fun p => p.op = 1 || isReservedOp p.op) = some w → w.pkt.op = 1 →
      let d := leNat w.pkt.data
      let fn := bitsOf d 128 8
      let n := farSize fn
      w.pkt.span = n →
      (fn = 4 → (Acc.ofLp (leNat (bytes 16))).wide = false → Completes (.atomic i []) s (fun x =>
        Stored l a (leBytes 16 (atomFloat (leNat (bytes 16)) (bitsOf d 0 64))) s x
        ∧ answered (leBytes 8 (Acc.ofLp (leNat (bytes 16))).toF32) (fun _ => True) x))
      ∧ (2 ≤ fn → fn ≤ 0xC → fn ≠ 4 → Completes (.atomic i []) s (fun x =>
        Stored l a (leBytes n (atomInt fn (8 * n) (leNat (bytes n)) (bitsOf d 0 64) (bitsOf d 64 64))) s x
        ∧ answered (leBytes 8 (unsigned 64 (signed (8 * n) (leNat (bytes n))))) (fun _ => True) x)))

/-- Answers end far loads, fences and stores, faults halt the core, and owed acknowledgements are sent (R73, R76, R326, R353, R356, R357, R360). COMPLETES: RSP_DATA, RSP_ACK, RSP_FAULT, ACK_COALESCE_TIMER. For a partition that is Armed and not being released, from a source within its reach: data for the last outstanding packet of a parked far access leave the low eight bytes in its register, the thread ready where it stood, and the entry closed. An acknowledgement that covers the last packet of a far store closes the entry and counts one store fewer; a thread parked by FENCE.L becomes ready when none is left. A fault of a far store's packet records its cause and program counter in CORE_FAULT and halts the core. The answer timer sends the pending answer as RSP_ACK with its count, or as RSP_FAULT with cause and count, to a source on this device. Data from outside the reach are not taken: they end the access with NODE_UNREACHABLE (that they end it so is the model's choice, assumption 55). No memory changes. -/
def Obligations.AnswersReachWhoWaits : Prop :=
  ∀ (s : State),
    let takes (w : WaitPkt) : Prop := s.takesPackets w.pkt.dstPart = true
    let lets (w : WaitPkt) : Prop := s.letsIn w.pkt = true
    (∀ (i : Nat) (w : WaitPkt) (c t fn rd p node : Nat) (un : Bool) (u : List Upset), s.waitingPkt i (fun p => p.op = 0x20) = some w →
      mfind s.fab.xfers w.pkt.tag = some ⟨.far c t fn rd, p, node, 1, un⟩ → (mfind s.cores c).isSome = true → takes w → lets w →
      (s.thread c t).stat = .parked (.far rd) →
      Completes (.rspData i u) s (fun x => SameMemory s x ∧ x.regs = s.regs ∧ mfind x.fab.xfers w.pkt.tag = none
        ∧ x.thread c t = { s.thread c t with stat := .ready, regs := (x.thread c t).regs }
        ∧ (∀ r, (x.thread c t).g r = if r = rd ∧ r ≠ 0 then BitVec.ofNat 64 (leNat (w.pkt.data.take 8)) else (s.thread c t).g r)
        ∧ ∀ d v, (d ≠ c ∨ v ≠ t) → x.thread d v = s.thread d v))
    ∧ (∀ (i : Nat) (w : WaitPkt) (c t pc p node : Nat) (un : Bool), s.waitingPkt i (fun p => p.op = 0x21) = some w →
      mfind s.fab.xfers w.pkt.tag = some ⟨.farStore c t pc, p, node, 1, un⟩ → (mfind s.cores c).isSome = true → takes w → lets w →
      bitsOf (leNat w.pkt.data) 0 6 = 1 → (s.thread c t).unacked = 1 →
      ((s.thread c t).stat = .parked .fence ∨ (s.thread c t).stat = .ready) →
      Completes (.rspAck i) s (fun x => SameMemory s x ∧ x.regs = s.regs ∧ mfind x.fab.xfers w.pkt.tag = none
        ∧ x.thread c t = { s.thread c t with stat := .ready, unacked := 0 }))
    ∧ (∀ (i : Nat) (w : WaitPkt) (c t pc p node : Nat) (un : Bool), s.waitingPkt i (fun p => p.op = 0x22) = some w →
      mfind s.fab.xfers w.pkt.tag = some ⟨.farStore c t pc, p, node, 1, un⟩ → (mfind s.cores c).isSome = true → takes w → lets w →
      bitsOf (leNat w.pkt.data) 8 6 = 1 → s.fld (.coreFault c) CoreFault.cause = 0 →
      Completes (.rspFault i) s (fun x => SameMemory s x ∧ mfind x.fab.xfers w.pkt.tag = none
        ∧ x.fld (.coreFault c) CoreFault.cause = bitsOf (leNat w.pkt.data) 0 8
        ∧ x.fld (.coreFault c) CoreFault.pc = pc % 2 ^ 32 ∧ (mfind x.cores c).map Core.halted = some true))
    ∧ (∀ (i : Nat) (w : WaitPkt) (c t fn rd p node : Nat) (un : Bool) (u : List Upset), s.waitingPkt i (fun p => p.op = 0x20) = some w →
      mfind s.fab.xfers w.pkt.tag = some ⟨.far c t fn rd, p, node, 1, un⟩ → (mfind s.cores c).isSome = true → takes w →
      s.letsIn w.pkt = false → s.fld (.coreFault c) CoreFault.cause = 0 →
      Completes (.rspData i u) s (fun x => SameMemory s x ∧ mfind x.fab.xfers w.pkt.tag = none ∧ Stopped c cNode x))
    ∧ ∀ (k : Nat) (a : PendAck), s.fab.acks[k]? = some a → a.node = s.ownNode → s.logicalOf s.ownNode = some s.ownLnode →
      Completes (.ackCoalesceTimer k) s (fun x => x = { s with live := x.live, fab := x.fab } ∧ x.fab.acks = s.fab.acks.eraseIdx k
        ∧ ∃ r, x.fab.waiting = s.fab.waiting ++ [r] ∧ r.pkt.tag = a.tag ∧ r.pkt.dstPart = a.part
          ∧ (a.cause = 0 → r.pkt.op = 0x21 ∧ r.pkt.data = leBytes 8 a.count)
          ∧ (a.cause ≠ 0 → r.pkt.op = 0x22 ∧ r.pkt.data = leBytes 8 (a.cause + 256 * a.count)))

/-- RESUME, STOP_ALL, CLEAR_FAULT and the completion of a descriptor in progress (R90, R108, R109, R112). COMPLETES: RESUME, STOP_ALL, CLEAR_FAULT, DESCRIPTOR_COMPLETE. RESUME of a halted core that is not retired leaves it not halted, its program counters as they were; on any other it changes nothing. STOP_ALL of a core that is not retired stops every thread, discards what waits in its queues and silences what is in progress; with nothing in progress CORE_FAULT is 0, the core is not halted and its accumulators are zero. On a retired core it changes nothing. CLEAR_FAULT zeroes CORE_FAULT of a halted core that is not retired, and nothing otherwise. Before the device has booted, and while it is Fenced, none of the three does anything. A descriptor in progress completes once nothing of it is outstanding: it leaves the ones in progress; unless it failed or was silenced, the core or grid tack that it names, with no thread parked on it, is set, and its interrupt is raised with its core and tag. One that was silenced sets no tack. No memory changes. -/
def Obligations.CoresResumeStopAndComplete : Prop :=
  ∀ (s : State) (c : Nat) (k : Core), c < 512 → mfind s.cores c = some k →
    (s.pkg.booted = false ∨ s.devState = 3 → ∀ i ∈ [Instr.resume c, .stopAll c, .clearFault c], Completes i s (fun x => x = s))
    ∧ (s.pkg.booted = true → s.devState ≠ 3 →
    (k.halted = true → s.isRetired c = false → Completes (.resume c) s (fun x =>
        (∃ k', mfind x.cores c = some k' ∧ k'.halted = false ∧ k'.queues = k.queues ∧ k'.active = k.active)
        ∧ (∀ t, (x.thread c t).pc = (s.thread c t).pc ∧ (x.thread c t).regs = (s.thread c t).regs)
        ∧ x = { s with cores := x.cores } ∧ ∀ d, d ≠ c → mfind x.cores d = mfind s.cores d))
    ∧ (k.halted = false ∨ s.isRetired c = true → Completes (.resume c) s (fun x => x = s))
    ∧ (s.isRetired c = false → Completes (.stopAll c) s (fun x =>
        (∃ k', mfind x.cores c = some k' ∧ k'.queues = [] ∧ k'.run = none ∧ k'.spm = k.spm
          ∧ (∀ y ∈ k'.threads, y.2.stat = .stopped) ∧ k'.active = k.active.map (fun a => { a with silent := true })
          ∧ (k.active = [] → k'.halted = false ∧ k'.stopping = false ∧ k'.matrix.accs = []))
        ∧ (k.active = [] → x.reg (.coreFault c) = 0) ∧ SameMemory s x
        ∧ x = { s with cores := x.cores, regs := x.regs, fab := { s.fab with xfers := x.fab.xfers } }
        ∧ ∀ d, d ≠ c → mfind x.cores d = mfind s.cores d))
    ∧ (s.isRetired c = true → Completes (.stopAll c) s (fun x => x = s))
    ∧ (k.halted = true → s.isRetired c = false → Completes (.clearFault c) s (fun x => x.reg (.coreFault c) = 0 ∧ x = { s with regs := x.regs }
        ∧ ∀ r, r ≠ .coreFault c → x.reg r = s.reg r))
    ∧ (k.halted = false ∨ s.isRetired c = true → Completes (.clearFault c) s (fun x => x = s)))
    ∧ ∀ (eng : Fin 4) (n : Nat) (a : Act), (s.actsOf c eng)[n]? = some a →
        let i : Instr := .descriptorComplete c eng n
        (s.actReady c a = false → Completes i s (fun x => x = s))
        ∧ (s.actReady c a = true →
          Completes i s (fun x => SameMemory s x
            ∧ ∃ k', mfind x.cores c = some k' ∧ k'.active = k.active.filter (fun b => b.id ≠ a.id))
          ∧ (a.silent = true ∨ a.failed = true → Completes i s (fun x => x.reg (.coreTack c) = s.reg (.coreTack c) ∧ x.gtacks = s.gtacks))
          ∧ (a.silent = false → a.failed = false →
            (∀ t, a.desc.set = (1, t) → t < 32 → (∀ y ∈ k.threads, ∀ cl, y.2.stat ≠ .parked (.tack t cl)) →
              Completes i s (fun x => x.fld (.coreTack c) CoreTack.value = s.fld (.coreTack c) CoreTack.value ||| 2 ^ t))
            ∧ (∀ g, a.desc.set = (2, g) → g < 1024 → (∀ y ∈ s.cores, ∀ z ∈ y.2.threads, ∀ cl, z.2.stat ≠ .parked (.gtack g cl)) →
              Completes i s (fun x => ∀ j, x.gtacks.getLsbD j = (s.gtacks.getLsbD j || decide (j = g))))
            ∧ (∀ p, s.ownerOf c = some p → a.desc.f 0 37 1 = 1 → Completes i s (fun x =>
                x.fld (.partIrqStat p) PartIrqStat.completion = 1 ∧ x.fld (.partIrqTag p) PartIrqTag.core = c
                ∧ x.fld (.partIrqTag p) PartIrqTag.tag = a.desc.tag))))

/-- MMA adds the products of its rows and columns to its accumulators; ZERO clears them; a failed strip halts the core (R113, R118, R121, R122, R124, R125, R129, R136, R149, R164, R220, R409). COMPLETES: MMA, ZERO, STRIP_FAILURE. With the head of the matrix queue free to start and no running descriptor that conflicts with it or, for an MMA in a new shape, occupies a strip of it: ZERO leaves the accumulators of its outputs zero. MMA, when its body passes the checks, its operands lie in the envelope and no block read whole mismatches, leaves in each output of a row that takes part what the accumulator held (zero where the body says so) plus the products of the row of A and the column of B, and the outputs of the other rows at what the body leaves them before the products (that a body which zeroes does so in masked rows too is the model's choice, assumption 71; so is an accumulator of the other class counting as an open one, assumption 21). Every other accumulator is unchanged, no memory changes, and the descriptor is in progress. A head in conflict waits; an MMA that the slew limiter holds waits and is counted; a body that fails the checks halts the core with DESC_INVALID, a mismatch with CRC_BLOCK. STRIP_FAILURE halts the core with ENGINE_HW and takes its strip, pair, quad and cube out of use, and leaves the accumulators of strips that never shared a unit with it as they were; with at most two strips left the core is retired. -/
def Obligations.MatrixProductsAccumulate : Prop :=
  ∀ (s : State) (c : Nat), c < 512 →
    (∀ p d k, s.head c 0 = some (p, d) → mfind s.cores c = some k →
      let s1 := (s.popHead c 0 d).noteUnit c d
      let free : Prop := ∀ a ∈ s.actsOf c 0, mxConflict a.desc d = false
        ∧ ¬ (s.reshapes c d = true ∧ ∃ x ∈ a.desc.strips, x ∈ d.strips)
      let keys : List Nat := d.outputs.map (fun x => d.accKeyOf x.1 x.2)
      let bad (i : Instr) : Prop := s.fld (.coreFault c) CoreFault.cause = 0 →
        Completes i s (Halted c cDesc (d.thread % 8) (d.f 0 0 4) (d.pc % 2 ^ 32) s1)
      let ran (x : State) : Prop := Started c 0 0 d s1 x ∧ SameMemory s x
        ∧ x = { s1 with cores := x.cores, live := x.live, parts := x.parts }
      (¬ free → Completes (.zero c) s (fun x => x = s) ∧ Completes (.mma c []) s (fun x => x = s))
      ∧ (d.op = 5 → free →
        ((s1.mxCommonOk c d && otherBodyOk d false false) = true → Completes (.zero c) s (fun x => ran x
          ∧ ∀ key, mget (x.accs c) key Acc.zero = if key ∈ keys then Acc.zero else mget (s.accs c) key Acc.zero))
        ∧ ((s1.mxCommonOk c d && otherBodyOk d false false) = false → bad (.zero c)))
      ∧ (d.op = 1 → free →
        (s.slewOk p (d.stripIds c) = false → Completes (.mma c []) s (fun x => x = { s with regs := x.regs }
          ∧ (∀ r, r ≠ .optSlewPart p → x.reg r = s.reg r) ∧ x.fld (.optSlewPart p) OptSlewPart.held
            = min (2 ^ OptSlewPart.held.width - 1) (s.fld (.optSlewPart p) OptSlewPart.held + 1)))
        ∧ (s.slewOk p (d.stripIds c) = true → s1.mmaOk c d = false → bad (.mma c []))
        ∧ (s.slewOk p (d.stripIds c) = true → s1.mmaOk c d = true →
          let fa := d.f 3 8 4
          let fb := d.f 3 12 4
          let sp := d.f 4 0 2
          let kx := kChunk (d.f 3 0 3 = 3) fa fb sp
          let kv := kValid (d.f 3 36 16) (d.f 3 52 8) kx
          let rd (o n : Nat) : List Byte := memRead k.spm (envAt d.env 0 + o) n
          let maskSpan : List Span := if d.f 4 44 1 = 1 then [(d.f 5 0 21, 8)] else []
          let mask := if d.f 4 44 1 = 1 then memNat k.spm (envAt d.env 0 + d.f 5 0 21) 8 else 2 ^ 64 - 1
          let reads := mmaSpans d kv ((List.range d.m).filter (bitAt mask)) ++ maskSpan
          let md (j : Nat) : List Byte := rd (d.f 4 2 21 + j * d.f 4 23 21) (metaBytes sp kv)
          let row (i : Nat) := opRow fa 0 kv (rd (d.f 1 0 21 + i * d.f 2 0 21) (storedBytes (fmtBits fa) 0 kv)) []
            (rd (d.f 5 21 21 + i * d.f 6 0 21) (scaleRow fa kv))
          let col (j : Nat) := opRow fb sp kv (rd (d.f 1 21 21 + j * d.f 2 21 21) (storedBytes (fmtBits fb) sp kv)) (md j)
            (rd (d.f 5 42 21 + j * d.f 6 21 21) (scaleRow fb kv))
          let start (i j : Nat) : Acc := if d.f 3 6 2 = 1 then Acc.zero else mget (s.accs c) (d.accKeyOf i j) Acc.zero
          inEnv d (mmaSpans d kv (List.range d.m) ++ maskSpan) = true →
          (s1.mismatch (.spm c) (relSpans d reads) = true → s.fld (.coreFault c) CoreFault.cause = 0 →
            Completes (.mma c []) s (fun x => Stopped c cCrc x ∧ SameMemory s x))
          ∧ (s1.mismatch (.spm c) (relSpans d reads) = false → (∀ j, j < d.n → metaBad sp kv (md j) = false) →
            Completes (.mma c []) s (fun x => ran x
              ∧ (∀ key, key ∉ keys → mget (x.accs c) key Acc.zero = mget (s.accs c) key Acc.zero)
              ∧ ∀ i j, i < d.m → j < d.n → mget (x.accs c) (d.accKeyOf i j) Acc.zero =
                  (let a := (start i j).recast (isWideFmt fa)
                   if bitAt mask i = false then start i j
                   else if isWideFmt fa = true then dotWide kx (d.f 3 36 16) a (row i) (col j)
                   else dotExact fa fb a (row i) (col j)))))))
    ∧ ∀ (strip : Nat), strip < 4 → (mfind s.cores c).isSome = true → s.isRetired c = false →
        Completes (.stripFailure c strip) s (fun x => SameMemory s x
          ∧ (∃ k', mfind x.cores c = some k' ∧ k'.halted = true ∧ k'.queues = [] ∧ strip ∈ k'.matrix.failed)
          ∧ (∀ i, (x.fld (.coreMxState c) CoreMxState.stripOk).testBit i
              = ((s.fld (.coreMxState c) CoreMxState.stripOk).testBit i && decide (i ≠ strip)))
          ∧ (∀ i, (x.fld (.coreMxState c) CoreMxState.pairOk).testBit i
              = ((s.fld (.coreMxState c) CoreMxState.pairOk).testBit i && decide (i ≠ strip / 2)))
          ∧ x.fld (.coreMxState c) CoreMxState.quadOk = 0 ∧ x.fld (.coreMxState c) CoreMxState.cubeOk = 0
          ∧ (s.fld (.coreFault c) CoreFault.cause = 0 → x.fld (.coreFault c) CoreFault.cause = cHw)
          ∧ (∀ key, key / 2048 ∉ s.failedUnits c strip → mget (x.accs c) key Acc.zero = mget (s.accs c) key Acc.zero)
          ∧ (x.isRetired c = true ↔ x.stripsWorking c ≤ 2))

/-- DRAIN stores its accumulators row by row; LP_LOAD and LP_ADD take long partials from the scratchpad (R121, R122, R124, R131, R132, R133, R134, R153, R158, R217, R218). COMPLETES: MATRIX_DRAIN, LP_LOAD, LP_ADD. With the head of the matrix queue free to start, its body in order and its rows in the envelope: DRAIN leaves output (i, j) at its row and column of the destination in the output format, unless a later row overlaps it, every other byte of memory and every accumulator as it was, and marks in CORE_MX_INEXACT the inexact banks that it read. LP_LOAD leaves in each output the long partial read for it and LP_ADD adds it, when no output meets one of the other class, and otherwise each halts the core with DESC_INVALID (a zeroed accumulator has no class yet, which is the model's choice, assumption 21); the other accumulators and all memory are unchanged. Each is then in progress. DRAIN outside the envelope or into an input range of an open step halts the core with BOUND; a body out of order halts it with DESC_INVALID, a long partial's block read whole in mismatch with CRC_BLOCK. While a running descriptor conflicts with it, the head waits. -/
def Obligations.DrainAndLongPartials : Prop :=
  ∀ (s : State) (c p : Nat) (d : Desc) (k : Core), c < 512 → s.head c 0 = some (p, d) → mfind s.cores c = some k →
    let s1 := (s.popHead c 0 d).noteUnit c d
    let halts (i : Instr) (cause : Nat) : Prop := s.fld (.coreFault c) CoreFault.cause = 0 →
      Completes i s (Halted c cause (d.thread % 8) (d.f 0 0 4) (d.pc % 2 ^ 32) s1)
    (∀ a ∈ s.actsOf c 0, mxConflict a.desc d = true → d.op ≠ 1 →
      ∀ i ∈ [Instr.matrixDrain c, .lpLoad c [], .lpAdd c []], Completes i s (fun x => x = s))
    ∧ ((∀ a ∈ s.actsOf c 0, mxConflict a.desc d = false) →
    (d.op = 2 →
      let size := drainSize (d.f 3 15 1 = 1) (d.f 3 8 4)
      let spans := relSpans d (outSpans d size)
      (s1.drainOk c d = false → halts (.matrixDrain c) cDesc)
      ∧ (s1.drainOk c d = true → inEnv d (outSpans d size) = false ∨ s1.stepGuarded (.spm c) spans = true → halts (.matrixDrain c) cBound)
      ∧ (s1.drainOk c d = true → inEnv d (outSpans d size) = true → s1.stepGuarded (.spm c) spans = false →
        Completes (.matrixDrain c) s (fun x => Started c 0 0 d s1 x ∧ OnlySpans c spans s x ∧ x.accs c = s.accs c
          ∧ x.fld (.coreMxInexact c) CoreMxInexact.inexact
              = s.fld (.coreMxInexact c) CoreMxInexact.inexact ||| inexactMask d (s.accs c)
          ∧ ∀ i j b, i < d.m → j < d.n → b < size → d.n * size ≤ d.f 2 42 21 ∨ i + 1 = d.m →
              x.byteAt (.spm c) (envAt d.env 0 + d.f 1 42 21 + i * d.f 2 42 21 + j * size + b)
                = (drainElem d (mget (s.accs c) (d.accKeyOf i j) Acc.zero) i j).getD b 0)))
    ∧ ∀ (add : Bool), d.op = (if add = true then 4 else 3) →
      let i : Instr := if add = true then .lpAdd c [] else .lpLoad c []
      let good : Bool := s1.mxCommonOk c d && otherBodyOk d true false && al128 (d.f 1 42 21) && al128 (d.f 2 42 21)
      let lp (y : Nat × Nat) : Acc :=
        Acc.ofLp (leNat (memRead k.spm (envAt d.env 0 + d.f 1 42 21 + y.1 * d.f 2 42 21 + 16 * y.2) 16))
      let old (y : Nat × Nat) : Acc := mget (s.accs c) (d.accKeyOf y.1 y.2) Acc.zero
      (good = false → halts i cDesc)
      ∧ (good = true → inEnv d (outSpans d 16) = false → halts i cBound)
      ∧ (good = true → inEnv d (outSpans d 16) = true → s1.mismatch (.spm c) (relSpans d (outSpans d 16)) = false →
        ((∀ y ∈ d.outputs, old y = Acc.zero ∨ (old y).wide = (lp y).wide) →
          Completes i s (fun x => Started c 0 0 d s1 x ∧ SameMemory s x
            ∧ x = { s1 with cores := x.cores, live := x.live, parts := x.parts }
            ∧ (∀ y ∈ d.outputs, mget (x.accs c) (d.accKeyOf y.1 y.2) Acc.zero = if add = true then (old y).addLp (lp y) else lp y)
            ∧ ∀ key, key ∉ d.outputs.map (fun y => d.accKeyOf y.1 y.2) → mget (x.accs c) key Acc.zero = mget (s.accs c) key Acc.zero))
        ∧ ((∃ y ∈ d.outputs, old y ≠ Acc.zero ∧ (old y).wide ≠ (lp y).wide) → halts i cDesc))
      ∧ (good = true → inEnv d (outSpans d 16) = true → s1.mismatch (.spm c) (relSpans d (outSpans d 16)) = true →
        s.fld (.coreFault c) CoreFault.cause = 0 → Completes i s (fun x => Stopped c cCrc x ∧ SameMemory s x)))

/-- A vector operation reads its rows, works them out in FP32 and leaves the narrowed results at its destination (R92, R93, R94, R95, R142, R154, R155, R217, R218, R220). COMPLETES: VECTOR_ADD, VECTOR_MULTIPLY, VECTOR_FMA, VECTOR_MAX, VECTOR_MIN, CONVERT, ROW_SUM, ROW_MAX, ROW_SOFTMAX, DIVISION, SQRT, RSQRT, RECIPROCAL, EXP2, LOG2, SIN_COS, TANH, SIGMOID, ERF, GELU. Each of the twenty vector operations, its head free to start, its body in order, its rows in the envelope and no block read whole in mismatch: every row of the destination, unless a later row overlaps it, holds the bytes that the operation gives for that row's operands as they stood, a reduction its elements side by side; the last step of a row softmax, a division by the sum, is the model's choice (assumption 32), and the functions that the spec bounds in ulp take any result within their bounds (assumption 72); every byte outside the destination and the scale rows is as it was; the descriptor is in progress and the engine busy at the rate of its operation. A body out of order halts the core with DESC_INVALID, an operand outside the envelope or a destination in an input range of an open step with BOUND, a mismatch with CRC_BLOCK. -/
def Obligations.VectorOperationsWriteTheirRows : Prop :=
  ∀ (s : State) (c p : Nat) (d : Desc) (k : Core), c < 512 → s.head c 1 = some (p, d) → mfind s.cores c = some k →
    ∀ op i, (op, i) ∈ [(1, Instr.vectorAdd c []), (2, .vectorMultiply c []), (3, .vectorFma c []), (4, .vectorMax c []),
        (5, .vectorMin c []), (8, .convert c []), (0x10, .rowSum c []), (0x11, .rowMax c []), (0x12, .rowSoftmax c []),
        (0x20, .division c []), (0x21, .sqrt c []), (0x22, .rsqrt c []), (0x23, .reciprocal c []), (0x24, .exp2 c []),
        (0x25, .log2 c []), (0x26, .sinCos c []), (0x27, .tanh c []), (0x28, .sigmoid c []), (0x29, .erf c []), (0x2A, .gelu c [])] →
      d.op = op →
      let s1 := s.popHead c 1 d
      let base := envAt d.env 0
      let parts := (vReads d).map (fun (o, n) => memRead k.spm (base + o) n)
      let rows := vResults d parts
      let halts (cause : Nat) : Prop := s.fld (.coreFault c) CoreFault.cause = 0 →
        Completes i s (Halted c cause (d.thread % 8) (d.f 0 0 4) (d.pc % 2 ^ 32) s1)
      let within : Bool := inEnv d (vReads d ++ vWrites d) && !s1.stepGuarded (.spm c) (relSpans d (vWrites d))
      let bad : Bool := s1.mismatch (.spm c) (relSpans d (vReads d))
      (vectorOk d = false → halts cDesc)
      ∧ (vectorOk d = true → within = false → halts cBound)
      ∧ (vectorOk d = true → within = true → bad = true → s.fld (.coreFault c) CoreFault.cause = 0 →
          Completes i s (fun x => Stopped c cCrc x ∧ OnlySpans c (relSpans d (vWrites d)) s x))
      ∧ (vectorOk d = true → within = true → bad = false → Completes i s (fun x =>
          Started c 1 0 d s1 x ∧ OnlySpans c (relSpans d (vWrites d)) s x
          ∧ x = { s1 with cores := x.cores, live := x.live, parts := x.parts }
          ∧ x.live = (s1.liveAdd (.coreBusySnap c 1) CoreBusySnap.cycles (vCycles d)).live
          ∧ (vReduces op = true → ∀ b, b < rowBytes d.vOut d.vRows →
              x.byteAt (.spm c) (base + d.f 3 0 21 + b) = (rows.flatMap (fun y => y.1)).getD b 0)
          ∧ (vReduces op = false → ∀ r b, r < d.vRows → b < rowBytes d.vOut d.vCols →
              rowBytes d.vOut d.vCols ≤ d.f 6 0 32 ∨ r + 1 = d.vRows →
              x.byteAt (.spm c) (base + d.f 3 0 21 + r * d.f 6 0 32 + b) = (rows.getD r ([], [])).1.getD b 0)))

/-- COPY, FILL, DIGEST and DIGEST_WITH_ROOT within the device's scratchpads and LLS scratch space (R97, R98, R99, R100, R101, R103, R218, R220, R257, R266). COMPLETES: COPY, FILL, DIGEST, DIGEST_WITH_ROOT. With the head of the DMA queue free to start, its body in order, its endpoints in scratchpads or LLS scratch space of the device within their limits, no pieces of the destination overlapping, no flag, and under chk 0 and 1 no mismatch: each byte of the destination holds, at its position of the visiting order, for COPY the source byte of that position as it stood, for FILL the byte of the 32-bit pattern, for a digest the byte of the SHA-256 digests of the source's consecutive chunks in order, with the root form the digest of them all after them; every other byte of memory is as before, HBM too, and the descriptor is in progress with nothing outstanding. Bytes written outside the issuing core's scratchpad are counted in the receive counter. A body out of order halts the core with DESC_INVALID, an endpoint in a scratchpad that is not of the partition's enabled cores with BOUND, a run that is not of whole blocks under chk 0 with MISALIGN (the destination of a digest is free of that rule, and a leaf size or a chk-2 destination out of order is DESC_INVALID, which are the model's choices, assumption 66). A head in conflict, or one behind eight in progress, waits. -/
def Obligations.LocalCopiesFillsAndDigests : Prop :=
  ∀ (s : State) (c p : Nat) (d : Desc), c < 512 → s.head c 2 = some (p, d) →
    ∀ op i, (op, i) ∈ [(1, Instr.copy c []), (2, .fill c []), (3, .digest c []), (4, .digestWithRoot c [])] → d.op = op →
      let s1 := s.popHead c 2 d
      let pl := s1.dmaPlan c p d
      let halts (cause : Nat) : Prop := s.fld (.coreFault c) CoreFault.cause = 0 →
        Completes i s (Halted c cause (d.thread % 8) (d.f 0 0 4) (d.pc % 2 ^ 32) s1)
      let aligned : Prop := d.chk = 0 → (op ≠ 2 → s1.chkAligned c p d (s1.dmaSrc p d) 4 = true)
        ∧ (op < 3 → s1.chkAligned c p d (s1.dmaDst p d) 5 = true)
      let v := d.f 6 0 32
      let at_ (q : Nat) (b : Byte) : Prop := ∃ z ∈ pl.src, ∃ l a, z.spot = .mem l a ∧ z.pos ≤ q ∧ q < z.pos + z.len
        ∧ b = s.byteAt l (a + (q - z.pos))
      let foreign : Bool := (decide (op ≠ 2) && s1.epForeign p (s1.dmaSrc p d)) || s1.epForeign p (s1.dmaDst p d)
      (8 ≤ (s.actsOf c 2).length ∨ s.dmaConflict c p d = true → Completes i s (fun x => x = s))
      ∧ ((s.actsOf c 2).length < 8 → s.dmaConflict c p d = false →
        (s1.dmaBad p d = true → halts cDesc)
        ∧ (s1.dmaBad p d = false → foreign = true → halts cBound)
        ∧ (s1.dmaBad p d = false → foreign = false → ¬ aligned → halts cMisalign)
        ∧ (s1.dmaBad p d = false → foreign = false → aligned → pl.bad = false → d.f 7 32 1 = 0 →
          (∀ z ∈ pl.src ++ pl.dst, ∃ l a, z.spot = .mem l a ∧ ∀ q, l ≠ .hbm q) →
          pl.dst.Pairwise (fun y z => ∀ l a b, y.spot = .mem l a → z.spot = .mem l b → a + y.len ≤ b ∨ b + z.len ≤ a) →
          (d.chk ≠ 2 → ∀ l ∈ memLocs pl.src, s1.mismatch l (memSpans l pl.src) = false) →
          Completes i s (fun x => Started c 2 0 d s1 x ∧ x.hbm = s.hbm ∧ x.out = s.out ∧ x.fab = s.fab
            ∧ (∀ l b, (∀ q, l ≠ .hbm q) → touches (memSpans l pl.dst) b = false → x.byteAt l b = s.byteAt l b)
            ∧ x.fld (.partRxBytes p (d.f 7 33 6)) PartRxBytes.bytes
                = (s.fld (.partRxBytes p (d.f 7 33 6)) PartRxBytes.bytes
                    + ((pl.dst.filter (fun z => match z.spot with
                        | .mem l _ => decide (l ≠ .spm c)
                        | _ => false)).map Piece.len).sum) % 2 ^ PartRxBytes.bytes.width
            ∧ ∀ y ∈ pl.dst, ∀ l a n, y.spot = .mem l a → n < y.len →
                (op = 1 → at_ (y.pos + n) (x.byteAt l (a + n)))
                ∧ (op = 2 → x.byteAt l (a + n) = BitVec.ofNat 8 (v / 256 ^ ((y.pos + n) % 4)))
                ∧ (op = 3 ∨ op = 4 → ∃ src : List Byte, src.length = pl.total ∧ (∀ q, q < pl.total → at_ q (src.getD q 0))
                    ∧ (let m := (pl.total + v - 1) / v
                       let leaves := (List.range m).flatMap (fun j => sha256 ((src.drop (j * v)).take v))
                       x.byteAt l (a + n) = (leaves ++ (if op = 4 then sha256 leaves else [])).getD (y.pos + n) 0)))))

/-- A multicast copy puts one packet per member and piece into the output queues, all of them unanswered (R345, R346, R369, R320, R322). COMPLETES: MCAST_PUT, MCAST_COLL. With the head of the DMA queue free to start, its body in order, chk 2, its source in scratchpads or LLS scratch space and its destination one piece at every member, injections of the partition not stopped, nothing waiting to be injected, the store not full, every member a node that XLATE names, that the reach admits and whose route finds a port that carries traffic: the descriptor is in progress with one answer outstanding per member, and for each member the output queue of its port holds a packet to its node with the bytes of the source as they stood, a WRITE on VC3 for MCAST_PUT and a COLL_WRITE on VC4 for MCAST_COLL. With a member that XLATE does not name or the reach does not admit, no copy leaves and the core halts with NODE_UNREACHABLE. No memory changes. -/
def Obligations.MulticastCopiesReachEveryMember : Prop :=
  ∀ (s : State) (c p : Nat) (d : Desc), c < 512 → s.head c 2 = some (p, d) →
    ∀ op i, (op, i) ∈ [(5, Instr.mcastPut c []), (6, .mcastColl c [])] → d.op = op →
      (s.actsOf c 2).length < 8 → s.dmaConflict c p d = false →
      let s1 := s.popHead c 2 d
      let pl := s1.dmaPlan c p d
      s1.dmaBad p d = false → d.chk = 2 → pl.bad = false → s1.injectStopped p = false → s.fab.inject = [] →
      s.fab.mstore.length < 256 → mfind s.fab.mstore s.fab.nextMid = none →
      s1.epForeign p (s1.dmaSrc p d) = false → s1.epForeign p (s1.dmaDst p d) = false →
      (∀ z ∈ pl.src, ∃ l a, z.spot = .mem l a ∧ ∀ q, l ≠ .hbm q) →
      ((s1.dmaSrc p d).space ≠ 3 → (s1.dmaDst p d).space ≠ 3 → s.fld (.coreFault c) CoreFault.cause = 0 →
        (∃ m ∈ s1.mcastMembers d, ∀ f, s1.mayInject p m (s1.dmaDst p d).part ≠ .inl f) →
        Completes i s (fun x => Stopped c cNode x ∧ SameMemory s x ∧ x.fab.links = s.fab.links ∧ x.fab.waiting = s.fab.waiting))
      ∧ (
      ∀ off n, pl.dst = [⟨.far off, n, 0⟩] →
      (∀ m ∈ s1.mcastMembers d, ∃ f k, s1.mayInject p m (s1.dmaDst p d).part = .inl f ∧ f ≠ s.ownNode
        ∧ 2 ≤ bitsOf (s1.routeEntry f) 0 2 ∧ s1.choosePort (s1.routeEntry f) off p = some k) →
      Completes i s (fun x => Started c 2 (s1.mcastMembers d).length d s1 x ∧ SameMemory s x ∧ x.fab.inject = []
        ∧ ∀ m ∈ s1.mcastMembers d, ∀ f k, s1.xlate m = some f → s1.choosePort (s1.routeEntry f) off p = some k →
          ∃ o ∈ (x.link k).out, o.vc = (if op = 5 then 3 else 4) ∧ o.pkt.op = (if op = 5 then 8 else 0x18) ∧ o.pkt.dstNode = f
            ∧ o.pkt.dstPart = (s1.dmaDst p d).part ∧ o.pkt.offset = off ∧ o.pkt.data.length = n
            ∧ ∀ q, q < n → ∃ z ∈ pl.src, ∃ l a, z.spot = .mem l a ∧ z.pos ≤ q ∧ q < z.pos + z.len
              ∧ o.pkt.data.getD q 0 = s.byteAt l (a + (q - z.pos))))

/-- A collective sends its chunks to every member; a reduce-scatter combines its slots when its counter is reached (R370, R371, R372, R373, R374, R375, R377, R378, R379). COMPLETES: REDUCE_SCATTER, ALL_GATHER, COUNTS, REDUCE_SCATTER_COMBINE. With the head of the DMA queue free to start, no collective of the core and fewer than two of the partition in progress, its member table in the envelope and in order, no storage error, and every member a node and partition that the partition may send to: REDUCE_SCATTER, ALL_GATHER and COUNTS are in progress with one answer outstanding per packet, a packet for each 4,096 bytes or part of them of each member's chunk, one per member for COUNTS; the partition's sent bytes grow by them, 16 bytes per member for COUNTS; no memory changes. A table outside the envelope halts the core with BOUND, one out of order with DESC_INVALID. REDUCE_SCATTER_COMBINE of such a descriptor whose counter has reached its threshold, its slots and result in scratchpads or LLS scratch space, without mismatch or overlap and of one class, leaves in the result the combination of the slots at the sizes and the table found at its start, every other byte as before; before the threshold it changes nothing. -/
def Obligations.CollectivesSendAndCombine : Prop :=
  ∀ (s : State) (c p : Nat), c < 512 →
    (∀ d, s.head c 2 = some (p, d) →
      ∀ op i, (op, i) ∈ [(0x10, Instr.reduceScatter c []), (0x11, .allGather c []), (0x12, .counts c [])] → d.op = op →
        (s.actsOf c 2).length < 8 → s.dmaConflict c p d = false → s.collBusy p < 2 →
        (∀ a ∈ s.actsOf c 2, a.desc.isColl = false) →
        let s1 := s.popHead c 2 d
        let sizes := s1.collSizes c d
        let packets (k : Nat) : Nat := if op = 0x12 then 1 else (d.cSize sizes k + 4095) / 4096
        let bytes (k : Nat) : Nat := if op = 0x12 then 16 else d.cSize sizes k
        let inTab : Prop := inEnv d d.cTables = true
        let halts (cause : Nat) : Prop := s.fld (.coreFault c) CoreFault.cause = 0 →
          Completes i s (Halted c cause (d.thread % 8) (d.f 0 0 4) (d.pc % 2 ^ 32) s1)
        (¬ inTab → halts cBound) ∧ (inTab → s1.collBad c p d = true → halts cDesc)
        ∧ (inTab → s1.collBad c p d = false → s1.injectStopped p = false →
          (∀ w ∈ s1.collTable c d, (∃ f, s1.mayInject p (wbits w.1 54 10) (wbits w.1 49 5) = .inl f)
            ∧ ∃ f, s1.mayInject p (wbits w.2 54 10) (wbits w.2 49 5) = .inl f) →
          (∀ z ∈ s1.collPieces c p d sizes, ∃ l a, z.spot = .mem l a ∧ ∀ q, l ≠ .hbm q) →
          Completes i s (fun x => SameMemory s x ∧ Started c 2 ((List.range d.cM).map packets).sum d s1 x
            ∧ PartFabTxSnap.bytes.get (regGet x.live (.partFabTxSnap p))
                = (PartFabTxSnap.bytes.get (regGet s.live (.partFabTxSnap p)) + ((List.range d.cM).map bytes).sum)
                    % 2 ^ PartFabTxSnap.bytes.width)))
    ∧ ∀ (k : Nat) (a : Act), (s.actsOf c 2)[k]? = some a → s.ownerOf c = some p → a.desc.op = 0x10 → a.phase = 1 → a.failed = false →
        let d := a.desc
        let n := chunk a.sizes d.cS
        let w := (a.table.getD d.cS (0, 0)).1
        let place (j : Nat) : Option (Loc × Nat) := s.spaceLoc p (wbits w 46 3) (wbits w 0 46 + j * roundBlk n) n
        let out := (s.resultPieces c p d a.sizes true).1
        (s.collReached p a = false → Completes (.reduceScatterCombine c k []) s (fun x => x = s))
        ∧ (s.collReached p a = true → (s.resultPieces c p d a.sizes true).2 = false →
          (∀ y ∈ out, ∃ l b, y.spot = .mem l b ∧ ∀ q, l ≠ .hbm q) →
          out.Pairwise (fun y z => ∀ l a b, y.spot = .mem l a → z.spot = .mem l b → a + y.len ≤ b ∨ b + z.len ≤ a) →
          ∀ (slots : List (List Byte)) (bs : List Byte), slots.length = d.cM → bs.length = n → collCombine (d.f 3 24 4) (d.f 3 28 2) n slots = some bs →
          (∀ j, j < d.cM → ∃ l b, place j = some (l, b) ∧ (∀ q, l ≠ .hbm q) ∧ (slots.getD j []).length = n
            ∧ (∀ m, m < n → (slots.getD j []).getD m 0 = s.byteAt l (b + m))
            ∧ ∀ l', s.mismatch l' (((List.range d.cM).filterMap place).flatMap (fun x => if x.1 = l' then cutAt 4096 (n + 1) x.2 n else []))
                = false) →
          Completes (.reduceScatterCombine c k []) s (fun x => x.hbm = s.hbm ∧ x.regs = s.regs ∧ (x.act c a.id).map Act.phase = some 2
            ∧ (∀ l b, (∀ q, l ≠ .hbm q) → touches (memSpans l out) b = false → x.byteAt l b = s.byteAt l b)
            ∧ ∀ y ∈ out, ∀ l b m, y.spot = .mem l b → m < y.len → x.byteAt l (b + m) = bs.getD (y.pos + m) 0))

/-- A Skiver operation leaves what it works out of its operands at its destination, and counts what it dropped and kept (R168, R169, R170, R171, R174, R176, R177, R180, R181, R189, R191, R192). COMPLETES: EXPAND, COMPACT, ROW_SCAN, ROW_PACK, ROW_UNPACK, GATE, SLOTS, COMBINE. Each of EXPAND, COMPACT, ROW_SCAN, ROW_PACK, ROW_UNPACK, GATE, SLOTS and COMBINE, its head free to start, its body in order, its reads and writes in the envelope, no write into an input range of an open step and, when it verifies, no block read whole in mismatch: every run that the operation gives for the operands as they stood is in the scratchpad, unless a later run overlaps it, the same bytes for the same operands (what GATE leaves in the weights of unused slots is open, assumption 9), every other byte of memory as before, and the engine busy for its cycles; when its operands were in order the descriptor is in progress and the counts of dropped, rerouted, excluded and kept are added, saturating; when they were not, the core halts with DESC_INVALID. A body out of order halts it with DESC_INVALID, an operand outside with BOUND, a mismatch with CRC_BLOCK. -/
def Obligations.SkiverOperationsWriteTheirRuns : Prop :=
  ∀ (s : State) (c p : Nat) (d : Desc), c < 512 → s.head c 3 = some (p, d) →
    ∀ op i, (op, i) ∈ [(1, Instr.expand c []), (2, .compact c []), (3, .rowScan c []), (4, .rowPack c []), (5, .rowUnpack c []),
        (6, .gate c []), (7, .slots c []), (9, .combine c [])] → d.op = op →
      let s1 := s.popHead c 3 d
      let o := s1.skWork c d
      let base := envAt d.env 0
      let writes : List Span := o.runs.map (fun y => (y.1, y.2.length))
      let verify : Bool := decide (d.f 3 36 1 = 0)
      let halts (cause : Nat) : Prop := s.fld (.coreFault c) CoreFault.cause = 0 →
        Completes i s (Halted c cause (d.thread % 8) (d.f 0 0 4) (d.pc % 2 ^ 32) s1)
      let within : Bool := inEnv d (o.reads ++ writes) && !s1.stepGuarded (.spm c) (relSpans d writes)
      let bad : Bool := verify && s1.mismatch (.spm c) (relSpans d o.reads)
      let wrote (x : State) : Prop := OnlySpans c (relSpans d writes) s x
        ∧ x.live = (s1.liveAdd (.coreBusySnap c 4) CoreBusySnap.cycles o.cycles).live
        ∧ ∀ (n a : Nat) (bs : List Byte), o.runs[n]? = some (a, bs) →
            (∀ (m a' : Nat) (bs' : List Byte), n < m → o.runs[m]? = some (a', bs') → a + bs.length ≤ a' ∨ a' + bs'.length ≤ a) →
            ∀ b, b < bs.length → x.byteAt (.spm c) (base + a + b) = bs.getD b 0
      let counts (r : Reg) (f : Fld) (n : Nat) (x : State) : Prop := x.fld r f = min (2 ^ f.width - 1) (s.fld r f + n)
      (skiverOk d = false → halts cDesc)
      ∧ (skiverOk d = true → within = false → halts cBound)
      ∧ (skiverOk d = true → within = true → bad = true → s.fld (.coreFault c) CoreFault.cause = 0 →
          Completes i s (fun x => Stopped c cCrc x ∧ OnlySpans c (relSpans d writes) s x))
      ∧ (skiverOk d = true → within = true → bad = false → o.bad = true → s.fld (.coreFault c) CoreFault.cause = 0 →
          Completes i s (fun x => Stopped c cDesc x ∧ wrote x))
      ∧ (skiverOk d = true → within = true → bad = false → o.bad = false → Completes i s (fun x =>
          Started c 3 0 d s1 x ∧ wrote x
          ∧ x = { s1 with cores := x.cores, live := x.live, regs := x.regs }
          ∧ counts (.coreSkvGate c) CoreSkvGate.dropped o.dropped x ∧ counts (.coreSkvGate c) CoreSkvGate.rerouted o.rerouted x
          ∧ counts (.coreSkvSlots c) CoreSkvSlots.excluded o.excluded x ∧ counts (.coreSkvSlots c) CoreSkvSlots.kept o.kept x))

/-- XCHG writes every record, row and returned row to the place its member table gives (R184, R185, R186, R187, R188, R266). COMPLETES: XCHG. With the head of the Skiver queue an XCHG and none in progress, its body and table in order, its reads in the envelope, every item with all its pieces in scratchpads of the device that it may write, no two pieces overlapping: every piece holds its bytes of its item, read as the scratchpad stood, every other byte of memory is as before, the receive counter has grown by every byte written, and the descriptor is in progress with nothing outstanding. While another XCHG of the core is in progress it changes nothing. -/
def Obligations.ExchangeWritesItsItems : Prop :=
  ∀ (s : State) (c p : Nat) (d : Desc), c < 512 → s.head c 3 = some (p, d) → d.op = 8 →
    let s1 := s.popHead c 3 d
    let pl := xchgPlan (s1.skRead c d) d
    let sends := (s1.xchgSends c p d pl.items).1
    let pcs : List (Piece × List Byte) := sends.flatMap (fun y => y.2.map (fun q => (q, y.1.bytes)))
    ((∃ a ∈ s.actsOf c 3, a.desc.op = 8) → Completes (.xchg c []) s (fun x => x = s))
    ∧ ((∀ a ∈ s.actsOf c 3, a.desc.op ≠ 8) →
      (skiverOk d = false → s.fld (.coreFault c) CoreFault.cause = 0 →
        Completes (.xchg c []) s (Halted c cDesc (d.thread % 8) (d.f 0 0 4) (d.pc % 2 ^ 32) s1))
      ∧ (skiverOk d = true → inEnv d pl.reads = true → pl.bad = false → (s1.xchgSends c p d pl.items).2 = false →
        (∀ q ∈ pcs, ∃ e a, q.1.spot = .mem (.spm e) a) →
        pcs.Pairwise (fun y z => ∀ l a b, y.1.spot = .mem l a → z.1.spot = .mem l b → a + y.1.len ≤ b ∨ b + z.1.len ≤ a) →
        Completes (.xchg c []) s (fun x => Started c 3 0 d s1 x ∧ x.lls = s.lls ∧ x.hbm = s.hbm ∧ x.fab = s.fab ∧ x.out = s.out
          ∧ (∀ q ∈ pcs, ∀ e a m, q.1.spot = .mem (.spm e) a → m < q.1.len → x.byteAt (.spm e) (a + m) = q.2.getD (q.1.pos + m) 0)
          ∧ (∀ e b, (∀ q ∈ pcs, ∀ a, q.1.spot = .mem (.spm e) a → b < a ∨ a + q.1.len ≤ b) →
              x.byteAt (.spm e) b = s.byteAt (.spm e) b)
          ∧ x.fld (.partRxBytes p (d.f 7 0 6)) PartRxBytes.bytes
              = (s.fld (.partRxBytes p (d.f 7 0 6)) PartRxBytes.bytes + (pcs.map (fun q => q.1.len)).sum)
                  % 2 ^ PartRxBytes.bytes.width)))

/-- Write-back of a full pending-block store, patrol scrub, lost channels and stacks, and margining (R233, R236, R237, R242, R243, R250, R251, R253). COMPLETES: PENDING_BLOCK_WRITEBACK, SCRUB_READ, HBM_CHANNEL_LOST, HBM_STACK_LOST, MARGIN_START, MARGIN_DONE. PENDING_BLOCK_WRITEBACK of a full store drops its oldest entry, leaves the lines of that block clean, with the bytes of each that was dirty in HBM, and the other lines as they were; of one not full it changes nothing. A scrub read of a working channel with scrub on moves the channel's scrub place on by 64 bytes; a clean one changes no byte of HBM, a corrected one counts, an uncorrectable one, of a transfer poisoned already too, leaves 64 zero bytes, poisons them and counts; with scrub off, or on the channel that a margining run is about, nothing changes. A lost channel is marked lost and no dirty line of it stays; with it or with a lost stack every partition with a region on the stack is Fenced, and the stack loses all its channels with the last of them. A margining start while drained, of a lane up to 67, runs on the channel that it names and is not refused; otherwise it is refused; before the device has booted or while it is Fenced the write does nothing. MARGIN_DONE records the eye and ends the run. -/
def Obligations.HbmScrubsLosesAndMargins : Prop :=
  ∀ (s : State),
    (∀ d p, d < 4 → p < 32 →
      (s.llsCache d p = true ∧ 1536 * s.llsWays d p ≤ (s.slice d p).pend.length →
        ∀ e r, (s.slice d p).pend = e :: r → Completes (.pendingBlockWriteback d p) s (fun x =>
          (x.slice d p).pend = (s.slice d p).pend.filter (fun y => y.idx ≠ e.idx)
          ∧ (x.slice d p).lines = (s.slice d p).lines.map (fun l => if l.idx / 32 = e.idx then { l with dirty := false } else l)
          ∧ x = { s with hbm := x.hbm, lls := x.lls, live := x.live, parts := x.parts }
          ∧ ∀ l ∈ (s.slice d p).lines, l.dirty = true → l.idx / 32 = e.idx → (∀ m ∈ (s.slice d p).lines, m.idx = l.idx → m = l) →
              ∀ ch b, s.hbmPlace p (128 * l.idx) = some (ch, b) → s.chLost ch = false →
                ∀ n, n < 128 → x.byteAt (.hbm p) (128 * l.idx + n) = memGet l.bytes n))
      ∧ (¬ (s.llsCache d p = true ∧ 1536 * s.llsWays d p ≤ (s.slice d p).pend.length) →
          Completes (.pendingBlockWriteback d p) s (fun x => x = s)))
    ∧ (∀ k ch, k < 8 → ch < 32 →
      let key := k * 32 + ch
      let place := mget s.hbm.scrubAt key 0
      let addr := hbmAddr key (place % 2 ^ 31 / 64 * 64)
      let moved (x : State) : Prop := mget x.hbm.scrubAt key 0 = place + 64 ∧ ∀ j, j ≠ key → mget x.hbm.scrubAt j 0 = mget s.hbm.scrubAt j 0
      let counted (f : Fld) (x : State) : Prop :=
        x.fld (.hbmChEcc k ch) f = min (2 ^ f.width - 1) (s.fld (.hbmChEcc k ch) f + 1)
      let paused : Prop := s.hbm.margin = some key
      (∀ r, s.fld .hbmScrubCtl HbmScrubCtl.enable = 0 ∨ s.chWorks k ch = false ∨ paused → Completes (.scrubRead k ch r) s (fun x => x = s))
      ∧ (s.fld .hbmScrubCtl HbmScrubCtl.enable ≠ 0 → s.chWorks k ch = true → ¬ paused →
        Completes (.scrubRead k ch .clean) s (fun x => moved x ∧ x.hbm.mem = s.hbm.mem ∧ x.cores = s.cores ∧ x.lls = s.lls)
        ∧ (∀ lane, lane < 68 → Completes (.scrubRead k ch (.fixed lane)) s (fun x => moved x ∧ x.hbm.mem = s.hbm.mem ∧ counted HbmChEcc.corrected x))
        ∧ (Completes (.scrubRead k ch .lost) s (fun x => moved x ∧ counted HbmChEcc.uncorrected x
            ∧ (x.hblk addr).poison.getLsbD (place % 2 ^ 31 % 4096 / 64) = true
            ∧ ∀ a, memGet x.hbm.mem a = if addr ≤ a ∧ a < addr + 64 then 0 else memGet s.hbm.mem a))))
    ∧ (∀ k, k < 8 →
      let fenced (x : State) : Prop := (∀ p ∈ s.partsOnStack k, x.partState p = 3) ∧ x.hbm = s.hbm
      let clean (q : Nat → Prop) (x : State) : Prop := ∀ d p l, d < 4 → p < 32 → l ∈ (x.slice d p).lines → l.dirty = true →
        ∀ ch b, s.hbmPlace p (128 * l.idx) = some (ch, b) → ¬ q ch
      let gone (x : State) : Prop := x.fld (.hbmStackState k) HbmStackState.state = 3 ∧ x.fld (.hbmStackState k) HbmStackState.working = 0
        ∧ x.fld (.hbmStackState k) HbmStackState.chOk = 0 ∧ ∀ c, c < 32 → s.chWorks k c = true → x.fld (.hbmChState k c) HbmChState.state = 2
      let st := s.fld (.hbmStackState k) HbmStackState.state
      (st = 0 ∨ st = 3 → Completes (.hbmStackLost k) s (fun x => x = s))
      ∧ (st ≠ 0 → st ≠ 3 → Completes (.hbmStackLost k) s (fun x => fenced x ∧ gone x ∧ clean (fun ch => ch / 32 = k) x))
      ∧ ∀ ch, ch < 32 → (s.chWorks k ch = false ∨ st = 0 → Completes (.hbmChannelLost k ch) s (fun x => x = s))
        ∧ (s.chWorks k ch = true → st ≠ 0 →
          Completes (.hbmChannelLost k ch) s (fun x => fenced x ∧ clean (fun j => j = k * 32 + ch) x
            ∧ x.fld (.hbmChState k ch) HbmChState.state = 2
            ∧ ((∀ j, j < 32 → j ≠ ch → s.chWorks k j = false) → gone x)
            ∧ ((∃ j, j < 32 ∧ j ≠ ch ∧ s.chWorks k j = true) → x.fld (.hbmStackState k) HbmStackState.state = 2
              ∧ x.fld (.hbmStackState k) HbmStackState.working = s.fld (.hbmStackState k) HbmStackState.working - 1
              ∧ ∀ j, (x.fld (.hbmStackState k) HbmStackState.chOk).testBit j
                  = ((s.fld (.hbmStackState k) HbmStackState.chOk).testBit j && decide (j ≠ ch))))))
    ∧ (∀ v : BitVec 64, (s.pkg.booted = false ∨ s.devState = 3 → Completes (.marginStart v) s (fun x => x = s))
      ∧ (s.pkg.booted = true → s.devState ≠ 3 →
      let ok : Bool := s.drained && decide (HbmMarginCtl.lane.get v ≤ 67) && s.hbm.margin.isNone
      let fields (x : State) : Prop := (∀ f ∈ [HbmMarginCtl.stack, HbmMarginCtl.channel, HbmMarginCtl.lane, HbmMarginCtl.axis],
          x.fld .hbmMarginCtl f = f.get v) ∧ ∀ r, r ≠ .hbmMarginCtl → r ≠ .hbmMarginRes → x.reg r = s.reg r
      (HbmMarginCtl.start.get v = 0 → Completes (.marginStart v) s (fun x => fields x ∧ x = { s with regs := x.regs }
        ∧ x.reg .hbmMarginRes = s.reg .hbmMarginRes))
      ∧ (HbmMarginCtl.start.get v ≠ 0 → ok = true → Completes (.marginStart v) s (fun x => fields x
        ∧ x.hbm.margin = some (HbmMarginCtl.stack.get v * 32 + HbmMarginCtl.channel.get v)
        ∧ x.fld .hbmMarginRes HbmMarginRes.refused = 0 ∧ x.fld .hbmMarginRes HbmMarginRes.done = 0))
      ∧ (HbmMarginCtl.start.get v ≠ 0 → ok = false → Completes (.marginStart v) s (fun x => fields x
        ∧ x.fld .hbmMarginRes HbmMarginRes.refused = 1 ∧ x = { s with regs := x.regs }))))
    ∧ ∀ (low high : BitVec 8),
      (s.hbm.margin ≠ none → Completes (.marginDone low high) s (fun x => x.fld .hbmMarginRes HbmMarginRes.low = low.toNat
        ∧ x.fld .hbmMarginRes HbmMarginRes.high = high.toNat ∧ x.fld .hbmMarginRes HbmMarginRes.done = 1
        ∧ x = { s with regs := x.regs, hbm := { s.hbm with margin := none } } ∧ ∀ r, r ≠ .hbmMarginRes → x.reg r = s.reg r))
      ∧ (s.hbm.margin = none → Completes (.marginDone low high) s (fun x => x = s))

/-- A tick counts, latches the SNAP registers, and releases or slips each segment (R7, R291, R300, R303, R304, R307). COMPLETES: STITCH_TICK. In Off a tick changes nothing. Otherwise, without a pending re-join, STCH_COUNT is one more modulo 2^48; STCH_TICK_COUNT and STCH_TICK_UPTIME hold the count and the uptime of the tick, and every register that counts for the stitch, but for the energy, holds its running count. A segmented, Armed partition that is not held, no stored word of which has failed its check, has one slip more when a slip token withholds this tick, and one release more when none does. With a re-join pending and the master's count known, the count becomes the master's next one and nothing is pending. -/
def Obligations.TheTickCountsLatchesAndReleases : Prop :=
  ∀ (s : State) (gf : List GfUpset),
    (s.tickState = 0 → Completes (.stitchTick gf) s (fun x => x = s))
    ∧ (s.tickState ≠ 0 →
      let now := (s.count + 1) % 2 ^ 48
      Completes (.stitchTick gf) s (fun x => x.fld .stchTickCount StchTickCount.value = x.count ∧ x.reg .stchTickUptime = s.pkg.uptime
        ∧ (s.fld .stchStatus StchStatus.rejoinPending = 0 → x.count = now
          ∧ ∀ r, r.isCount = true → r ≠ .pwrEnergySnap → x.reg r = regGet s.live r))
      ∧ (s.fld .stchStatus StchStatus.rejoinPending = 1 → s.fld .stchMasterCount StchMasterCount.valid = 1 →
        Completes (.stitchTick gf) s (fun x => x.fld .stchStatus StchStatus.rejoinPending = 0
          ∧ x.count = (s.fld .stchMasterCount StchMasterCount.count + 1) % 2 ^ 48))
      ∧ (gf = [] → s.fld .stchStatus StchStatus.rejoinPending = 0 →
        ∀ p, s.partNums.count p = 1 → s.segmented p = true → s.partState p = 2 → s.isHeld p = false →
          ((p, now) ∈ s.stitch.withheld → Completes (.stitchTick gf) s (fun x =>
            x.fld (.partStchSlip p) PartStchSlip.slips
              = min (2 ^ PartStchSlip.slips.width - 1) (s.fld (.partStchSlip p) PartStchSlip.slips + 1)
            ∧ x.fld (.partStchSeg p) PartStchSeg.releases = s.fld (.partStchSeg p) PartStchSeg.releases))
          ∧ ((p, now) ∉ s.stitch.withheld → Completes (.stitchTick gf) s (fun x =>
            x.fld (.partStchSlip p) PartStchSlip.slips = s.fld (.partStchSlip p) PartStchSlip.slips
            ∧ x.fld (.partStchSeg p) PartStchSeg.releases
              = (s.fld (.partStchSeg p) PartStchSeg.releases + 1) % 2 ^ PartStchSeg.releases.width))))

/-- Markers lock and steer the tick; lost inputs, the standby master and the re-join change its state (R289, R290, R291, R292, R293, R294, R295, R305, R307). COMPLETES: MARKER, INPUT_LOST, STANDBY_TAKEOVER, REJOIN. A marker on a port that carries no traffic changes nothing, one that fails its CRC is only counted as skipped. A valid marker of the configured master on the input that the device follows brings a Free tick to Locked with the marker's count; a Locked tick stays so when its phase error, the time since the latest local tick less the delay of the link and less the time of the local tick with the marker's count, reduced modulo the period, lies within 16 ns and goes to Slew when it does not; it keeps its count, shows the master's, and sets count_split when the two differ. An input that is lost is marked; when it was in use the next live one is in use, and with none left a Locked or Slew tick goes to Holdover. The standby master takes over in Holdover once it has held for its configured ticks. REJOIN, in a booted device that is not Fenced, is pending when the tick is Locked and every segmented Armed partition of a spanning job is held, and refused otherwise. -/
def Obligations.MarkersSteerTheTick : Prop :=
  ∀ (s : State),
    (∀ port (payload : List Byte) crcOk since, port < 64 → payload.length = 112 →
      let i (b : Bool) : Instr := .marker port payload b since
      (s.carrying port = false → Completes (i crcOk) s (fun x => x = s))
      ∧ (s.carrying port = true → Completes (i false) s (fun x => x = { s with regs := x.regs }
        ∧ (∀ r, r ≠ .fabConsStat port → x.reg r = s.reg r) ∧ x.fld (.fabConsStat port) FabConsStat.skipped
          = min (2 ^ FabConsStat.skipped.width - 1) (s.fld (.fabConsStat port) FabConsStat.skipped + 1)))
      ∧ ∀ n, (List.range 4).find? (fun j => decide (s.inputPort j = some port)) = some n → s.carrying port = true →
          let w (o m : Nat) : Nat := leNat ((payload.drop o).take m)
          s.tickRole ≠ 1 → s.acting = false → w 6 1 = s.fld .stchCtl StchCtl.periodUs → w 8 2 % 1024 = s.masterNode →
          (w 7 1).testBit 2 = false → (w 7 1).testBit 3 = false →
          (s.modStitch (fun t => { t with inputs := mset t.inputs n ⟨false, false⟩ })).pickInput = n →
          (s.tickState = 1 → Completes (i true) s (fun x => x.tickState = 2 ∧ x.count = w 0 6 ∧ x.tickInput = n
            ∧ x.fld .stchMasterCount StchMasterCount.count = w 0 6 ∧ mfind x.stitch.inputs n = some ⟨false, false⟩))
          ∧ (s.tickState = 2 →
            let noTag := w 88 2
            let s1 := ((List.range 9).filter (fun l => noTag.testBit l)).foldl (fun t l => t.reportedLine port l) (s.auditMarker port payload)
            let raw : Int := since - s1.fld (.optPortState port) OptPortState.delayNs + countDiff s.count (w 0 6) * s.periodNs
            let err := phaseError raw s.periodNs
            let ahead : Int := if s.periodNs = 0 then 0 else (raw - err) / s.periodNs
            Completes (i true) s (fun x => x.tickInput = n ∧ x.count = s.count
              ∧ (-16 ≤ err ∧ err ≤ 16 → x.tickState = 2) ∧ (¬ (-16 ≤ err ∧ err ≤ 16) → x.tickState = 3)
              ∧ x.fld .stchPhase StchPhase.errorNs = unsigned 32 err
              ∧ x.fld .stchMasterCount StchMasterCount.count = unsigned 48 (s.count - ahead)
              ∧ (ahead ≠ 0 → x.fld .stchStatus StchStatus.countSplit = 1))))
    ∧ (∀ i, i < 4 →
      ((∀ y, mfind s.stitch.inputs i = some y → y.lost = true) → Completes (.inputLost i) s (fun x => x = s))
      ∧ ∀ y, mfind s.stitch.inputs i = some y → y.lost = false →
        let s1 := s.modStitch (fun t => { t with inputs := mset t.inputs i { y with lost := true } })
        Completes (.inputLost i) s (fun x => mfind x.stitch.inputs i = some { y with lost := true } ∧ SameMemory s x
          ∧ x.count = s.count
          ∧ (s.tickInput ≠ i → x = s1)
          ∧ (s.tickInput = i → x.tickInput = s1.pickInput
            ∧ (s1.pickInput = 7 → s.tickState = 2 ∨ s.tickState = 3 → x.tickState = 4 ∧ x.stitch.holdTicks = 0)
            ∧ (s1.pickInput ≠ 7 → x.tickState = s.tickState))))
    ∧ (let ok : Prop := s.tickRole = 2 ∧ s.tickState = 4 ∧ s.staged 10 1 / 65536 ≤ s.stitch.holdTicks
      (ok → Completes .standbyTakeover s (fun x => x.acting = true ∧ x.tickState = 2 ∧ x.count = s.count ∧ x.stitch = s.stitch
        ∧ SameMemory s x))
      ∧ (¬ ok → Completes .standbyTakeover s (fun x => x = s)))
    ∧ (let ok : Prop := s.tickState = 2
        ∧ ∀ p ∈ s.partNums, s.partState p = 2 → s.segmented p = true → s.spans p = true → s.isHeld p = true
      let only (x : State) : Prop := x = { s with regs := x.regs } ∧ ∀ r, r ≠ .stchStatus → x.reg r = s.reg r
      (s.pkg.booted = false ∨ s.devState = 3 → Completes .rejoin s (fun x => x = s))
      ∧ (s.pkg.booted = true → s.devState ≠ 3 →
      (ok → Completes .rejoin s (fun x => only x ∧ x.fld .stchStatus StchStatus.rejoinPending = 1
        ∧ x.fld .stchStatus StchStatus.rejoinRefused = 0))
      ∧ (¬ ok → Completes .rejoin s (fun x => only x ∧ x.fld .stchStatus StchStatus.rejoinRefused = 1
        ∧ x.fld .stchStatus StchStatus.rejoinPending = s.fld .stchStatus StchStatus.rejoinPending))))

/-- Segment deadlines, slip tokens, cinch notes and the hold of a partition (R275, R277, R297, R298, R299, R300, R301, R303, R314). COMPLETES: SEGMENT_DEADLINE, SLIP_TOKEN, CINCH_NOTE, PART_STCH_CTL_WRITE. At the deadline of a segmented, Armed partition, the tick not Off: when every core has finished it is noted as finished; when one has not and the partition is not held, its overruns grow by one and its next tick is withheld, once in a stitch; a held one only loses its mark. With the tick Off, or without segments, nothing changes. A slip token that has been applied leaves only its packet dropped; a new one withholds the tick it names when that is one of the next two and the partition of its job is segmented, Armed and not held, and is counted as ignored otherwise. A new cinch note for a grid-scope line is kept, or, when it is the last one of a line that has released locally, releases the line with all the threads that are parked at it. A write of PART_STCH_CTL, in a device that is not Fenced, stores hold and resume count; clearing a hold that stands keeps the partition held until its next deadline. -/
def Obligations.SegmentsSlipTogether : Prop :=
  ∀ (s : State),
    (∀ p, p < 32 →
      let next := (s.count + 1) % 2 ^ 48
      let above (x : State) : Nat := x.fld (.partStchSlip p) PartStchSlip.overruns
      let only (x : State) : Prop := x = { s with stitch := x.stitch } ∧ p ∉ x.stitch.unhold ∧ x.stitch.withheld = s.stitch.withheld
      (s.tickState = 0 ∨ s.segmented p = false → Completes (.segmentDeadline p) s (fun x => x = s))
      ∧ (s.tickState ≠ 0 → s.segmented p = true →
        (s.partState p ≠ 2 → Completes (.segmentDeadline p) s (fun x => only x ∧ p ∉ x.stitch.finished))
        ∧ (s.partState p = 2 → s.unfinished p = [] → Completes (.segmentDeadline p) s (fun x => only x ∧ p ∈ x.stitch.finished))
        ∧ (s.partState p = 2 → s.unfinished p ≠ [] →
          (s.fld (.partStchCtl p) PartStchCtl.hold = 1 → Completes (.segmentDeadline p) s (fun x => only x ∧ p ∉ x.stitch.finished))
          ∧ (s.fld (.partStchCtl p) PartStchCtl.hold ≠ 1 → p ∈ s.stitch.overran → Completes (.segmentDeadline p) s (fun x => only x ∧ p ∉ x.stitch.finished))
          ∧ (s.fld (.partStchCtl p) PartStchCtl.hold ≠ 1 → p ∉ s.stitch.overran → Completes (.segmentDeadline p) s (fun x => p ∈ x.stitch.overran ∧
            above x = min (2 ^ PartStchSlip.overruns.width - 1) (above s + 1) ∧ (p, next) ∈ x.stitch.withheld
            ∧ p ∉ x.stitch.finished ∧ (0x30, s.jobOf p, s.ownNode, next, 0) ∈ x.stitch.seen ∧ SameMemory s x)))))
    ∧ (∀ i w, s.waitingPkt i (fun q => decide (q.op = 0x30)) = some w →
      let d := leNat w.pkt.data
      let job := bitsOf d 0 16
      let tick := bitsOf d 16 48
      let key := (0x30, job, bitsOf d 64 10, tick, 0)
      let ignored (x : State) : Nat := x.fld .stchStat StchStat.tokensIgnored
      let ahead := (tick + 2 ^ 48 - s.count) % 2 ^ 48
      let usable (p : Nat) : Prop := s.segmented p = true ∧ s.partState p = 2 ∧ s.isHeld p = false
      let more (x : State) : Prop := key ∈ x.stitch.seen ∧ ignored x = min (2 ^ StchStat.tokensIgnored.width - 1) (ignored s + 1)
        ∧ x.stitch.withheld = s.stitch.withheld
      (key ∈ s.stitch.seen → Completes (.slipToken i) s (fun x => x = (s.dropWaiting i).doneWith w))
      ∧ (key ∉ s.stitch.seen →
        (s.jobPart job = none → Completes (.slipToken i) s more)
        ∧ ∀ p, s.jobPart job = some p →
          (¬ usable p ∨ (ahead ≠ 1 ∧ ahead ≠ 2) → Completes (.slipToken i) s more)
          ∧ (usable p → ahead = 1 ∨ ahead = 2 → Completes (.slipToken i) s (fun x => key ∈ x.stitch.seen
            ∧ (p, tick) ∈ x.stitch.withheld ∧ ignored x = ignored s ∧ SameMemory s x))))
    ∧ (∀ i w, s.waitingPkt i (fun q => decide (q.op = 0x31)) = some w →
      let d := leNat w.pkt.data
      let job := bitsOf d 0 16
      let line := bitsOf d 16 6
      let origin := bitsOf d 24 10
      let key := (0x31, job, origin, bitsOf d 40 48, line)
      (key ∈ s.stitch.seen → Completes (.cinchNote i) s (fun x => x = (s.dropWaiting i).doneWith w))
      ∧ (key ∉ s.stitch.seen → ∀ p u, s.jobPart job = some p → s.lineUse p line = some u → u.grid = true →
        let all : Prop := (s.cinch line).localDone = true
          ∧ ∀ m ∈ s.jobMembers p, m.2 = origin ∨ m.2 ∈ (s.cinch line).notes
        (¬ all → Completes (.cinchNote i) s (fun x => key ∈ x.stitch.seen
          ∧ x.cinch line = { s.cinch line with notes := (s.cinch line).notes ++ [origin] } ∧ SameMemory s x))
        ∧ (all → Completes (.cinchNote i) s (fun x => key ∈ x.stitch.seen ∧ (x.cinch line).arrived = []
          ∧ (x.cinch line).localDone = false ∧ SameMemory s x
          ∧ ∀ a ∈ (s.cinch line).arrived, (s.thread (a / 8) (a % 8)).stat = .parked (.cinch line) → (x.thread (a / 8) (a % 8)).stat = .ready))))
    ∧ ∀ p (v : BitVec 64), p < 32 → (mfind s.parts p).isSome = true → s.host.vfEnable = true → s.devState ≠ 3 →
      Completes (.partStchCtlWrite p v) s (fun x => x.fld (.partStchCtl p) PartStchCtl.hold = PartStchCtl.hold.get v
        ∧ x.fld (.partStchCtl p) PartStchCtl.resumeCount = PartStchCtl.resumeCount.get v
        ∧ (∀ r, r ≠ .partStchCtl p → x.reg r = s.reg r) ∧ x = { s with regs := x.regs, stitch := { s.stitch with unhold := x.stitch.unhold } }
        ∧ (PartStchCtl.hold.get v = 0 → s.fld (.partStchCtl p) PartStchCtl.hold = 1 → x.isHeld p = true)
        ∧ ∀ q, q ≠ p → (q ∈ x.stitch.unhold ↔ q ∈ s.stitch.unhold))

/-- A write to a GF register whose halves do not complement leaves the register and logs GF_MISMATCH (R8). In a booted device that is not Fenced, for every GF register of the block (HARN_BOOT, FAB_ROUTE, FAB_XLATE, FAB_REACH, PWR_GRANT, CORE_SPM_REMAP of a framed core, and through the VF of a granted partition PART_REGION and PART_GTACK_CTL), a write of a value whose upper half is not the complement of its lower half leaves the register at its previous value, and GF_MISMATCH stands among the block's events. -/
def Obligations.RejectedGrainFleshWritesKeepTheRegister : Prop :=
  ∀ (s : State) (v : BitVec 64), gfOk v = false → s.pkg.booted = true → s.devState ≠ 3 →
    let kept (r : Reg) (i : Instr) : Prop := Completes i s (fun x => x.reg r = s.reg r ∧ x.Noted 0x4B01)
    kept .harnBoot (.harnBootWrite v)
    ∧ (∀ n, n < 1024 → kept (.fabRoute n) (.fabRouteWrite n v) ∧ kept (.fabXlate n) (.fabXlateWrite n v))
    ∧ (∀ p i, p < 32 → i < 18 → kept (.fabReach p i) (.fabReachWrite p i v))
    ∧ (∀ p, p < 32 → kept (.pwrGrant p) (.pwrGrantWrite p v))
    ∧ (∀ off c b i, off % 8 = 0 → viewOf off = none → pfPlace off = .reg (.coreSpmRemap c b i) →
        (mfind s.cores c).isSome = true → kept (.coreSpmRemap c b i) (.registerWrite .pf off v))
    ∧ ∀ p, p < 32 → (mfind s.parts p).isSome = true → s.host.vfEnable = true →
        kept (.partGtackCtl p) (.partGtackCtlWrite p v)
        ∧ ∀ i w, i < 256 → w < 4 → kept (.partRegion p i w) (.partRegionWrite p i w v)

/-- Region words, counters and grid tacks of a partition; the quiesce control, the tables and their reload (R6, R271, R285, R319, R321, R325, R347, R348, R368, R457). COMPLETES: PART_REGION_WRITE, PART_RX_CTL_WRITE, PART_GTACK_CTL_WRITE, FAB_TABLE_CTL_WRITE, FAB_ROUTE_WRITE, FAB_XLATE_WRITE, FAB_REACH_WRITE, GF_TABLE_RELOAD. In a booted device that is not Fenced, through the VF of a granted partition: a region word takes a value whose halves complement, with its reserved bits 0; PART_RX_CTL zeroes and disarms the counter it names; PART_GTACK_CTL sets, no thread being parked on it, or clears a grid tack of the grant of an Armed partition, whose register takes the value too, and does nothing for another. FAB_TABLE_CTL takes mask and quiesce, and what waits for injection of a partition that is still stopped stays. A write of a route, XLATE or reach word takes effect while quiesced and quiet, outside Bare, and not when it would name a node twice: the word is stored with its reserved bits 0, counts as written and is not disabled; otherwise it is counted as refused and not stored. After an XLATE write FAB_NODE shows whether and as which logical node the device is named. A disabled entry that was not written is enabled again by a reload whose copy is good and stays disabled, as written, when it is not. -/
def Obligations.PartitionAndTableWrites : Prop :=
  ∀ (s : State) (v : BitVec 64),
    (∀ p, p < 32 → (mfind s.parts p).isSome = true → s.host.vfEnable = true → s.devState ≠ 3 →
      let only (r : Reg) (x : State) : Prop := x = { s with regs := x.regs } ∧ ∀ q, q ≠ r → x.reg q = s.reg q
      (∀ i w, i < 256 → w < 4 → gfOk v = true → Completes (.partRegionWrite p i w v) s (fun x =>
        only (.partRegion p i w) x ∧ x.reg (.partRegion p i w)
          = gfMasked v (if w < 2 then 2 ^ 30 - 1 else if w = 2 then 2 ^ 31 - 1 else 0)))
      ∧ (let c := PartRxCtl.counter.get v
         (PartRxCtl.zero.get v = 1 → Completes (.partRxCtlWrite p v) s (fun x => x = { s with regs := x.regs }
           ∧ x.reg (.partRxBytes p c) = 0 ∧ x.reg (.partRxPkts p c) = 0 ∧ x.reg (.partRxArm p c) = 0
           ∧ ∀ q, q ≠ .partRxBytes p c → q ≠ .partRxPkts p c → q ≠ .partRxArm p c → x.reg q = s.reg q))
         ∧ (PartRxCtl.zero.get v = 0 → Completes (.partRxCtlWrite p v) s (fun x => x = s)))
      ∧ (let g := PartGtackCtl.tack.get v
         let mine : Prop := s.partState p = 2 ∧ s.gtFirst p ≤ g ∧ g < s.gtFirst p + s.gtCount p
         gfOk v = true →
          (¬ mine → Completes (.partGtackCtlWrite p v) s (fun x => x = s))
          ∧ (mine → PartGtackCtl.value.get v = 0 → Completes (.partGtackCtlWrite p v) s (fun x =>
              (∀ j, x.gtacks.getLsbD j = (s.gtacks.getLsbD j && decide (j ≠ g))) ∧ x.cores = s.cores ∧ SameMemory s x ∧ x.reg (.partGtackCtl p) = gfMasked v (2 ^ 11 - 1)))
          ∧ (mine → PartGtackCtl.value.get v = 1 →
              (∀ y ∈ s.cores, ∀ x ∈ y.2.threads, ∀ cl, x.2.stat ≠ .parked (.gtack g cl)) →
              Completes (.partGtackCtlWrite p v) s (fun x =>
                (∀ j, x.gtacks.getLsbD j = (s.gtacks.getLsbD j || decide (j = g))) ∧ x.cores = s.cores ∧ SameMemory s x ∧ x.reg (.partGtackCtl p) = gfMasked v (2 ^ 11 - 1)))))
    ∧ (s.pkg.booted = false ∨ s.devState = 3 → ∀ n, n < 1024 →
        ∀ i ∈ [Instr.fabTableCtlWrite v, .fabRouteWrite n v, .fabXlateWrite n v, .fabReachWrite (n % 32) (n % 18) v], Completes i s (fun x => x = s))
    ∧ (s.pkg.booted = true → s.devState ≠ 3 → Completes (.fabTableCtlWrite v) s (fun x => x.fld .fabTableCtl FabTableCtl.partMask = FabTableCtl.partMask.get v
        ∧ x.fld .fabTableCtl FabTableCtl.quiesce = FabTableCtl.quiesce.get v ∧ SameMemory s x
        ∧ (s.fab.inject = [] → x = { s with regs := x.regs } ∧ ∀ q, q ≠ .fabTableCtl → x.reg q = s.reg q)
        ∧ (FabTableCtl.quiesce.get v = 1 → ∀ e ∈ s.fab.inject, (FabTableCtl.partMask.get v).testBit e.1.srcPart = true →
            e ∈ x.fab.inject)))
    ∧ (∀ (r : Reg) (off mask : Nat) (i : Instr), gfOk v = true → s.pkg.booted = true → s.devState ≠ 3 →
        ((∃ n, n < 1024 ∧ r = .fabRoute n ∧ off = routeOff n ∧ mask = 2 ^ 19 - 1 ∧ i = .fabRouteWrite n v)
          ∨ (∃ p j, p < 32 ∧ j < 18 ∧ r = .fabReach p j ∧ off = reachOff p j
              ∧ mask = (if j = 0 then 2 ^ 22 - 1 else if j = 1 then 0x1F7F else 2 ^ 25 - 1) ∧ i = .fabReachWrite p j v)
          ∨ ∃ n, n < 1024 ∧ r = .fabXlate n ∧ off = xlateOff n ∧ mask = 2 ^ 11 - 1 ∧ i = .fabXlateWrite n v) →
        let twice : Prop := ∃ n m, r = .fabXlate n ∧ (grain v).testBit 10 = true ∧ m < 1024 ∧ m ≠ n ∧ s.xlate m = some (bitsOf (grain v) 0 10)
        (s.tableOpen = false ∨ twice → Completes i s (fun x => x.reg r = s.reg r ∧ x.fab = s.fab ∧ x.Noted 0x4803
          ∧ Counted (.fabStat 1) FabStat.hi 1 s x))
        ∧ (s.tableOpen = true → ¬ twice → Completes i s (fun x => x.reg r = gfMasked v mask ∧ off ∈ x.fab.written ∧ off ∉ x.fab.disabled ∧ SameMemory s x
          ∧ ((∀ n, r ≠ .fabXlate n) → x = { s with regs := x.regs, fab := x.fab } ∧ ∀ q, q ≠ r → x.reg q = s.reg q)
          ∧ (∀ n, r = .fabXlate n → (x.noLogical = true ↔ x.logicalOf x.ownNode = none)
              ∧ ∀ m, x.logicalOf x.ownNode = some m → x.ownLnode = m))))
    ∧ ∀ (tab : GfTable) (i w : Nat) (good : Bool), tab.wf i w = true →
        let off := (tableOff tab i w).2
        (off ∉ s.fab.disabled ∨ off ∈ s.fab.written → Completes (.gfTableReload tab i w good) s (fun x => x = s))
        ∧ (off ∈ s.fab.disabled → off ∉ s.fab.written →
          Completes (.gfTableReload tab i w good) s (fun x => Counted .fabConsDev FabConsDev.gf 1 s x ∧ SameMemory s x
            ∧ (good = true → off ∉ x.fab.disabled ∧ off ∉ x.fab.written)
            ∧ (good = false → off ∈ x.fab.disabled ∧ off ∈ x.fab.written ∧ x.Noted 0x1B01)))

/-- What a flit boundary sends, what a nak or a replay time-out repeats, and the timers of a link (R329, R331, R332, R333, R336, R340, R342, R343, R400, R462). COMPLETES: FLIT_SLOT, NAK, NAK_REPEAT, REPLAY_TIMEOUT, ACK_TIMER, CTRL_RESEND. At a boundary of a port that carries traffic exactly one flit of the port goes out: the marker that waits; else the first CTRL message; else the oldest flit that is to be sent again, with the credits of its first sending; else the packet flit of VC0 or of the frame's slot, which takes the next sequence number, joins the unacknowledged ones and uses a credit; else an IDLE flit. Each new flit but a marker returns the credits that are due. In Train only a CTRL message leaves. After the flit the lane moves whose flit has come take effect (takeMoves). A NAK or a replay time-out has every unacknowledged flit sent again and counts a replay; the eighth in succession takes the port to Seek; with none it changes nothing. NAK_REPEAT makes the nak due again while a flit is awaited, ACK_TIMER sends an IDLE flit when an acknowledgement is due. A CTRL request is sent again and counted up to 100 times; a credit request that has been sent 100 times takes the port to Seek. -/
def Obligations.LinksSendAndRepeatFlits : Prop :=
  ∀ (s : State) (k : Nat), k < 64 →
    let l := s.link k
    let sent (ty vc seq : Nat) (payload : List Byte) (cr : Nat × Nat) (x : State) : Prop := ∃ b rest, x.out = s.out ++ .flit k b :: rest
      ∧ bitsOf (leNat (b.take 8)) 0 18 = ty + vc * 2 ^ 3 + seq * 2 ^ 6
      ∧ (l.lastAcc < 4096 → bitsOf (leNat (b.take 8)) 18 12 = l.lastAcc ∧ bitsOf (leNat (b.take 8)) 40 8 = cr.2
        ∧ (cr.2 ≠ 0 → cr.1 < pairCount → bitsOf (leNat (b.take 8)) 32 3 = pairVc cr.1 ∧ bitsOf (leNat (b.take 8)) 35 5 = pairPart cr.1))
      ∧ (b.drop 8).take 112 = padTo 112 payload ∧ b.length = 128
    let back := s.creditReturn k
    let toSeek (x : State) : Prop := x.portState k = 1 ∧ x.carrying k = false
    let moved (P : State → Prop) (x : State) : Prop := ∃ y, P y ∧ x = y.takeMoves k
    (s.carrying k = true →
      (∀ m, l.marker = some m → Completes (.flitSlot k) s (moved (fun x =>
        sent 5 0 0 (m.take 16 ++ s.auditBytes k ++ m.drop 16) (0, 0) x ∧ (x.link k).marker = none ∧ (x.link k).ci = l.ci ∧ SameMemory s x)))
      ∧ (l.marker = none → ∀ c r, l.ctrl = c :: r → Completes (.flitSlot k) s (moved (fun x =>
        sent 6 0 0 c.bytes back x ∧ (x.link k).ctrl = r ∧ SameMemory s x)))
      ∧ (l.marker = none → l.ctrl = [] →
        (l.resend ≠ 0 → ∀ f, l.unacked[l.unacked.length - l.resend]? = some f → f.kind < 8 → f.vc < 8 → f.seq < 4096 → f.cred.2 < 256 →
          Completes (.flitSlot k) s (moved (fun x => sent f.kind f.vc f.seq f.payload f.cred x ∧ (x.link k).resend = l.resend - 1
            ∧ (x.link k).unacked = l.unacked ∧ (x.link k).ci = l.ci ∧ (x.link k).o = l.o ∧ SameMemory s x)))
        ∧ (l.resend = 0 → l.nextSeq < 4096 →
          let q := frameSlot s.frameShares (l.slot % 1024)
          let out (o : OutPkt) (x : State) : Prop :=
            sent (flitType o.sent o.total) o.vc l.nextSeq (o.pkt.flit o.sent) back x ∧ (x.link k).nextSeq = (l.nextSeq + 1) % 4096
            ∧ (x.link k).unacked = l.unacked ++ [⟨l.nextSeq, flitType o.sent o.total, o.vc, o.pkt.flit o.sent, back,
                if o.sent + 1 = o.total ∧ o.src = none ∧ isResponse o.pkt.op = true then some o.pkt.srcPart else none⟩]
            ∧ mget (x.link k).h o.pair 0 = l.held o.pair - 1 ∧ mget (x.link k).fs o.pair 0 = (mget l.fs o.pair 0 + 1) % 2 ^ 32
            ∧ (back.2 ≠ 0 → mget (x.link k).ci back.1 0 = (mget l.ci back.1 0 + back.2) % 2 ^ 32)
            ∧ (o.mid = none → SameMemory s x)
          (∀ o i, l.nextFor 0 none = some (o, i) → l.mayLeave o = true → o.vc < 8 → Completes (.flitSlot k) s (moved (out o)))
          ∧ ((∀ o i, l.nextFor 0 none = some (o, i) → l.mayLeave o = false) →
            (∀ o i, s.slotPacket k q = some (o, i) → o.vc < 8 → Completes (.flitSlot k) s (moved (out o)))
            ∧ (s.slotPacket k q = none → Completes (.flitSlot k) s (moved (fun x => sent 0 0 0 [] back x
                ∧ (x.link k).unacked = l.unacked ∧ (x.link k).out = l.out ∧ SameMemory s x))))))
      ∧ (∀ i ∈ [Instr.nak k, .replayTimeout k],
        (l.unacked = [] → Completes i s (fun x => x = s))
        ∧ (l.unacked ≠ [] → l.replays + 1 < 8 → Completes i s (fun x => Counted (.fabLinkErr k) FabLinkErr.replays 1 s x
          ∧ x.link k = { l with resend := l.unacked.length, replays := l.replays + 1, replayNow := l.replayNow + 1 }
          ∧ (∀ j, j ≠ k → x.link j = s.link j) ∧ x.out = s.out))
        ∧ (l.unacked ≠ [] → 8 ≤ l.replays + 1 → Completes i s toSeek))
      ∧ (l.gap = true → Completes (.nakRepeat k) s (fun x => x.link k = { l with nakDue := true } ∧ x.out = s.out))
      ∧ (l.gap = false → Completes (.nakRepeat k) s (fun x => x = s))
      ∧ (l.sinceAck ≠ 0 → Completes (.ackTimer k) s (moved (fun x => sent 0 0 0 [] back x ∧ (x.link k).sinceAck = 0 ∧ x.regs = s.regs)))
      ∧ (l.sinceAck = 0 → Completes (.ackTimer k) s (fun x => x = s.takeMoves k)))
    ∧ (s.carrying k = false → ∀ i ∈ [Instr.nak k, .replayTimeout k, .nakRepeat k, .ackTimer k], Completes i s (fun x => x = s))
    ∧ (s.carrying k = false → s.portState k ≠ 2 → Completes (.flitSlot k) s (fun x => x = s))
    ∧ (s.carrying k = false → s.portState k = 2 →
      (l.ctrl = [] → Completes (.flitSlot k) s (fun x => x = s))
      ∧ ∀ c r, l.ctrl = c :: r → Completes (.flitSlot k) s (fun x => sent 6 0 0 c.bytes (0, 0) x ∧ (x.link k).ctrl = r))
    ∧ ((s.opt k).moves = [] → s.takeMoves k = s)
    ∧ ∀ n,
      (l.reqs[n]? = none → Completes (.ctrlResend k n) s (fun x => x = s))
      ∧ ∀ r, l.reqs[n]? = some r →
        (r.sends < 100 → Completes (.ctrlResend k n) s (fun x => x = { s with fab := { s.fab with links := x.fab.links } }
          ∧ (x.link k).ctrl = l.ctrl ++ [r.msg] ∧ (x.link k).reqs[n]? = some { r with sends := r.sends + 1 }
          ∧ ∀ j, j ≠ n → (x.link k).reqs[j]? = l.reqs[j]?))
        ∧ (100 ≤ r.sends → 0x20 ≤ r.msg.kind → r.msg.kind ≤ 0x23 → Completes (.ctrlResend k n) s toSeek)

/-- A flit is checked, acknowledged and taken into its packet; packets for other nodes go on; aborted ones are dropped (R322, R323, R324, R330, R331, R332, R335, R460, R462, R471). COMPLETES: FLIT_RECEIVE, PACKET_FORWARD, PKT_ABORT, PKT_ABORT_ACK. On a port that carries traffic a flit that fails its check is counted and awaited again; the nak becomes due with the first flit dropped. One that passes with type HEAD or SINGLE and the next sequence number is accepted: its sequence number is the last accepted, its packet waits at the X-die with one flit received, its acknowledgement frees the flits up to the one it names and its credits are held. With the thirty-second flit accepted since an acknowledgement left, an acknowledgement leaves at once. A BODY or TAIL flit adds its data to the packet that its VC is assembling, waiting or already in an output queue; of an aborted packet it is only counted. A sequenced flit out of order is awaited again and changes no packet; an IDLE, MARKER or CTRL flit changes none. After any flit the lane moves whose flit has come take effect (takeMoves). In Train a flit is only checked and counted, in any other state it has no effect. A packet for another node with fewer than 4 hops goes to the output queue of the port that its route finds, one hop more; with no such port, once it is whole, it is dropped and counted, as it is at 4 hops. PKT_ABORT discards the packet that its VC is assembling, here or in an output queue, and answers; the answer lets the VC send again. No memory changes. -/
def Obligations.FlitsArriveAndPacketsGoOn : Prop :=
  ∀ (s : State) (k : Nat), k < 64 →
    let l := s.link k
    let moved (P : State → Prop) (x : State) : Prop := ∃ y, P y ∧ x = y.takeMoves k
    let going (vc : Nat) (o : OutPkt) : Bool := o.src = some k && o.vc = vc && decide (o.got < o.total)
    let open_ (vc : Nat) (w : WaitPkt) : Bool := w.port = some k && w.vc = vc && decide (w.got < w.total)
    let onItsWay (vc : Nat) : Option (Nat × OutPkt) := (List.range 64).findSome? (fun m => ((s.link m).out.find? (going vc)).map (fun o => (m, o)))
    (∀ b : List Byte, b.length = 128 →
      let h := leNat (b.take 8)
      let ty := bitsOf h 0 3
      let vc := bitsOf h 3 3
      let seq := bitsOf h 6 12
      let payload := (b.drop 8).take 112
      let i : Instr := .flitReceive k b
      let awaited (x : State) : Prop := (x.link k).gap = true ∧ (x.link k).nakDue = (l.nakDue || !l.gap) ∧ (x.link k).lastAcc = l.lastAcc
        ∧ x.fab.waiting = s.fab.waiting ∧ SameMemory s x
      let fields (x : State) : Prop :=
        (bitsOf h 30 1 = 1 → ∀ n, l.unacked.findIdx? (fun f => f.seq = bitsOf h 18 12) = some n → (x.link k).unacked = l.unacked.drop (n + 1))
        ∧ (let j := pairOf (bitsOf h 32 3) (bitsOf h 35 5)
           bitsOf h 40 8 ≠ 0 → mget (x.link k).h j 0 = mget l.h j 0 + bitsOf h 40 8
             ∧ mget (x.link k).cr j 0 = (mget l.cr j 0 + bitsOf h 40 8) % 2 ^ 32)
      (s.carrying k = true →
        (flitOk b = false → Completes i s (moved (fun x => awaited x ∧ Counted (.fabLinkErr k) FabLinkErr.crcFail 1 s x)))
        ∧ (flitOk b = true →
          (ty = 0 ∨ ty = 5 ∨ ty = 6 → Completes i s (moved (fun x => fields x ∧ x.fab.waiting = s.fab.waiting
            ∧ (x.link k).lastAcc = l.lastAcc ∧ x.regs = s.regs ∧ SameMemory s x)))
          ∧ (1 ≤ ty → ty ≤ 4 → seq ≠ (l.lastAcc + 1) % 4096 → Completes i s (moved awaited))
          ∧ (1 ≤ ty → ty ≤ 4 → seq = (l.lastAcc + 1) % 4096 →
            Completes i s (moved (fun x => fields x ∧ (x.link k).lastAcc = seq ∧ (x.link k).gap = false ∧ (x.link k).nakDue = false
              ∧ (if 32 ≤ l.sinceAck + 1 then (x.link k).sinceAck = 0 ∧ x.out.length = s.out.length + 1
                 else (x.link k).sinceAck = l.sinceAck + 1 ∧ x.out = s.out) ∧ SameMemory s x))
            ∧ (ty = 1 ∨ ty = 4 →
              let p := Pkt.ofBytes payload
              Completes i s (moved (fun x => x.fab.waiting.getLast? = some ⟨some k, vc, 1, flitsOf p.length, p⟩
                ∧ mget (x.link k).fr (pairOf vc p.srcPart) 0 = (mget l.fr (pairOf vc p.srcPart) 0 + 1) % 2 ^ 32)))
            ∧ (ty = 2 ∨ ty = 3 →
              (∀ n w, s.fab.waiting[n]? = some w → s.fab.waiting.findIdx? (open_ vc) = some n →
                Completes i s (moved (fun x =>
                  x.fab.waiting[n]? = some { w with got := if w.got = 0 then 0 else w.got + 1, pkt := w.pkt.append payload }
                  ∧ mget (x.link k).fr (pairOf vc w.pkt.srcPart) 0 = (mget l.fr (pairOf vc w.pkt.srcPart) 0 + 1) % 2 ^ 32)))
              ∧ (s.fab.waiting.findIdx? (open_ vc) = none → ∀ m o, onItsWay vc = some (m, o) →
                Completes i s (moved (fun x => { o with got := o.got + 1, pkt := o.pkt.append payload } ∈ (x.link m).out
                  ∧ mget (x.link k).fr o.pair 0 = (mget l.fr o.pair 0 + 1) % 2 ^ 32 ∧ x.fab.waiting = s.fab.waiting)))))))
      ∧ (s.carrying k = false →
        (s.portState k ≠ 2 → Completes i s (fun x => x = s))
        ∧ (s.portState k = 2 → flitOk b = false → Completes i s (fun x => Counted (.fabLinkErr k) FabLinkErr.crcFail 1 s x ∧ x.fab = s.fab))
        ∧ (s.portState k = 2 → flitOk b = true → Completes i s (fun x => x = { s with live := x.live }
          ∧ (ty ≠ 6 → x = s)))))
    ∧ (s.carrying k = true →
    (∀ n w, s.fab.waiting[n]? = some w →
      let p := w.pkt
      let p1 := { (if p.route = 1 ∧ p.target = s.ownNode then { p with route := 2 } else p) with hops := p.hops + 1 }
      let port := s.choosePort (s.routeEntry p1.target) p1.offset p1.srcPart
      let i : Instr := .packetForward n
      (p.dstNode = s.ownNode ∨ w.got = 0 → Completes i s (fun x => x = s))
      ∧ (p.dstNode ≠ s.ownNode → w.got ≠ 0 →
        (4 ≤ p.hops →
          (w.got = w.total → Completes i s (fun x =>
            x.fab.waiting = s.fab.waiting.eraseIdx n ∧ Counted (.fabStat 0) FabStat.lo 1 s x ∧ x.Noted 0x1801 ∧ SameMemory s x
            ∧ (p.op = 0x30 ∨ p.op = 0x31 → x.Noted 0x1B02)))
          ∧ (w.got ≠ w.total → Completes i s (fun x => x = s)))
        ∧ (p.hops < 4 → 2 ≤ bitsOf (s.routeEntry p1.target) 0 2 →
          (∀ m, port = some m →
            Completes i s (fun x => x.fab.waiting = s.fab.waiting.eraseIdx n
              ∧ (x.link m).out = (s.link m).out ++ [⟨w.port, none, w.vc, 0, w.got, flitsOf p.length, 0, p1⟩]
              ∧ x = { s with fab := x.fab }))
          ∧ (port = none → w.got ≠ w.total → Completes i s (fun x => x = s))
          ∧ (port = none → w.got = w.total → p1.target ≠ s.ownNode → isRequest p.op = false → Completes i s (fun x =>
              x.fab.waiting = s.fab.waiting.eraseIdx n ∧ Counted (.fabStat 0) FabStat.hi 1 s x ∧ x.Noted 0x1802 ∧ SameMemory s x)))))
    ∧ ∀ v : BitVec 64,
      let j := wbits v 0 8
      let vc := pairVc j
      Completes (.pktAbort k v) s (fun x => SameMemory s x ∧ (∃ pre, (x.link k).ctrl = pre ++ [credMsg 0x26 j 0 (wbits v 16 12) 0])
        ∧ (s.fab.waiting.any (open_ vc) = true → ∀ w ∈ x.fab.waiting, open_ vc w = true → w.got = 0)
        ∧ (s.fab.waiting.any (open_ vc) = false → ∀ m o, onItsWay vc = some (m, o) →
          (x.link m).out = (s.link m).out.filter (fun y => !going vc y)
          ∧ x.fab.waiting = s.fab.waiting ++ [⟨some k, vc, 0, o.total, o.pkt⟩]
          ∧ (0 < o.sent → (o.vc, o.headSeq) ∈ (x.link m).aborts)))
      ∧ Completes (.pktAbortAck k v) s (fun x => x = { s with fab := { s.fab with links := x.fab.links } }
        ∧ (x.link k).aborts = l.aborts.filter (fun y => !(y.1 = pairVc j && y.2 = wbits v 16 12))
        ∧ (x.link k).out = l.out ∧ ∀ m, m ≠ k → x.link m = s.link m))

/-- The five messages of a credit resynchronisation take each end through its steps (R460, R465, R466, R467, R468). COMPLETES: CRED_REQ, CRED_HOLD, CRED_FENCE, CRED_SET, CRED_DONE, RESYNC_TIMEOUT. On a port that carries traffic CRED_REQ for a pair begins a resynchronisation at the receiving end at step 2 with the next epoch and sends CRED_HOLD, unless one of the pair runs or waits; with sixteen in its direction it waits. CRED_HOLD answers the sender's CRED_REQ and brings the sender to step 2, and to step 3 with CRED_FENCE sent when the flit it names has been accepted. CRED_FENCE of the epoch brings the receiver to step 3, and, the flit accepted, to step 4 with its issued count set from the buffers it holds and CRED_SET sent. CRED_SET of the epoch sets the sender's held credits and its count, logs CREDIT_FAULT, ends the resynchronisation there and sends CRED_DONE; the sixteenth in 1,024 stitches takes the port to Seek. A CRED_SET of the last finished epoch is answered again whatever runs. CRED_DONE of the epoch ends it at the receiver. When one ends, one that waits may begin. A message that fits no step changes nothing. A time-out of one that runs takes the port to Seek; of none it changes nothing. -/
def Obligations.CreditsResynchronise : Prop :=
  ∀ (s : State) (k : Nat) (v : BitVec 64), k < 64 →
    let l := s.link k
    let j := wbits v 0 8
    let e := wbits v 8 8
    let seq := wbits v 16 12
    let credits := wbits v 32 13
    let same (i : Instr) : Prop := Completes i s (fun x => x = s)
    let toSeek (x : State) : Prop := x.portState k = 1 ∧ x.carrying k = false
    let only (x : State) : Prop := x = { s with fab := { s.fab with links := x.fab.links } } ∧ ∀ m, m ≠ k → x.link m = s.link m
    (∀ m snd, m < 194 →
      (l.sync m snd = none → same (.resyncTimeout k m snd))
      ∧ ((l.sync m snd).isSome = true → s.carrying k = true → Completes (.resyncTimeout k m snd) s toSeek))
    ∧ (s.carrying k = false → ∀ i ∈ [Instr.credReq k v, .credHold k v, .credFence k v, .credSet k v, .credDone k v], same i)
    ∧ (s.carrying k = true → pairCount ≤ j → ∀ i ∈ [Instr.credReq k v, .credHold k v], same i)
    ∧ (s.carrying k = true → j < pairCount →
      ((l.sync j false).isSome = true ∨ l.waitSync.any (fun w => w.pair = j && !w.asSender) = true → same (.credReq k v))
      ∧ (l.sync j false = none → l.waitSync.any (fun w => w.pair = j && !w.asSender) = false →
        (16 ≤ l.resyncs.countP (fun r => r.asSender = false) → Completes (.credReq k v) s (fun x => only x
          ∧ x.link k = { l with waitSync := l.waitSync ++ [⟨j, false, 0, 1, 0, 0, 0⟩] }))
        ∧ (l.resyncs.countP (fun r => r.asSender = false) < 16 →
        let now := (mget l.epochs (epochKey j false) 0 + 1) % 256
        Completes (.credReq k v) s (fun x => only x ∧ (x.link k).sync j false = some ⟨j, false, now, 2, 0, 0, 0⟩
          ∧ (x.link k).ctrl = l.ctrl ++ [credMsg 0x21 j now l.lastSent 0])))
      ∧ (l.sync j true = none → Completes (.credHold k v) s (fun x => only x
          ∧ (l.accepted seq = true → (x.link k).sync j true = some ⟨j, true, e, 3, seq, 0, 0⟩
            ∧ (x.link k).ctrl = l.ctrl ++ [credMsg 0x22 j e l.lastSent 0])
          ∧ (l.accepted seq = false → (x.link k).sync j true = some ⟨j, true, e, 2, seq, 0, 0⟩ ∧ (x.link k).ctrl = l.ctrl)))
      ∧ (∀ r, l.sync j true = some r →
        (r.step = 1 → Completes (.credHold k v) s (fun x => only x
          ∧ (l.accepted seq = true → (x.link k).sync j true = some { r with step := 3, epoch := e, seq := seq }
            ∧ (x.link k).ctrl = l.ctrl ++ [credMsg 0x22 j e l.lastSent 0])
          ∧ (l.accepted seq = false → (x.link k).sync j true = some { r with step := 2, epoch := e, seq := seq })
          ∧ ∀ q ∈ (x.link k).reqs, ¬(q.msg.kind = 0x20 ∧ wbits q.msg.value 0 8 = j)))
        ∧ (r.step ≠ 1 → same (.credHold k v)))
      ∧ (∀ r, l.sync j false = some r →
        (r.step = 2 → r.epoch = e →
          let c := s.pairGrant j - mget l.o j 0
          Completes (.credFence k v) s (fun x => only x
            ∧ (l.accepted seq = true → (x.link k).sync j false = some { r with step := 4, seq := seq }
              ∧ mget (x.link k).ci j 0 = (mget l.fr j 0 + c) % 2 ^ 32 ∧ (x.link k).ctrl = l.ctrl ++ [credMsg 0x23 j e 0 c])
            ∧ (l.accepted seq = false → (x.link k).sync j false = some { r with step := 3, seq := seq } ∧ (x.link k).ci = l.ci)))
        ∧ (r.step ≠ 2 ∨ r.epoch ≠ e → same (.credFence k v))
        ∧ (r.step = 4 → r.epoch = e → (∀ w ∈ l.waitSync, w.asSender = false → w.pair ≠ j) →
          Completes (.credDone k v) s (fun x => only x ∧ (x.link k).sync j false = none
            ∧ ∃ rest, (x.link k).ctrl = l.ctrl ++ rest ∧ (l.waitSync = [] → rest = [])))
        ∧ (r.step ≠ 4 ∨ r.epoch ≠ e → same (.credDone k v)))
      ∧ (l.sync j false = none → same (.credFence k v) ∧ same (.credDone k v))
      ∧ (∀ r, l.sync j true = some r → r.step = 3 → r.epoch = e →
          let recent := s.count :: l.faultAt.filter (fun t => (s.count + 2 ^ 48 - t) % 2 ^ 48 < 1024)
          (recent.length < 16 → (∀ w ∈ l.waitSync, w.asSender = true → w.pair ≠ j) →
            Completes (.credSet k v) s (fun x => (x.link k).sync j true = none ∧ mget (x.link k).h j 0 = credits
            ∧ mget (x.link k).cr j 0 = (mget l.fs j 0 + credits) % 2 ^ 32
            ∧ (∃ rest, (x.link k).ctrl = l.ctrl ++ credMsg 0x24 j e 0 0 :: rest ∧ (l.waitSync = [] → rest = []))
            ∧ x.Noted 0x0B01 ∧ SameMemory s x))
          ∧ (16 ≤ recent.length → Completes (.credSet k v) s toSeek))
      ∧ ((∀ r, l.sync j true = some r → r.step ≠ 3 ∨ r.epoch ≠ e) →
          (mfind l.epochs (epochKey j true) = some e →
            Completes (.credSet k v) s (fun x => only x ∧ x.link k = { l with ctrl := l.ctrl ++ [credMsg 0x24 j e 0 0] }))
          ∧ (mfind l.epochs (epochKey j true) ≠ some e → same (.credSet k v))))

/-- A port trains from Seek step by step to Up; disable and loopback hold it back (R387, R389, R395, R397, R398, R399, R400, R406, R418, R422). COMPLETES: LANE_TAG, SEEK_WAIT_END, TRAIN_HELLO, TRAIN_DONE, TRAIN_TIMEOUT, TRAINING_STEP_END, ECHO_REQ, ECHO_RSP, PORT_DISABLE, OPTICAL_LOOPBACK. A port in Seek enters Train at the end of its wait or on a valid tag of its partner, unless a loopback holds it or its feed is low; in Train its usable transmit rings sweep. A valid tag on a port that carries traffic shows that its line delivers tags; during a recovery it shows which line the ring is locked to. Its steps go on one by one: T1 to T2 with the transmit rings locked; T2, with at least seven good receive lines, to T3 with those locked and TRAIN_HELLO sent; a hello of the right partner and role, with seven transmit lines left, to T4 with the partner's port noted and the first echo sent; the 64th echo to T5 with the delay half the mean round trip; T5, with seven lines, to T6 with TRAIN_DONE sent; and with TRAIN_DONE sent and received the port carries traffic, its failures are zero and each direction with nine lines has the spare of the image. A step that fails, too few lines, a wrong partner (logged) and the time-out take it to Seek with one failure more. Echoes are answered in Train and in traffic. Disable and loopback are register writes, which act on a device that has booted and is not Fenced. Disable is taken only in Framed and Armed: it makes the port Dark, and clearing it lets a port of the tree enter Seek. A loopback request that is not allowed only sets refused. In other states each command changes nothing or only answers. -/
def Obligations.TrainingTakesAPortUp : Prop :=
  ∀ (s : State) (k : Nat),
    (k < 64 →
    let o := s.opt k
    let onlyLink (x : State) : Prop := x = { s with fab := { s.fab with links := x.fab.links } } ∧ ∀ j, j ≠ k → x.link j = s.link j
    let onlyFab (x : State) : Prop := x = { s with fab := { s.fab with links := x.fab.links, opts := x.fab.opts } }
      ∧ ∀ j, j ≠ k → x.link j = s.link j ∧ x.opt j = s.opt j
    let sent (ms : List Ctrl) (x : State) : Prop := (x.link k).ctrl = (s.link k).ctrl ++ ms
    let ring (x : State) (rx : Bool) (l : Nat) : Nat := x.fld (lineReg k rx l) OptTxLine.state
    let rings (rx : Bool) (y x : State) : Prop := (∀ l, l < 9 → ring x rx l = (if bitAt (s.retiredLines k rx) l then 4 else if (y.usable k rx).contains l then 2 else 0))
      ∧ x = { s with regs := x.regs, fab := { s.fab with links := x.fab.links, opts := x.fab.opts } }
      ∧ (∀ j, j ≠ k → x.link j = s.link j ∧ x.opt j = s.opt j) ∧ ∀ r, (∀ l, l < 9 → r ≠ lineReg k rx l) → x.reg r = s.reg r
    let train (x : State) : Prop := x.portState k = 2 ∧ x.carrying k = false ∧ (x.opt k).trainStep = 1 ∧ x.link k = (s.link k).stopped
      ∧ SameMemory s x ∧ ∀ l, l < 9 → x.laneOf k false l = 15
        ∧ ring x false l = (if bitAt (s.retiredLines k false) l then 4 else if bitAt (s.excluded k) l then 0 else 1)
    let failed (x : State) : Prop := x.portState k = 1 ∧ x.carrying k = false ∧ (x.opt k).seekWait = true
      ∧ Counted (.optPortState k) OptPortState.failures 1 s x ∧ Counted (.optPortStat k) OptPortStat.trainFail 1 s x
    let up (x : State) : Prop := x.carrying k = true ∧ x.fld (.optPortState k) OptPortState.failures = 0 ∧ (x.opt k).peerPort = o.peerPort
      ∧ ∀ rx, x.spareNow k rx = (if (x.usable k rx).length = 9 then s.portSpare k else 15)
    let able : Prop := s.loopHolds k = false ∧ s.feedLow k = false
    (∀ line tag, line < 9 → tag.length = 8 →
      let i : Instr := .laneTag k line tag
      let named := (tag.getD 2 0).toNat / 16
      let mine : Prop := tagValid tag = true ∧ s.tagMine k tag = true
      let isRecovering : Bool := o.recovers.any (fun r => decide (r.line = line))
      (s.portState k = 1 → mine → able → Completes i s train)
      ∧ (s.portState k = 1 → ¬ (mine ∧ able) → Completes i s (fun x => x = s))
      ∧ (s.portState k ≠ 1 → s.carrying k = false ∨ tagValid tag = false → Completes i s (fun x => x = s))
      ∧ (s.portState k ≠ 1 → s.carrying k = true → tagValid tag = true → isRecovering = true ∨ (named = line ∧ s.tagMine k tag = true) →
        Completes i s (fun x => onlyFab x ∧ x.link k = s.link k
        ∧ (x.opt k).recovers = o.recovers.map (fun r => if r.line = line then { r with wrong := decide (named ≠ line) } else r)
        ∧ ∀ l, l < 9 → hasLine (x.opt k).noTag l = (hasLine o.noTag l && decide (l ≠ line)))))
    ∧ (s.portState k = 1 → o.seekWait = true → able → Completes (.seekWaitEnd k) s train)
    ∧ (s.portState k = 1 → o.seekWait = true → s.loopHolds k = false → s.feedLow k = true →
        Completes (.seekWaitEnd k) s (fun x => onlyFab x ∧ x.link k = s.link k ∧ x.opt k = { o with seekWait := false }))
    ∧ (s.portState k ≠ 1 ∨ o.seekWait = false ∨ s.loopHolds k = true → Completes (.seekWaitEnd k) s (fun x => x = s))
    ∧ (s.portState k = 2 → Completes (.trainTimeout k) s failed) ∧ (s.portState k ≠ 2 → Completes (.trainTimeout k) s (fun x => x = s))
    ∧ (∀ ok lines,
      let i : Instr := .trainingStepEnd k ok lines
      let s1 := s.modOpt k (fun o => { o with lines := lines })
      (s.portState k ≠ 2 → Completes i s (fun x => x = s))
      ∧ (s.portState k = 2 → ok = false → Completes i s failed)
      ∧ (s.portState k = 2 → ok = true →
        (o.trainStep = 1 → Completes i s (fun x => rings false s x ∧ x.link k = s.link k ∧ x.opt k = { o with trainStep := 2 }))
        ∧ (o.trainStep ≠ 1 → o.trainStep ≠ 2 → o.trainStep ≠ 5 → Completes i s (fun x => x = s))
        ∧ (o.trainStep = 2 ∨ o.trainStep = 5 → (s1.usable k true).length < 7 → Completes i s failed)
        ∧ (o.trainStep = 2 → 7 ≤ (s1.usable k true).length → Completes i s (fun x => rings true s1 x ∧ sent [s.helloMsg k] x
            ∧ x.opt k = { o with lines := lines, trainStep := 3 }))
        ∧ (o.trainStep = 5 → 7 ≤ (s1.usable k true).length →
          (o.doneGot = false → Completes i s (fun x => onlyFab x ∧ sent [doneMsg] x
            ∧ x.opt k = { o with lines := lines, trainStep := 6, doneSent := true }))
          ∧ (o.doneGot = true → 7 ≤ (s1.usable k false).length → Completes i s up))))
    ∧ (∀ v : BitVec 64,
      let i : Instr := .trainHello k v
      let s1 := s.modOpt k (fun o => { o with peerRetired := BitVec.ofNat 9 (wbits v 18 9) })
      let right : Prop := wbits v 0 10 = s.fld (.fabPortState k) FabPortState.partner
        ∧ wbits v 16 2 = s.fld (.fabPortState k) FabPortState.role
      (s.portState k ≠ 2 ∨ o.trainStep < 3 → Completes i s (fun x => x = s))
      ∧ (s.portState k = 2 → 3 < o.trainStep → Completes i s (fun x => onlyLink x ∧ sent [s.helloMsg k] x))
      ∧ (s.portState k = 2 → o.trainStep = 3 →
        (¬ right → Completes i s (fun x => failed x ∧ x.Noted 0x4904))
        ∧ (right → (s1.usable k false).length < 7 → Completes i s failed)
        ∧ (right → 7 ≤ (s1.usable k false).length → Completes i s (fun x => onlyFab x ∧ sent [s.helloMsg k, echoMsg 0] x
            ∧ x.opt k = { o with trainStep := 4, peerRetired := BitVec.ofNat 9 (wbits v 18 9), peerPort := some (wbits v 10 6), echoes := 0, echoSum := 0 }))))
    ∧ (s.carrying k = true → Completes (.trainDone k) s (fun x => onlyLink x ∧ sent [doneMsg] x))
    ∧ (s.carrying k = false → s.portState k ≠ 2 → Completes (.trainDone k) s (fun x => x = s))
    ∧ (s.portState k = 2 → o.doneSent = false →
        Completes (.trainDone k) s (fun x => onlyFab x ∧ x.link k = s.link k ∧ x.opt k = { o with doneGot := true }))
    ∧ (s.portState k = 2 → o.doneSent = true → 7 ≤ (s.usable k true).length → 7 ≤ (s.usable k false).length →
        Completes (.trainDone k) s up)
    ∧ (∀ token, (s.carrying k = true ∨ s.portState k = 2 →
          Completes (.echoReq k token) s (fun x => onlyLink x ∧ sent [⟨4, 0, 0, 0, token⟩] x))
      ∧ (s.carrying k = false → s.portState k ≠ 2 → Completes (.echoReq k token) s (fun x => x = s)))
    ∧ (∀ token rtt,
      let i : Instr := .echoRsp k token rtt
      let t4 : Prop := s.portState k = 2 ∧ o.trainStep = 4 ∧ token.toNat = o.echoes
      (t4 → o.echoes < 63 → Completes i s (fun x => onlyFab x ∧ sent [echoMsg (o.echoes + 1)] x
          ∧ x.opt k = { o with echoes := o.echoes + 1, echoSum := o.echoSum + rtt }))
      ∧ (t4 → o.echoes = 63 → Completes i s (fun x => x.fld (.optPortState k) OptPortState.delayNs = (o.echoSum + rtt) / 128 % 2 ^ 16
          ∧ x.opt k = { o with trainStep := 5, echoes := 64, echoSum := o.echoSum + rtt } ∧ SameMemory s x
          ∧ ∀ r, r ≠ .optPortState k → x.reg r = s.reg r))
      ∧ (¬ t4 → s.carrying k = true → s.loopMode k = 5 → Completes i s (fun x => x.fld (.optLbRes k) OptLbRes.rttNs = rtt % 2 ^ 16
          ∧ x.opt k = o ∧ ∀ r, r ≠ .optLbRes k → x.reg r = s.reg r))
      ∧ (¬ t4 → s.carrying k = false ∨ s.loopMode k ≠ 5 → Completes i s (fun x => x = s))))
    ∧ (k < 68 → (s.pkg.booted = false ∨ s.devState = 3 → (∀ off, Completes (.portDisable k off) s (fun x => x = s))
        ∧ ∀ mode, Completes (.opticalLoopback k mode) s (fun x => x = s))
      ∧ (s.pkg.booted = true → s.devState ≠ 3 →
      (∀ off,
        let s1 := s.setFld (.optPortCtl k) OptPortCtl.disable 0
        let wanted : Prop := if k < 64 then bitsOf (s.staged 7 k) 0 2 ≠ 0 else s.staged 7 k = 1
        (s.devState ≠ 1 → s.devState ≠ 2 → Completes (.portDisable k off) s (fun x => x = s))
        ∧ (s.devState = 1 ∨ s.devState = 2 →
          Completes (.portDisable k true) s (fun x => x.fld (.optPortCtl k) OptPortCtl.disable = 1 ∧ x.portState k = 0)
          ∧ (wanted → s.portState k = 0 → Completes (.portDisable k false) s (fun x => x.portState k = 1 ∧ (x.opt k).seekWait = true
              ∧ x.fld (.optPortCtl k) OptPortCtl.disable = 0))
          ∧ (¬ (wanted ∧ s.portState k = 0) → Completes (.portDisable k false) s (fun x => x = s1))))
      ∧ ∀ mode : Fin 8,
        let m := mode.val
        let i : Instr := .opticalLoopback k mode
        let ok : Prop := m = 0 ∨ (m = 5 ∧ s.carrying k = true)
          ∨ (m ≠ 0 ∧ m ≠ 5 ∧ m ≠ 7 ∧ (s.devState = 1 ∨ s.devState = 2) ∧ s.lit k = false)
        (¬ ok → Completes i s (fun x => x = { s with regs := x.regs } ∧ (∀ r, r ≠ .optLbRes k → x.reg r = s.reg r)
          ∧ x.fld (.optLbRes k) OptLbRes.refused = 1))
        ∧ (ok → Completes i s (fun x => x.fld (.optPortCtl k) OptPortCtl.loop = m ∧ x.reg (.optLbRes k) = 0
          ∧ (m = 5 → (x.link k).ctrl = (s.link k).ctrl ++ [echoMsg 0] ∧ x.portState k = s.portState k)
          ∧ (m = 0 → ∀ r, r ≠ .optPortCtl k → r ≠ .optLbRes k → x.reg r = s.reg r)
          ∧ (m ≠ 0 → m ≠ 5 → s.portState k = 2 → x.portState k = 1)
          ∧ (m ≠ 0 → m ≠ 5 → s.portState k ≠ 2 → x.portState k = s.portState k)))))

/-- A line is burnished on the spare, recovered from a wrong wavelength, or retired (R387, R392, R396, R401, R402, R403, R404, R405, R406, R407). COMPLETES: BURNISH_DUE, BURNISH_REQ, BURNISH_READY, BURNISH_DONE, BURNISH_STEP_END, OPT_RING_ALARM, MISLOCK, MISLOCK_REPORT, MISLOCK_DONE, MISLOCK_SWEEP_DONE, MISLOCK_CHECK_END, SWAP, LANE_MOVE, RETIRE, LANE_TAG. On a port that carries no traffic the messages and ends of a burnish or recovery change nothing. With eight working lines in the direction that loses one and seven in the other: a due burnish waits for a tick behind the urgent ones, which a transmit alarm makes; at a tick the first starts when a spare is there and nothing is out. The receiver aligns the spare or sweeps it; READY announces by SWAP that the lane moves to the spare; a move takes effect at its flit: a lane that goes to the spare has its line swept, one that goes back ends the burnish, counted, and without its own lane leaves no spare. The receiver's steps follow with READY, DONE, or RETIRE after the third failed sweep; DONE ends a burnish of the spare and leaves any other for the next tick, which announces the move back. A receive alarm asks for a burnish, and the third bad window after that burnish retires the line. A wrong-wavelength line, reported or shown by its tag, is counted and logged, its lane moved to a free spare, its own ring swept or the partner told; a report sweeps the modulator ring; a sweep's end, MISLOCK_DONE and the tags lead to the next phase, to the next of three attempts, or to the line being retired; after good tags the lane goes back at a tick. A retired line is marked, dark, has no lane, is logged, and the direction has no spare; below seven lines the port goes to Seek. -/
def Obligations.RingsAreBurnishedRecoveredAndRetired : Prop :=
  ∀ (s : State) (k line : Nat), k < 64 → line < 9 →
    let o := s.opt k
    let wk (x : State) (rx : Bool) : Nat := x.working k rx
    let ring (x : State) (rx : Bool) (l : Nat) : Nat := x.fld (lineReg k rx l) OptTxLine.state
    let ctrl (ms : List Ctrl) (x : State) : Prop := (x.link k).ctrl = (s.link k).ctrl ++ ms
    let onlyFab (x : State) : Prop := x = { s with fab := { s.fab with links := x.fab.links, opts := x.fab.opts } }
      ∧ ∀ j, j ≠ k → x.link j = s.link j ∧ x.opt j = s.opt j
    let opt (n : Opt) (x : State) : Prop := x.opt k = { n with rxSeven := (x.opt k).rxSeven, txSeven := (x.opt k).txSeven } ∧ SameMemory s x
    let same (i : Instr) : Prop := Completes i s (fun x => x = s)
    let isOut (rx : Bool) (l : Nat) : Bool := (s.outLines k rx).contains l
    let usable (rx : Bool) : Bool := (s.usable k rx).contains line
    let others (ls : List Nat) : List Nat := ls.filter (fun a => decide (a ≠ line))
    let sp := s.spareNow k false
    let spR := s.spareNow k true
    let moved (rx : Bool) (lane dest : Nat) (x : State) : Prop := ∀ l, l < 9 →
      x.laneOf k rx l = if l = dest then lane else if s.laneOf k rx l = lane then 15 else s.laneOf k rx l
    let retired (rx : Bool) (x : State) : Prop := bitAt (x.retiredLines k rx) line = true ∧ x.laneOf k rx line = 15 ∧ ring x rx line = 4
      ∧ x.spareNow k rx = 15 ∧ x.Noted 0x4901
    let read : List Recover := o.recovers.map (fun x => if x.line = line then { x with phase := 2, wrong := false } else x)
    let others' : List Recover := o.recovers.filter (fun y => decide (y.line ≠ line))
    let mislocked (x : State) : Prop := x.Noted 0x0901 ∧ Counted (.optPortStat k) OptPortStat.mislocks 1 s x
    let again (r : Recover) (x : State) : Prop := mislocked x
      ∧ (x.opt k).recovers = { r with attempt := r.attempt + 1, phase := if r.wrong then 0 else 1 } :: others'
    let next (i : Instr) (r : Recover) : Prop := (r.attempt < 3 → Completes i s (again r))
      ∧ (3 ≤ r.attempt → bitAt (s.retiredLines k true) line = false → Completes i s (retired true))
    let lane0 := s.laneOf k true line
    let recovering (wrong : Bool) (x : State) : Prop :=
      let free : Prop := spR ≠ 15 ∧ spR ≠ line ∧ s.laneOf k true spR = 15 ∧ isOut true spR = false ∧ o.rxBurn = none ∧ lane0 ≠ 15
      mislocked x ∧ (x.opt k).recovers = ⟨line, lane0, 1, if wrong then 0 else 1, wrong⟩ :: others'
        ∧ (wrong = true → ring x true line = 1)
        ∧ (free → spR < 9 → moved true lane0 spR x ∧ ctrl (⟨11, line, lane0, spR, BitVec.ofNat 64 ((s.link k).rxSince + (s.link k).ctrl.length + 1)⟩
            :: if wrong then [] else [⟨9, line, 0, 0, 0⟩]) x)
        ∧ (¬ free → x.laneOf k true line = 15 ∧ ctrl (if wrong then [] else [⟨9, line, 0, 0, 0⟩]) x) ∧ SameMemory s x
    (s.carrying k = false → ∀ i, (i ∈ [Instr.burnishDue k line, .burnishReq k line, .burnishReady k line, .burnishDone k line,
        .mislockReport k line, .retire k line] ∨ (∃ b side, i ∈ [Instr.optRingAlarm k line side, .burnishStepEnd k line b])
        ∨ (∃ w, i = .mislock k line w) ∨ (∃ lane f, lane < 8 ∧ i ∈ [Instr.swap k lane line f, .laneMove k lane line f])) → same i)
    ∧ (∀ r, o.recovers.find? (fun y => decide (y.line = line)) = some r →
        (r.phase = 1 → ∀ b, Completes (.mislockDone k line b) s (fun x => onlyFab x ∧ x.opt k = { o with recovers := read })
          ∧ Completes (.mislockCheckEnd k line b) s (fun x => onlyFab x ∧ x.opt k = { o with recovers := read }))
        ∧ (r.phase ≠ 1 → ∀ b, same (.mislockDone k line b))
        ∧ (r.phase = 0 → Completes (.mislockSweepDone k line true true) s (fun x => ring x true line = 2 ∧ x.opt k = { o with recovers := read }
          ∧ SameMemory s x))
        ∧ (r.phase ≠ 0 → ∀ b, same (.mislockSweepDone k line true b))
        ∧ (r.phase = 2 → Completes (.mislockCheckEnd k line true) s (fun x => onlyFab x ∧ x.link k = s.link k
          ∧ (x.opt k).recovers = o.recovers.map (fun y => if y.line = line then { y with phase := 3 } else y)
          ∧ ∀ l, l < 9 → hasLine (x.opt k).noTag l = (hasLine o.noTag l && decide (l ≠ line))))
        ∧ (r.phase ≠ 1 → r.phase ≠ 2 → ∀ b, same (.mislockCheckEnd k line b)))
    ∧ (o.recovers.find? (fun y => decide (y.line = line)) = none → ∀ b,
        ∀ i ∈ [Instr.mislockDone k line b, .mislockCheckEnd k line b, .mislockSweepDone k line true b], same i)
    ∧ (o.sweeps.contains line = false → ∀ b, same (.mislockSweepDone k line false b))
    ∧ (s.carrying k = true → 7 ≤ wk s true → 7 ≤ wk s false →
      (∀ r, o.recovers.find? (fun y => decide (y.line = line)) = some r →
        (r.phase = 0 → next (.mislockSweepDone k line true false) { r with wrong := false })
        ∧ (r.phase = 2 → next (.mislockCheckEnd k line false) r))
      ∧ (o.sweeps.contains line = true → ∀ b, Completes (.mislockSweepDone k line false b) s (fun x => ring x false line = (if b then 2 else 3)
          ∧ opt { o with sweeps := others o.sweeps } x ∧ ctrl [⟨10, line, 0, 0, if b then 0 else 1⟩] x))
      ∧ (o.sweeps.contains line = true ∨ usable false = false → same (.mislockReport k line))
      ∧ (o.sweeps.contains line = false → usable false = true → 8 ≤ wk s false → Completes (.mislockReport k line) s (fun x =>
          ring x false line = 1 ∧ opt { o with sweeps := o.sweeps ++ [line] } x
          ∧ x.laneOf k false line = if sp = 15 ∨ o.txBurn ≠ none then 15 else s.laneOf k false line))
      ∧ (∀ w, (isOut true line = true ∨ usable true = false → same (.mislock k line w))
        ∧ (isOut true line = false → usable true = true → 8 ≤ wk s true →
          Completes (.mislock k line w) s (fun x => recovering w.isSome x ∧ (w = none → hasLine (x.opt k).noTag line = true))))
      ∧ (∀ tag : List Byte, tag.length = 8 → tagValid tag = true → s.portState k ≠ 1 → o.recovers.any (fun r => decide (r.line = line)) = false →
        let named := (tag.getD 2 0).toNat / 16
        (named ≠ line ∨ s.tagMine k tag = false →
          (isOut true line = false → usable true = true → 8 ≤ wk s true → Completes (.laneTag k line tag) s (recovering (decide (named ≠ line))))
          ∧ (isOut true line = true ∨ usable true = false → Completes (.laneTag k line tag) s (fun x => onlyFab x ∧ x.link k = s.link k
            ∧ x.opt k = { o with noTag := (x.opt k).noTag }))))
      ∧ (sp = 15 ∨ usable false = false → same (.burnishDue k line))
      ∧ (sp ≠ 15 → usable false = true → Completes (.burnishDue k line) s (fun x => onlyFab x ∧ x.link k = s.link k
          ∧ x.opt k = { o with due := others o.due ++ [line] }))
      ∧ (∀ rx n, let i : Instr := .optRingAlarm k line (if rx then .rx n else .tx)
        let alarm (n : Opt) (x : State) : Prop := x.Noted 0x0902 ∧ ring x rx line = 3 ∧ opt n x
        let third : Prop := 3 ≤ n ∧ o.burnt.contains line = true
        (rx = true → ¬ third → Completes i s (alarm { o with asked := others o.asked ++ [line] }))
        ∧ (rx = true → third → bitAt (s.retiredLines k true) line = false → Completes i s (fun x => x.Noted 0x0902 ∧ retired true x))
        ∧ (rx = false → sp = 15 → Completes i s (alarm o))
        ∧ (rx = false → sp ≠ 15 → Completes i s (alarm { o with urgent := others o.urgent ++ [line], due := others o.due })))
      ∧ ((∀ b, o.rxBurn = some b →
          (b.line = line → 3 ≤ b.step → Completes (.burnishReq k line) s (fun x => onlyFab x ∧ ctrl [⟨6, line, 0, 0, 0⟩] x ∧ x.opt k = o))
          ∧ (b.line ≠ line ∨ b.step < 3 → same (.burnishReq k line)))
        ∧ (o.rxBurn = none → spR = line → 8 ≤ wk s true → Completes (.burnishReq k line) s (fun x => ring x true line = 1
            ∧ opt { o with rxBurn := some ⟨line, 15, spR, 4, 0⟩ } x ∧ ctrl [⟨6, line, 0, 0, 0⟩] x))
        ∧ (o.rxBurn = none → spR ≠ line → 8 ≤ wk s true ∨ spR = 15 → Completes (.burnishReq k line) s
            (opt { o with rxBurn := some ⟨line, lane0, spR, 2, 0⟩ })))
      ∧ ((o.txBurn = none → same (.burnishReady k line) ∧ same (.burnishDone k line))
        ∧ ∀ b, o.txBurn = some b →
          let announced : Bool := o.moves.any (fun m => !m.rx && decide (m.line = b.spare))
          (b.line = line → b.step = 1 → announced = false → Completes (.burnishReady k line) s (fun x => onlyFab x
            ∧ x.opt k = { o with moves := o.moves ++ [⟨false, false, b.lane, b.spare, s.swapIndex k⟩] }
            ∧ ctrl [⟨7, line, b.lane, b.spare, BitVec.ofNat 64 (s.swapIndex k)⟩] x))
          ∧ (b.line ≠ line ∨ b.step ≠ 1 ∨ announced = true → Completes (.burnishReady k line) s (fun x => onlyFab x ∧ ctrl [] x ∧ x.opt k = o))
          ∧ (b.line = line → b.step = 4 → line ≠ b.spare → Completes (.burnishDone k line) s (fun x => ring x false line = 2
            ∧ x.opt k = { o with txBurn := some { b with step := 5 } } ∧ ctrl [] x ∧ SameMemory s x))
          ∧ (b.line = line → b.step = 4 → line = b.spare → Completes (.burnishDone k line) s (fun x =>
            ring x false line = 2 ∧ opt { o with txBurn := none } x ∧ Counted (.optPortStat k) OptPortStat.burnishes 1 s x))
          ∧ (b.line ≠ line ∨ b.step ≠ 4 → same (.burnishDone k line)))
      ∧ (∀ ok, let i : Instr := .burnishStepEnd k line ok
        (∀ b, o.rxBurn = some b → b.line = line →
          (b.step = 2 → ok = true → Completes i s (fun x => onlyFab x ∧ x.opt k = { o with rxBurn := some { b with step := 3 } } ∧ ctrl [⟨6, line, 0, 0, 0⟩] x))
          ∧ (b.step = 2 → ok = false → Completes i s (opt { o with rxBurn := none }))
          ∧ (b.step = 4 → ok = true → Completes i s (fun x => ring x true line = 2 ∧ ctrl [⟨8, line, 0, 0, 0⟩] x
              ∧ opt (if line = b.spare then
                  { o with rxBurn := none, asked := others o.asked, burnt := if o.asked.contains line then o.burnt ++ [line] else o.burnt }
                else { o with rxBurn := some { b with step := 5 } }) x))
          ∧ (b.step = 4 → ok = false → b.fails < 2 → Completes i s (fun x => onlyFab x ∧ x.opt k = { o with rxBurn := some { b with fails := b.fails + 1 } }))
          ∧ (b.step = 4 → ok = false → 2 ≤ b.fails → bitAt (s.retiredLines k true) line = false → Completes i s (retired true))
          ∧ (b.step ≠ 2 → b.step ≠ 4 → same i))
        ∧ ((∀ b, o.rxBurn = some b → b.line ≠ line) →
          ((∀ b, o.txBurn = some b → b.line ≠ line ∨ b.step ≠ 4 ∨ ok = true) → same i)
          ∧ ∀ b, o.txBurn = some b → b.line = line → b.step = 4 → ok = false →
            (b.fails < 2 → Completes i s (fun x => onlyFab x ∧ x.opt k = { o with txBurn := some { b with fails := b.fails + 1 } }))
            ∧ (2 ≤ b.fails → bitAt (s.retiredLines k false) line = false → Completes i s (retired false))))
      ∧ (∀ lane (f : BitVec 64), lane < 8 →
        let rx : Bool := o.rxBurn.any (fun b => (decide (b.lane = lane) && decide (line = b.spare) && decide (b.step = 3))
          || (decide (b.line = line) && decide (b.step = 5)))
        let withMove (m : LaneMove) : State := s.modOpt k (fun o => { o with moves := o.moves ++ [m] })
        Completes (.swap k lane line f) s (fun x => x = (withMove ⟨rx, false, lane, line, f.toNat⟩).takeMoves k)
        ∧ Completes (.laneMove k lane line f) s (fun x => x = (withMove ⟨false, true, lane, line, f.toNat⟩).takeMoves k))
      ∧ (∀ m, o.moves = [m] → m.lane < 8 → m.line < 9 →
        let from_ := (List.range 9).filter (fun l => decide (s.laneOf k m.rx l = m.lane))
        let burn := if m.rx then o.rxBurn else o.txBurn
        let toSpare (b : Burn) : Prop := m.off = false ∧ m.line = b.spare ∧ m.lane = b.lane ∧ b.step ≤ 3
        let home (b : Burn) : Prop := m.off = false ∧ m.line = b.line ∧ b.step = 5
        let x := s.takeMoves k
        (s.moveDue k m = false → x = s)
        ∧ (s.moveDue k m = true →
          (∀ b, burn = some b → toSpare b → 8 ≤ wk s m.rx → b.line < 9 → moved m.rx m.lane m.line x ∧ ring x m.rx b.line = 1
            ∧ opt (if m.rx then { o with moves := [], rxBurn := some { b with step := 4 } }
                   else { o with moves := [], txBurn := some { b with step := 4 } }) x)
          ∧ (∀ b, burn = some b → home b → moved m.rx m.lane m.line x ∧ (m.lane ≠ b.lane → x.spareNow k m.rx = 15)
            ∧ (m.rx = true → (x.opt k).rxBurn = none ∧ (x.opt k).burnt = if o.asked.contains b.line then o.burnt ++ [b.line] else o.burnt)
            ∧ (m.rx = false → (x.opt k).txBurn = none ∧ Counted (.optPortStat k) OptPortStat.burnishes 1 s x) ∧ SameMemory s x)
          ∧ ((∀ b, burn = some b → ¬ toSpare b ∧ ¬ home b) → m.off = false ∨ (m.rx = false ∧ 7 + from_.length ≤ wk s false) → moved m.rx m.lane m.line x
            ∧ opt { o with moves := [], txOut := if m.rx then o.txOut
                else o.txOut.filter (fun l => decide (l ≠ m.line) && !from_.contains l) ++ (if m.off then from_ else []) } x)))
      ∧ (let x := (((s.tickMoves k).burnBack k).recoverBack k).startBurn k
        let idle : Prop := onlyFab x ∧ x.link k = s.link k ∧ x.opt k = o
        (o.moves = [] → o.recovers.all (fun r => decide (r.phase ≠ 3)) = true →
          (∀ b, o.txBurn = some b →
            (b.step ≠ 5 → idle)
            ∧ (b.step = 5 →
              let lane := ((List.range 8).find? (fun i => (List.range 9).all (fun l => decide (s.laneOf k false l ≠ i)))).getD b.lane
              onlyFab x ∧ x.opt k = { o with moves := [⟨false, false, lane, b.line, s.swapIndex k⟩] }
              ∧ ctrl [⟨7, b.line, lane, b.line, BitVec.ofNat 64 (s.swapIndex k)⟩] x))
          ∧ (o.txBurn = none →
            let startable : Prop := sp ≠ 15 ∧ o.txOut = [] ∧ o.sweeps = [] ∧ s.engineBurns k < 4
            (o.urgent ++ o.due = [] ∨ ¬ startable → idle)
            ∧ (startable → 8 ≤ wk s false → ∀ l rest, o.urgent ++ o.due = l :: rest →
              (x.opt k).txBurn = some ⟨l, s.laneOf k false l, sp, if l = sp then 4 else 1, 0⟩
              ∧ ctrl [⟨5, l, if l = sp then 15 else s.laneOf k false l, 0, 0⟩] x
              ∧ (x.opt k).urgent ++ (x.opt k).due = rest.filter (fun a => decide (a ≠ l)) ∧ SameMemory s x)))
        ∧ (o.moves = [] → o.txBurn = none → o.urgent ++ o.due = [] → ∀ r, o.recovers = [r] → r.phase = 3 → r.lane < 8 → r.line < 9 →
          moved true r.lane r.line x ∧ opt { o with recovers := [] } x
          ∧ ctrl [⟨7, r.line, r.lane, r.line, BitVec.ofNat 64 ((s.link k).ctrl.length + 1)⟩] x)
        ∧ (∀ b m, o.txBurn = some b → b.step = 1 → o.moves = [m] → m.rx = false → m.off = false → m.line = b.spare →
          o.recovers.all (fun r => decide (r.phase ≠ 3)) = true →
          onlyFab x ∧ x.opt k = { o with moves := [] } ∧ ctrl [⟨5, b.line, b.lane, 0, 0⟩] x))
      ∧ (bitAt (s.retiredLines k false) line = false →
        let s1 := s.modOpt k (fun o => { o with txBurn := o.txBurn.filter (fun b => decide (b.line ≠ line)) })
        let left := (s.usable k false).filter (fun l => decide (l ≠ line) && !(s1.outLines k false).contains l)
        Completes (.retire k line) s (fun x => retired false x ∧ (7 ≤ left.length → x.carrying k = true) ∧ (left.length < 7 → x.portState k = 1)))
      ∧ (bitAt (s.retiredLines k false) line = true → Completes (.retire k line) s (fun x => onlyFab x ∧ x.link k = s.link k
          ∧ x.opt k = { o with txBurn := o.txBurn.filter (fun b => decide (b.line ≠ line)) })))

/-- Ethernet ports go up and down; frames go to queues, peers or nowhere, in turn; queues send, receive, stop and count (R412, R413, R414, R415, R416, R417, R438, R439, R440, R441, R442, R443). COMPLETES: ETH_LINK_UP, ETH_LINK_FAIL, ETH_FRAME_RECEIVE, ETH_PEER_REPLAY_TIMEOUT, ETH_TX_COMPLETE, PART_ETHQ_CTL_WRITE, ETHQ_TX_TAIL_WRITE, ETHQ_RX_TAIL_WRITE, ETHQ_IRQ_GAP, HOST_COMPLETION, NAK_REPEAT. A port in Seek whose feed is not low and that no loopback holds goes Up with its eight lanes locked; a link failure takes an Up port to Seek, logged, its rings sweeping. A port that is not Up receives nothing. A frame with a bad length or FCS, a control frame and a device frame that is no encapsulation of a peer is dropped and counted. A peer's frame frees the packets that it acknowledges; a nak has those left sent again; in order, its packet arrives; out of order it is awaited; and an acknowledgement is due. A port that is Up and sends no queue's frame sends every packet that the window of 2,047 admits and the acknowledgements that are due (that an acknowledgement leaves at once is the model's choice, assumption 74). A frame to a partition is dropped and counted when the partition has no queue ready, or the queue has no entry or has stopped; otherwise its entry is read, and when it has come the frame is written to the buffer with its entry and head advances, or is counted as oversize. A tail write of a queue that has nothing under way has its next entry read; a bad one is written back and counted, of a good one the frame is read in pieces of 512 bytes and sent in its turn; at the end of the frame on the line the entry is written back and head advances, except for a queue enabled anew meanwhile. Without bus mastering a queue stops. A tail beyond the ring stops the queue. A control write stores its fields, the ring sizes only while disabled, and enabling clears the heads. A replay time-out has every unacknowledged packet sent again; the eighth takes the peer down. -/
def Obligations.EthernetQueuesAndPeers : Prop :=
  ∀ (s : State),
    let same (i : Instr) : Prop := Completes i s (fun x => x = s)
    let able (e : Nat) : Prop := s.portState (64 + e) = 3 ∧ mfind s.eth.sending e = none ∧ s.eth.tx = []
    let sound (r : Peer) : Prop := r.resend ≤ r.unacked.length ∧ ∀ k ∈ r.unacked ++ r.wait, k.src ≤ 32
    let served (r : Peer) : Prop := r.resend = 0 ∧ r.ackDue = false ∧ (r.wait = [] ∨ 2047 ≤ r.unacked.length)
    let queueStops (p q cause : Nat) (x : State) : Prop := x.fld (.partEthqStat p q) PartEthqStat.error = 1
      ∧ x.fld (.partEthqStat p q) PartEthqStat.cause = cause ∧ x.Noted 0x4A04
      ∧ x.fld (.partEthqTxHead p q) PartEthqTxHead.index = s.fld (.partEthqTxHead p q) PartEthqTxHead.index
      ∧ x.fld (.partEthqRxHead p q) PartEthqRxHead.index = s.fld (.partEthqRxHead p q) PartEthqRxHead.index
    let txRing (p q : Nat) : Nat := ringAt (s.reg (.partEthqTxBase p q)).toNat (s.fld (.partEthqCtl p q) PartEthqCtl.txLog2)
      (s.fld (.partEthqTxHead p q) PartEthqTxHead.index)
    let rxRing (p q : Nat) : Nat := ringAt (s.reg (.partEthqRxBase p q)).toNat (s.fld (.partEthqCtl p q) PartEthqCtl.rxLog2)
      (s.fld (.partEthqRxHead p q) PartEthqRxHead.index)
    let master (p : Nat) : Bool := s.host.busMaster.getLsbD (p + 1)
    (∀ e, e < 4 →
      let k := 64 + e
      let free : Prop := s.portState k = 1 ∧ s.feedLow k = false ∧ s.loopHolds k = false
      (free → Completes (.ethLinkUp e) s (fun x => x.portState k = 3 ∧ SameMemory s x
        ∧ (∀ rx l, l < 8 → x.laneOf k rx l = l ∧ x.fld (lineReg k rx l) OptTxLine.state = 2)
        ∧ (s.nextTurn e = none → x = { s with regs := x.regs })))
      ∧ (¬ free → same (.ethLinkUp e))
      ∧ (s.portState k = 3 → Completes (.ethLinkFail e) s (fun x => x.portState k = 1 ∧ x.Noted 0x4906 ∧ SameMemory s x ∧ x.fab.links = s.fab.links
        ∧ (∀ rx l, l < 8 → x.fld (lineReg k rx l) OptTxLine.state = 1) ∧ ∀ d, mfind x.eth.tx d = mfind s.eth.tx d))
      ∧ (s.portState k ≠ 3 → same (.ethLinkFail e))
      ∧ ((∀ r ∈ s.eth.peers, r.port = e → r.gap = false) → same (.nakRepeat k))
      ∧ (∀ (n : Nat) (r : Peer), s.eth.peers[n]? = some r → r.port = e → r.gap = true →
        (s.portState k ≠ 3 → Completes (.nakRepeat k) s (fun x => x.eth.peers[n]? = some { r with nakDue := true, ackDue := true } ∧ x.out = s.out))
        ∧ (able e → sound r → Completes (.nakRepeat k) s (fun x => s.out.length < x.out.length)))
      ∧ ∀ (f : List Byte) (fcs : BitVec 32),
        let i : Instr := .ethFrameReceive e f fcs
        let frame := f ++ leBytes 4 fcs.toNat
        let dst := f.take 6
        let device : Prop := dst = s.eth.devMac
        let group : Prop := dst ≠ s.eth.devMac ∧ (dst.headD 0).toNat % 2 = 1
        let legal : Prop := s.portState k = 3 ∧ frameOk frame = true ∧ s.eth.present = true ∧ etherType f ≠ 0x8808
        let dropped (x : State) : Prop := x = { s with regs := x.regs } ∧ Counted (.optPortStat k) OptPortStat.ethDropped 1 s x
          ∧ ∀ r, r ≠ .optPortStat k → x.reg r = s.reg r
        let queue (p : Nat) : Nat := (s.queuesOn p e).getD (crc32c (queueKey f) % (s.queuesOn p e).length) 0
        let dev (p : Nat) : Nat := s.ethFirst p + queue p
        let waits (p : Nat) : Prop := s.queueRuns p (queue p) = true
          ∧ s.fld (.partEthqRxHead p (queue p)) PartEthqRxHead.index ≠ s.fld (.partEthqRxTail p (queue p)) PartEthqRxTail.index
        let takes (p : Nat) : Prop :=
          (∀ r, mfind s.eth.rx (dev p) = some r → Completes i s (fun x => mfind x.eth.rx (dev p) = some { r with frames := r.frames ++ [f] }))
          ∧ (mfind s.eth.rx (dev p) = none →
            (waits p → master p = true → Completes i s (fun x => mfind x.eth.rx (dev p) = some ⟨p, queue p, rxRing p (queue p), [f], false⟩
              ∧ ∃ t, mfind x.host.reqs t = some ⟨p + 1, rxRing p (queue p), 16, .rxEntry p (queue p)⟩
                ∧ Output.hostRead (p + 1) t (rxRing p (queue p)) 16 ∈ x.out))
            ∧ (waits p → master p = false → Completes i s (queueStops p (queue p) 0))
            ∧ (¬ waits p → Completes i s (fun x => mfind x.eth.rx (dev p) = none ∧ Counted (.partEthStat p) PartEthStat.droppedFull 1 s x)))
        (s.portState k ≠ 3 → same i)
        ∧ (s.portState k = 3 → ¬ legal → Completes i s dropped)
        ∧ (legal → device → s.eth.accepts f = false → Completes i s dropped)
        ∧ (legal → device → s.eth.accepts f = true →
          (s.eth.peers.zipIdx.find? (fun y => decide (y.1.ip = ipBytes f 8 16)) = none → Completes i s dropped)
          ∧ ∀ r n, s.eth.peers.zipIdx.find? (fun y => decide (y.1.ip = ipBytes f 8 16)) = some (r, n) → s.eth.peers[n]? = some r →
            let udp := f.drop 54
            let pay := (udp.take (beNat ((udp.drop 4).take 2))).drop 8
            let flags := ((pay.drop 4).headD 0).toNat
            let r1 := r.acked (leNat ((pay.drop 2).take 2))
            let seq := leNat (pay.take 2)
            let inOrder : Prop := seq = (r.lastRx + 1) % 65536
            let carries : Prop := 8 < pay.length
            let again : Prop := flags / 8 % 2 = 1 ∧ r1.down = false ∧ r1.unacked ≠ []
            let p := pktOfBytes (pay.drop 8)
            (again → 8 ≤ r1.replays + 1 → Completes i s (fun x => x.Noted 0x4907 ∧ ∃ q, x.eth.peers[n]? = some q ∧ q.down = true))
            ∧ (again → r1.replays + 1 < 8 → Completes i s (fun x => ∃ q, x.eth.peers[n]? = some q ∧ q.replays = r1.replays + 1
              ∧ (s.portState (64 + r.port) ≠ 3 → q.unacked = r1.unacked ∧ q.resend = r1.unacked.length)
              ∧ (able r.port → sound r → served q ∧ s.out.length + r1.unacked.length ≤ x.out.length)))
            ∧ (¬ again ∨ r1.replays + 1 < 8 → Completes i s (fun x => ∃ q, x.eth.peers[n]? = some q ∧ x.regs = s.regs ∧ SameMemory s x
              ∧ q.lastRx = (if carries ∧ inOrder then seq else r.lastRx)
              ∧ q.gap = (if carries then decide (¬ inOrder) else r.gap)
              ∧ x.fab.waiting = s.fab.waiting ++ (if carries ∧ inOrder then [⟨none, flags % 8, flitsOf p.length, flitsOf p.length, p⟩] else [])
              ∧ (¬ again → s.portState (64 + r.port) ≠ 3 → q.unacked = r1.unacked ∧ q.wait = r1.wait ∧ (carries → q.ackDue = true) ∧ x.out = s.out)
              ∧ (able r.port → sound r → served q ∧ (carries → s.out.length < x.out.length)))))
        ∧ (legal → group → ∀ p, s.partNums.count p = 1 → s.partState p = 2 → s.queuesOn p e ≠ [] →
          (∀ p' ∈ s.partNums, p' ≠ p → dev p' ≠ dev p) → takes p)
        ∧ (legal → ¬ device → ¬ group →
          (s.partNums.find? (fun p => decide (s.eth.partMac.getD p [] = dst)) = none → Completes i s dropped)
          ∧ ∀ p, s.partNums.find? (fun p => decide (s.eth.partMac.getD p [] = dst)) = some p →
            (s.partState p = 2 → s.queuesOn p e ≠ [] → takes p)
            ∧ (s.partState p ≠ 2 ∨ s.queuesOn p e = [] → Completes i s (fun x => x = { s with regs := x.regs }
              ∧ Counted (.partEthStat p) PartEthStat.droppedUnready 1 s x ∧ ∀ r, r ≠ .partEthStat p → x.reg r = s.reg r))))
    ∧ (∀ n, n < 1024 → let i : Instr := .ethPeerReplayTimeout n;
      (s.peerOf n = none → same i)
      ∧ ∀ r j, s.peerOf n = some (r, j) → s.eth.peers[j]? = some r →
        (r.down = true ∨ r.unacked = [] → same i)
        ∧ (r.down = false → r.unacked ≠ [] →
          (r.replays + 1 < 8 → Completes i s (fun x => x = { s with eth := x.eth, out := x.out }
            ∧ ∃ q, x.eth.peers[j]? = some q ∧ q.replays = r.replays + 1
              ∧ (s.portState (64 + r.port) ≠ 3 → q = { r with replays := r.replays + 1, resend := r.unacked.length } ∧ x.out = s.out)
              ∧ (able r.port → sound r → served q ∧ s.out.length + r.unacked.length ≤ x.out.length)))
          ∧ (8 ≤ r.replays + 1 → Completes i s (fun x => x.Noted 0x4907 ∧ ∃ q, x.eth.peers[j]? = some q ∧ q.down = true))))
    ∧ ∀ p q, p < 32 → q < 256 →
      let d := s.ethFirst p + q
      let e := s.queuePort p q
      let ctl (x : State) (f : Fld) : Nat := x.fld (.partEthqCtl p q) f
      let st (x : State) (f : Fld) : Nat := x.fld (.partEthqStat p q) f
      let thead (x : State) : Nat := x.fld (.partEthqTxHead p q) PartEthqTxHead.index
      let rhead (x : State) : Nat := x.fld (.partEthqRxHead p q) PartEthqRxHead.index
      let ttail (x : State) : Nat := x.fld (.partEthqTxTail p q) PartEthqTxTail.index
      let stops (cause : Nat) (x : State) : Prop := queueStops p q cause x
      let back (ring ent len : Nat) (bad : Bool) : Output :=
        .hostWrite (p + 1) ring (leBytes 16 (bitsOf ent 0 64 + len % 2 ^ 14 * 2 ^ 64 + (if bad then 2 ^ 78 else 0) + 2 ^ 79))
      (∀ m, m < 4 → let i : Instr := .ethTxComplete p q m;
        (s.ethCount p ≤ q ∨ mfind s.eth.sending m ≠ some d → same i)
        ∧ (q < s.ethCount p → mfind s.eth.sending m = some d → ∀ t ent, mfind s.eth.tx d = some t → t.part = p → t.idx = q → t.ent = some ent →
          (master p = false → Completes i s (stops 0))
          ∧ (master p = true → Completes i s (fun x => thead x = (if t.stale then thead s else (thead s + 1) % 2 ^ 16)
            ∧ st x PartEthqStat.txBad = st s PartEthqStat.txBad ∧ ∃ post, x.out = s.out ++ back t.ring ent (bitsOf ent 64 14) false :: post))))
      ∧ (∀ tag addr us, ∀ data : List Byte, let i : Instr := .hostCompletion tag (.ok us) data
        let ent := leNat data
        let len := bitsOf ent 64 14
        (mfind s.host.reqs tag = some ⟨p + 1, addr, 16, .txEntry p q⟩ → data.length = 16 → ∀ t, mfind s.eth.tx d = some t → t.part = p → t.idx = q →
            t.stale = false → s.queueRuns p q = true →
          (master p = false → Completes i s (stops 0))
          ∧ (master p = true → len < 60 ∨ 9212 < len → Completes i s (fun x => thead x = (thead s + 1) % 2 ^ 16
            ∧ Counted (.partEthqStat p q) PartEthqStat.txBad 1 s x ∧ ∃ post, x.out = s.out ++ back t.ring ent len true :: post))
          ∧ (master p = true → 60 ≤ len → len ≤ 9212 → Completes i s (fun x => thead x = thead s
            ∧ mfind x.eth.tx d = some { t with ent := some ent, left := (len + 511) / 512 }
            ∧ x.out = s.out ++ (List.range ((len + 511) / 512)).map (fun m =>
                Output.hostRead (p + 1) (s.host.nextTag + m) (bitsOf ent 0 64 + 512 * m) (min 512 (len - 512 * m))))))
        ∧ (∀ off t, mfind s.host.reqs tag = some ⟨p + 1, addr, data.length, .txFrame p q off⟩ → mfind s.eth.tx d = some t →
          let t1 : TxQ := { t with left := t.left - 1, chunks := mset t.chunks off data }
          Completes i s (fun x => mfind x.eth.tx d = some t1 ∧ thead x = thead s)
          ∧ (t.left = 1 → t.ent.isSome = true → t.part = p → q ∈ s.queuesOn p e → s.portState (64 + e) = 3 → mfind s.eth.sending e = none →
              s.eth.peers = [] → s.eth.tx = [(d, t)] →
              Completes i s (fun x => x.out = s.out ++ [.ethFrame e (withFcs t1.frame)] ∧ mfind x.eth.sending e = some d)))
        ∧ (∀ r fr rest, mfind s.host.reqs tag = some ⟨p + 1, addr, 16, .rxEntry p q⟩ → data.length = 16 → mfind s.eth.rx d = some r → r.frames = fr :: rest →
          (len < fr.length → Completes i s (fun x => rhead x = rhead s ∧ Counted (.partEthqStat p q) PartEthqStat.oversize 1 s x))
          ∧ (fr.length ≤ len → master p = false → Completes i s (stops 0))
          ∧ (fr.length ≤ len → master p = true → Completes i s (fun x => rhead x = (if r.stale then rhead s else (rhead s + 1) % 2 ^ 16)
            ∧ ∃ post, x.out = s.out
              ++ (List.range ((fr.length + 511) / 512)).map (fun j => Output.hostWrite (p + 1) (bitsOf ent 0 64 + 512 * j) ((fr.drop (512 * j)).take 512))
              ++ back r.ring ent fr.length false :: post))))
      ∧ (let n := s.ethFirst p + q
        let msg (x : State) : Prop := (s.msixMasked (p + 1) (ctl s PartEthqCtl.vector) = false → x.out = s.out ++ [.msix (p + 1) (ctl s PartEthqCtl.vector)])
          ∧ (s.msixMasked (p + 1) (ctl s PartEthqCtl.vector) = true → x.out = s.out ∧ (p + 1) * 64 + ctl s PartEthqCtl.vector ∈ x.host.msixPend)
        (n ∈ s.eth.deferred → Completes (.ethqIrqGap p q) s (fun x => msg x ∧ n ∉ x.eth.deferred ∧ x.eth.gapRuns = s.eth.gapRuns ∧ x.regs = s.regs))
        ∧ (n ∉ s.eth.deferred → Completes (.ethqIrqGap p q) s (fun x => x = { s with eth := x.eth } ∧ x.eth.deferred = s.eth.deferred
          ∧ n ∉ x.eth.gapRuns)))
      ∧ ∀ v : BitVec 64,
        let reaches : Prop := (mfind s.parts p).isSome = true ∧ s.host.vfEnable = true ∧ s.devState ≠ 3 ∧ q < s.ethCount p
        let t := v.toNat % 65536
        (¬ reaches → ∀ i ∈ [Instr.partEthqCtlWrite p q v, .ethqTxTailWrite p q v, .ethqRxTailWrite p q v], same i)
        ∧ (reaches →
          (let i : Instr := .ethqTxTailWrite p q v
           let above : Prop := s.queueRuns p q = true ∧ 2 ^ ctl s PartEthqCtl.txLog2 < (t + 65536 - thead s) % 65536
           let idle : Prop := s.queueRuns p q = false ∨ t = thead s ∨ (mfind s.eth.tx d).isSome = true
           (above → Completes i s (fun x => stops 1 x ∧ ttail x = t))
           ∧ (¬ above → idle → Completes i s (fun x => x = { s with regs := x.regs } ∧ ttail x = t
              ∧ ∀ r, r ≠ .partEthqTxTail p q → x.reg r = s.reg r))
           ∧ (¬ above → ¬ idle → master p = false → Completes i s (fun x => stops 0 x ∧ ttail x = t))
           ∧ (¬ above → ¬ idle → master p = true → Completes i s (fun x => ttail x = t ∧ mfind x.eth.tx d = some ⟨p, q, txRing p q, none, 0, [], false⟩
              ∧ x.out = s.out ++ [.hostRead (p + 1) s.host.nextTag (txRing p q) 16]
              ∧ mfind x.host.reqs s.host.nextTag = some ⟨p + 1, txRing p q, 16, .txEntry p q⟩)))
          ∧ (let above : Prop := s.queueRuns p q = true ∧ 2 ^ ctl s PartEthqCtl.rxLog2 < (t + 65536 - rhead s) % 65536
           (above → Completes (.ethqRxTailWrite p q v) s (fun x => stops 1 x ∧ x.fld (.partEthqRxTail p q) PartEthqRxTail.index = t))
           ∧ (¬ above → Completes (.ethqRxTailWrite p q v) s (fun x => x = { s with regs := x.regs }
              ∧ x.fld (.partEthqRxTail p q) PartEthqRxTail.index = t ∧ ∀ r, r ≠ .partEthqRxTail p q → x.reg r = s.reg r)))
          ∧ (let i : Instr := .partEthqCtlWrite p q v
            let fresh : Prop := PartEthqCtl.enable.get v = 1 ∧ ctl s PartEthqCtl.enable ≠ 1
            let wrong : Prop := PartEthqCtl.vector.get v < 3 ∨ (s.reg (.partEthqTxBase p q)).toNat % 4096 ≠ 0 ∨ (s.reg (.partEthqRxBase p q)).toNat % 4096 ≠ 0
            let fields (x : State) : Prop := (∀ f ∈ [PartEthqCtl.enable, PartEthqCtl.irq, PartEthqCtl.vector, PartEthqCtl.gapUs], ctl x f = f.get v)
              ∧ ∀ f ∈ [PartEthqCtl.txLog2, PartEthqCtl.rxLog2], ctl x f = if ctl s PartEthqCtl.enable = 1 then ctl s f else f.get v
            let only (x : State) : Prop := x = { s with regs := x.regs, eth := x.eth } ∧ ∀ r, r ≠ .partEthqCtl p q → r ≠ .partEthqTxHead p q →
              r ≠ .partEthqRxHead p q → r ≠ .partEthqStat p q → x.reg r = s.reg r
            Completes i s fields
            ∧ (fresh → ¬ wrong → (ttail s ≠ 0 → (mfind s.eth.tx d).isSome = false → master p = true) →
              Completes i s (fun x => thead x = 0 ∧ rhead x = 0 ∧ st x PartEthqStat.error = 0
              ∧ (ttail s = 0 ∨ (mfind s.eth.tx d).isSome = true → only x ∧ mfind x.eth.tx d = (mfind s.eth.tx d).map (fun y => { y with stale := true }))))
            ∧ (fresh → wrong → Completes i s (fun x => thead x = 0 ∧ rhead x = 0 ∧ st x PartEthqStat.error = 1 ∧ st x PartEthqStat.cause = 2 ∧ x.Noted 0x4A04))
            ∧ (PartEthqCtl.enable.get v = 0 → Completes i s (fun x => only x ∧ x.eth = s.eth ∧ thead x = thead s ∧ rhead x = rhead s
              ∧ st x PartEthqStat.error = st s PartEthqStat.error))))

/-- What SPDM, MCTP and PLDM answer, and how a firmware update reaches the flash (R447, R448, R449, R450, R451, R507, R558, R559, R560). COMPLETES: GET_VERSION, GET_CAPABILITIES, NEGOTIATE_ALGORITHMS, GET_DIGESTS, GET_CERTIFICATE, CHALLENGE, GET_MEASUREMENTS, SET_ENDPOINT_ID, PLDM_DISCOVERY, PLDM_SENSOR_READ, PLDM_FIRMWARE_UPDATE, FIRMWARE_COPY_WRITTEN, PLATFORM_EVENT_MESSAGE. Each SPDM request over a transport that reaches the responder is answered with one message, on the management bus in units of at most 64 bytes, and changes nothing but how far the requester of that transport has come: after the octets of the DMTF standards (free, assumption 13) the version, the flags, the algorithms, the digest of the chain, the chain, or, signed with the device key, the chain's digest and the nonce, or the measurements and the nonce; one out of the order version, capabilities, algorithms, rest is answered by an error (the order and the codings are the family's, assumption 13); over any other transport it changes nothing. The measurements are 1 to 4 and, on a VF, only those of its own partition at 0x10 to 0x12, elsewhere those of every granted partition; while a strap commit has not completed its step 4 its digests read as none. The management bus answers while standby is powered: an endpoint ID is kept, a sensor is read or unavailable, the types 0, 2 and 5 of PLDM are told. A firmware update longer than 2 MiB is refused with ERROR_INVALID_LENGTH, one beside a slot write or another update with ERROR_NOT_READY, one that fails its check or is not newer than the booted copy is not taken; else the other copy is empty, so that it fails its check, until it has been written. A delivered signature is no longer undelivered. -/
def Obligations.ManagementAnswers : Prop :=
  ∀ (s : State),
    let onBus (pkg : Pkg) (m : List Byte) (x : State) : Prop := ∃ units, x = { s with pkg := pkg, out := s.out ++ [.mctp s.smbAddr pkg.eid units] }
      ∧ units.flatten = m ∧ units.length = (m.length + 63) / 64 ∧ ∀ u ∈ units, u.length ≤ 64
    let msg (n : Nat) (bs : List Byte) (x : State) : Prop := onBus s.pkg (Config.dmtfBytes n ++ bs) x
    (∀ tr : Transport, tr.wf = true →
      let served : Prop := (tr = .mctp → s.pkg.standby = true) ∧ (tr ≠ .mctp → s.pkg.booted = true)
        ∧ (∀ n, tr = .vfDoe n → s.host.vfEnable = true)
      let signed (n : Nat) (bs : List Byte) : List Byte := bs ++ Config.deviceSign (Config.dmtfBytes n ++ bs)
      let chain := sha384 Config.certChain
      ∀ nonce : BitVec 256,
        let key := match tr with
          | .mctp => 0
          | .pfDoe => 1
          | .vfDoe n => 1 + n
        let stage := mget s.pkg.spdm key 0
        let answered (stage' : Nat) (n : Nat) (bs : List Byte) (x : State) : Prop :=
          let pkg := { s.pkg with spdm := mset s.pkg.spdm key stage' }
          (tr = .mctp → onBus pkg (Config.dmtfBytes n ++ bs) x)
          ∧ (tr ≠ .mctp → x = { s with pkg := pkg, out := s.out ++ [.message (Config.dmtfBytes n ++ bs)] })
        let refused (x : State) : Prop := (tr = .mctp → msg 14 [4] x)
          ∧ (tr ≠ .mctp → x = { s with out := s.out ++ [.message (Config.dmtfBytes 14 ++ [4])] })
        let answers : List (Instr × Nat × Nat × Nat × List Byte) := [(.getVersion tr, 0, 1, 0, leBytes 2 0x1200),
          (.getCapabilities tr, 1, max 2 stage, 1, leBytes 4 0x16), (.negotiateAlgorithms tr, 2, 3, 2, leBytes 4 4 ++ leBytes 4 0x80 ++ leBytes 4 2),
          (.getDigests tr, 3, 3, 3, chain), (.getCertificate tr, 3, 3, 4, Config.certChain),
          (.challenge tr nonce, 3, 3, 5, signed 5 (chain ++ leBytes 32 nonce.toNat)),
          (.getMeasurements tr nonce, 3, 3, 6, signed 6 (measureBytes (s.measures tr) ++ leBytes 32 nonce.toNat))]
        ∀ a ∈ answers,
          (served → a.2.1 ≤ stage → Completes a.1 s (answered a.2.2.1 a.2.2.2.1 a.2.2.2.2))
          ∧ (served → stage < a.2.1 → Completes a.1 s refused) ∧ (¬ served → Completes a.1 s (fun x => x = s)))
    ∧ (∀ tr : Transport, s.measures tr
        = [(1, s.fwDigest), (2, s.treeDigest), (3, sha384 (leBytes 8 (s.reg .harnFuse).toNat ++ (List.range 4).flatMap (fun j => leBytes 48
            (if (s.fld .harnFuse HarnFuse.keyPresent).testBit j then s.pkg.keySlots.getD j 0 else 0)))), (4, leBytes 8 (s.reg .stchBootId).toNat)]
          ++ (match tr with
            | .vfDoe n => s.partMeasures 0x10 (n - 1)
            | _ => (List.range 32).flatMap (fun p => s.partMeasures (0x20 + 3 * p) p)))
    ∧ (∀ i p,
        let loading : Prop := ∃ r, s.harn.op = some (.strap r 4) ∧ r.part = p
        let words (p : Nat) (f : Nat → Nat → Reg) : List Byte := (List.range 6).flatMap (fun j => leBytes 8 (s.reg (f p j)).toNat)
        ∀ digest : Nat → (Nat → Nat → Reg) → List Byte,
        (∀ f, (loading → digest p f = List.replicate 48 0) ∧ (¬ loading → digest p f = words p f)) →
        (mfind s.parts p = none → s.partMeasures i p = [])
        ∧ ∀ q, mfind s.parts p = some q → s.partMeasures i p = [(i, sha384 (q.grant.flatMap (fun w => leBytes 4 w.toNat))),
            (i + 1, digest p .partStrapDigest), (i + 2, digest p .partStrapKey)])
    ∧ (∀ (eid : BitVec 8) (n bytes : Nat) (img : List (BitVec 64)),
      (s.pkg.standby = false → ∀ i ∈ [Instr.setEndpointId eid, .pldmDiscovery, .pldmSensorRead n, .pldmFirmwareUpdate bytes img],
        Completes i s (fun x => x = s))
      ∧ (s.pkg.standby = true →
        Completes (.setEndpointId eid) s (onBus { s.pkg with eid := eid.toNat } (Config.dmtfBytes 7))
        ∧ Completes .pldmDiscovery s (msg 8 (leBytes 8 (1 + 2 ^ 2 + 2 ^ 5)))
        ∧ (s.pldmSensor n = none → Completes (.pldmSensorRead n) s (msg 10 []))
        ∧ (∀ v, s.pldmSensor n = some v → Completes (.pldmSensorRead n) s (msg 9 (leBytes 4 v)))
        ∧ (let i : Instr := .pldmFirmwareUpdate bytes img
          let busy : Prop := (∃ slot, s.harn.op = some (.slotWrite slot)) ∨ s.pkg.fwUpdate.isSome = true
          let good : Prop := s.fwOk img = true ∧ bytes = 8 * img.length ∧ ∀ q, s.bootedSeq = some q → q < fwSeq img
          let dest := 1 - s.fld .devBoot DevBoot.fwCopy
          (2097152 < bytes → Completes i s (msg 11 [3]))
          ∧ (bytes ≤ 2097152 → busy → Completes i s (msg 11 [4]))
          ∧ (bytes ≤ 2097152 → ¬ busy → ¬ good → Completes i s (msg 13 []))
          ∧ (bytes ≤ 2097152 → ¬ busy → good → Completes i s (fun x => x.pkg = { s.pkg with fwUpdate := some (dest, img) }
            ∧ x.flash = s.flash.setFw dest [] ∧ x.fwOk (if dest = 1 then x.flash.fw1 else x.flash.fw0) = false
            ∧ x = { s with pkg := x.pkg, flash := x.flash, out := x.out })))))
    ∧ (s.pkg.fwUpdate = none → Completes .firmwareCopyWritten s (fun x => x = s))
    ∧ (∀ dest img, s.pkg.fwUpdate = some (dest, img) → Completes .firmwareCopyWritten s (fun x => x.pkg = { s.pkg with fwUpdate := none }
        ∧ x.flash = s.flash.setFw dest img ∧ (if dest = 1 then x.flash.fw1 else x.flash.fw0) = img
        ∧ (if dest = 1 then x.flash.fw0 else x.flash.fw1) = (if dest = 1 then s.flash.fw0 else s.flash.fw1)
        ∧ x = { s with pkg := x.pkg, flash := x.flash }))
    ∧ ∀ g, g < 64 → Completes (.platformEventMessage g) s (fun x => x = { s with err := { s.err with undelivered := x.err.undelivered } }
        ∧ g ∉ x.err.undelivered ∧ ∀ h, h ≠ g → (h ∈ x.err.undelivered ↔ h ∈ s.err.undelivered))

/-- The ring and the views take the waiting records in order; awl kernels run, fail, repeat and retire a core (R486, R488, R489, R490, R491, R492, R493, R495, R496, R497). COMPLETES: EVENT_RECORD_WRITE, ERR_CAP_CTL_WRITE, AWL_SCHEDULED_START, AWL_DECLARATION, AWL_KERNEL_DONE. With nothing waiting no record is written. Else the oldest intake entry, or with an empty intake the first overflow entry, leaves its place; its 64 bytes stand in the ring slot of the head, the head is one more, and a lost record is counted when 4,096 are unread; the view of its partition takes it, a Device-fatal record with zero detail the view of every granted one, other records no view. A failed seal or store leaves the slot open, latches its code and fences the device. Register writes act on a device that has booted and is not Fenced, those of a partition also only through its enabled VF. Writing 1 to first_valid clears FIRST, NEXT and the control. A scheduled start is taken for an idle core of no Armed partition with no other run, and refused otherwise; its first kernel starts when the slew limiter lets it, else it waits. A declaration is kept only for an Armed partition, from a later tick, for 0 or at least two stitches. A kernel that passes goes on to the next, one that fails runs again, and one that fails twice is logged, leaves the core and retires it. -/
def Obligations.EventsAndKernelsAreRecorded : Prop :=
  ∀ (s : State),
    let begun (c k : Nat) (r : AwlRun) : AwlRun := if s.awlMay (kernelStrips c k) then { r with kernel := some k, wait := none, first := none }
      else { r with kernel := none, wait := some k, first := none }
    (s.err.intake = [] → s.err.overflow = [] → ∀ a b, Completes (.eventRecordWrite a b) s (fun x => x = s))
    ∧ (∀ r e, s.nextEntry = some (r, e) →
      let h := (s.reg .errRingHead).toNat
      let slot (x : State) (ws : List (BitVec 64)) : Prop := (∀ j, j < 8 → x.reg (.errRing (h % 4096) j) = ws.getD j 0)
        ∧ x.reg .errRingHead = s.reg .errRingHead + 1
        ∧ Counted .errEventsLostOldest ErrEventsLostOldest.lost (if 4096 ≤ h - (s.reg .errRingRead).toNat then 1 else 0) s x
      let view (p : Nat) (bs : List Byte) (x : State) : Prop :=
        let t := (s.reg (.partEvtHead p)).toNat
        (∃ q, mfind x.parts p = some q ∧ mfind q.view (t % 1024) = some bs) ∧ x.reg (.partEvtHead p) = s.reg (.partEvtHead p) + 1
          ∧ Counted (.partEvtLost p) PartEvtLost.lost (if 1024 ≤ t - (s.reg (.partEvtRead p)).toNat then 1 else 0) s x
      let path (code : Nat) (x : State) : Prop := x.fld .errPath ErrPath.code = code ∧ x.fld .errPath ErrPath.valid = 1 ∧ x.Noted code ∧ x.devState = 3
      (match s.err.intake, s.err.overflow with
        | a :: t, _ => r = a ∧ e = { s.err with intake := t }
        | [], (_, a) :: t => r = a ∧ e = { s.err with overflow := t }
        | [], [] => False)
      ∧ Completes (.eventRecordWrite true true) s (fun x => slot x (toWords 8 r.bytes) ∧ x.err = e ∧ x.fld .devIrqStat DevIrqStat.event = 1
        ∧ SameMemory s x)
      ∧ (r.code / 4096 = 3 → ∀ p, s.partNums.count p = 1 → Completes (.eventRecordWrite true true) s
          (view p { r with detail := List.replicate 20 0 }.bytes))
      ∧ (r.code / 4096 ≠ 3 → r.part < 32 → r.flags.testBit 3 = false → (mfind s.parts r.part).isSome = true → Completes (.eventRecordWrite true true) s (fun x =>
          view r.part r.bytes x ∧ ∀ p, p ≠ r.part → mfind x.parts p = mfind s.parts p ∧ x.reg (.partEvtHead p) = s.reg (.partEvtHead p)))
      ∧ (r.code / 4096 ≠ 3 → 32 ≤ r.part ∨ r.flags.testBit 3 = true ∨ mfind s.parts r.part = none → Completes (.eventRecordWrite true true) s (fun x => x.parts = s.parts))
      ∧ Completes (.eventRecordWrite false true) s (fun x => slot x ((List.range 8).map (fun j => Config.freeWord (s.freeCtr + j))) ∧ path 0x3C01 x)
      ∧ ∀ b, Completes (.eventRecordWrite b false) s (fun x => slot x ((List.range 8).map (fun j => Config.freeWord (s.freeCtr + j))) ∧ path 0x3C02 x
        ∧ (b = false → x.Noted 0x3C01)))
    ∧ (∀ b (v : BitVec 64), b < 20 →
      (s.pkg.booted = false ∨ s.devState = 3 ∨ ErrCapCtl.firstValid.get v ≠ 1 → Completes (.errCapCtlWrite b v) s (fun x => x = s))
      ∧ (s.pkg.booted = true → s.devState ≠ 3 → ErrCapCtl.firstValid.get v = 1 → Completes (.errCapCtlWrite b v) s (fun x => x = { s with regs := x.regs }
        ∧ x.reg (.errCapCtl b) = 0 ∧ (∀ j, j < 8 → x.reg (.errFirst b j) = 0 ∧ x.reg (.errNext b j) = 0)
        ∧ ∀ r, r ≠ .errCapCtl b → (∀ j, j < 8 → r ≠ .errFirst b j ∧ r ≠ .errNext b j) → x.reg r = s.reg r)))
    ∧ (∀ v : BitVec 64,
      let i : Instr := .awlScheduledStart v
      let c := ErrAwlCtl.core.get v
      let fields (x : State) : Prop := x.fld .errAwlCtl ErrAwlCtl.core = c ∧ x.fld .errAwlCtl ErrAwlCtl.mask = ErrAwlCtl.mask.get v
        ∧ ∀ r, r ≠ .errAwlCtl → r ≠ .errAwlStat → x.reg r = s.reg r
      let free : Prop := s.fld .errAwlStat ErrAwlStat.busy = 0 ∧ (∃ k, mfind s.cores c = some k ∧ k.awl = none) ∧ s.isRetired c = false
        ∧ ∀ p, s.ownerOf c = some p → s.partState p ≠ 2
      let mask := (List.range 24).filter (fun j => (ErrAwlCtl.mask.get v).testBit j)
      let stat (x : State) (busy : Nat) : Prop := x.fld .errAwlStat ErrAwlStat.core = c ∧ x.fld .errAwlStat ErrAwlStat.busy = busy
        ∧ x.fld .errAwlStat ErrAwlStat.refused = 0 ∧ x.fld .errAwlStat ErrAwlStat.passed = 0
      (s.pkg.booted = false ∨ s.devState = 3 → Completes i s (fun x => x = s))
      ∧ (s.pkg.booted = true → s.devState ≠ 3 →
        (ErrAwlCtl.start.get v = 0 → Completes i s (fun x => fields x ∧ x.reg .errAwlStat = s.reg .errAwlStat ∧ x = { s with regs := x.regs }))
        ∧ (ErrAwlCtl.start.get v = 1 → ¬ free → Completes i s (fun x => fields x ∧ x.fld .errAwlStat ErrAwlStat.refused = 1 ∧ x = { s with regs := x.regs }))
        ∧ (ErrAwlCtl.start.get v = 1 → free →
          (mask = [] → Completes i s (fun x => fields x ∧ stat x 0 ∧ x = { s with regs := x.regs }))
          ∧ ∀ m t, mask = m :: t → Completes i s (fun x => fields x ∧ stat x 1 ∧ (∀ d, d ≠ c → mfind x.cores d = mfind s.cores d)
            ∧ mfind x.cores c = (mfind s.cores c).map (fun k => { k with awl := some (begun c m ⟨none, none, t, false, none⟩) })))))
    ∧ (∀ p (v : BitVec 64), p < 32 →
      let i : Instr := .awlDeclaration p v
      let reaches : Prop := (mfind s.parts p).isSome = true ∧ s.host.vfEnable = true ∧ s.devState ≠ 3
      let n := PartAwlCtl.stitches.get v
      let kept : Prop := s.partState p = 2 ∧ 2 ≤ n ∧ s.count + 1 < PartAwlCtl.fromF.get v
        ∧ s.fld (.partAwlWin p) PartAwlWin.offset + 262144 ≤ 2097152
      let only (x : State) : Prop := x = { s with regs := x.regs } ∧ ∀ r, r ≠ .partAwlCtl p → x.reg r = s.reg r
      (¬ reaches → Completes i s (fun x => x = s)) ∧ (reaches → n ≠ 0 → ¬ kept → Completes i s (fun x => x = s))
      ∧ (reaches → n = 0 → Completes i s (fun x => only x ∧ x.fld (.partAwlCtl p) PartAwlCtl.stitches = 0
        ∧ x.fld (.partAwlCtl p) PartAwlCtl.fromF = PartAwlCtl.fromF.get v))
      ∧ (reaches → kept → Completes i s (fun x => only x ∧ x.fld (.partAwlCtl p) PartAwlCtl.stitches = n
        ∧ x.fld (.partAwlCtl p) PartAwlCtl.fromF = PartAwlCtl.fromF.get v)))
    ∧ ∀ c (a b : BitVec 32), c < 512 →
      let i : Instr := .awlKernelDone c a b
      let other (x : State) : Prop := ∀ d, d ≠ c → mfind x.cores d = mfind s.cores d
      (∀ k, mfind s.cores c = some k → k.awl = none ∨ (∃ r, k.awl = some r ∧ r.kernel = none) → Completes i s (fun x => x = s))
      ∧ (mfind s.cores c = none → Completes i s (fun x => x = s))
      ∧ ∀ k r m, mfind s.cores c = some k → k.awl = some r → r.kernel = some m → m < 24 →
        let now (x : State) (w : AwlRun) : Prop := mfind x.cores c = some { k with awl := some w } ∧ other x
        let failed (x : State) : Prop := x.Noted 0x1C10 ∧ Counted (.coreAwl c) CoreAwl.fails 1 s x
        let noted (x : State) : Prop := r.first.isSome = true → failed x
        (a ≠ b → r.first = none → Completes i s (fun x => now x { r with first := some b.toNat } ∧ x = { s with cores := x.cores }))
        ∧ (a ≠ b → r.first.isSome = true → Completes i s (fun x => failed x ∧ x.isRetired c = true ∧ x.Noted 0x410A
          ∧ ∃ k', mfind x.cores c = some k' ∧ k'.awl = none ∧ k'.halted = true ∧ k'.queues = []))
        ∧ (a = b → r.declared = false →
          let passed (x : State) : Prop := ∀ j, (x.fld .errAwlStat ErrAwlStat.passed).testBit j
            = ((s.fld .errAwlStat ErrAwlStat.passed).testBit j || decide (j = m))
          (∀ n t, r.rest = n :: t → Completes i s (fun x => now x (begun c n { r with rest := t }) ∧ passed x ∧ noted x))
          ∧ (r.rest = [] → Completes i s (fun x => passed x ∧ noted x ∧ x.fld .errAwlStat ErrAwlStat.busy = 0
            ∧ ∃ k', mfind x.cores c = some k' ∧ k'.awl = none ∧ k'.matrix = { k.matrix with accs := [], units := [] })))
        ∧ (a = b → r.declared = true → ∀ p, s.ownerOf c = some p → Completes i s (fun x =>
          now x (if 3900 ≤ s.awlLeft p then begun c ((m + 1) % 24) r else { r with kernel := none, first := none }) ∧ noted x
          ∧ x.fld (.coreAwl c) CoreAwl.next = (m + 1) % 24
          ∧ x.fld (.coreAwl c) CoreAwl.lastPass = if m = 23 then s.count else s.fld (.coreAwl c) CoreAwl.lastPass))

/-- A step begins, closes with its fold and commits; a replay starts or loses its source; digests are compared (R498, R500, R501, R502, R503, R504). COMPLETES: STEP_BEGIN, STEP_CLOSE, STEP_COMMIT, STEP_FOLD_DONE, REPLAY_START, REPLAY_RESPONSE_TIMEOUT, COMPARE. Through an enabled VF that reaches its partition, of a device that is not Fenced: BEGIN in state none with every range in its memory and at most 2^28 blocks enters Pending with the fold zero; CLOSE in Open, no fold running, starts the fold; COMMIT in Open or Closed returns to none; each is refused otherwise, which only sets refused. The end of the fold enters Closed with the count of OPEN blocks of the output ranges and the sum, modulo 2^64, of the mixes of the check values of the others. A replay starts only in Armed for multiples of 4 KiB inside the partition's memory while none runs: one of length zero is done at once, another is busy with nothing copied, or has lost its source. A response that does not come within its time loses the source: not busy, lost, logged, the partition Fenced. COMPARE counts, and counts and logs a mismatch when the two roots differ. Through any other VF, and in any other state, nothing changes. -/
def Obligations.StepsReplaysAndReplicas : Prop :=
  ∀ (s : State) (p : Nat), p < 32 →
    let reaches : Prop := (mfind s.parts p).isSome = true ∧ s.host.vfEnable = true ∧ s.devState ≠ 3
    let st (x : State) (f : Fld) : Nat := x.fld (.partStepStatus p) f
    let rp (x : State) (f : Fld) : Nat := x.fld (.partReplayStatus p) f
    let state := st s PartStepStatus.state
    let only (rs : List Reg) (x : State) : Prop := x = { s with regs := x.regs } ∧ ∀ r, r ∉ rs → x.reg r = s.reg r
    let refused (x : State) : Prop := only [.partStepStatus p] x ∧ st x PartStepStatus.refused = 1
      ∧ ∀ f ∈ [PartStepStatus.state, PartStepStatus.busy, PartStepStatus.openBlocks], st x f = st s f
    let fits : Prop := ∀ i, i < 16 → s.stepRangeOk p i = true ∧ (s.stepRange p i).2.2.2 ≤ 2 ^ 28
    (¬ reaches → ∀ v : BitVec 64, ∀ i ∈ [Instr.stepBegin p, .stepClose p, .stepCommit p, .replayStart p, .compare p v], Completes i s (fun x => x = s))
    ∧ (reaches →
      (state = 0 → fits → Completes (.stepBegin p) s (fun x => only [.partStepStatus p, .partStepFold p] x ∧ x.reg (.partStepFold p) = 0
        ∧ st x PartStepStatus.state = 1 ∧ ∀ f ∈ [PartStepStatus.busy, PartStepStatus.refused, PartStepStatus.openBlocks], st x f = 0))
      ∧ (¬ (state = 0 ∧ fits) → Completes (.stepBegin p) s refused)
      ∧ (state = 2 → st s PartStepStatus.busy = 0 → Completes (.stepClose p) s (fun x => only [.partStepStatus p] x
        ∧ st x PartStepStatus.busy = 1 ∧ st x PartStepStatus.refused = 0 ∧ st x PartStepStatus.state = 2))
      ∧ (¬ (state = 2 ∧ st s PartStepStatus.busy = 0) → Completes (.stepClose p) s refused)
      ∧ (2 ≤ state → Completes (.stepCommit p) s (fun x => only [.partStepStatus p] x ∧ st x PartStepStatus.state = 0
        ∧ st x PartStepStatus.busy = 0 ∧ st x PartStepStatus.refused = 0 ∧ x.stepOpen p = false))
      ∧ (state < 2 → Completes (.stepCommit p) s refused)
      ∧ (let src := (s.reg (.partReplaySrc p)).toNat
        let dst := (s.reg (.partReplayDst p)).toNat
        let len := s.fld (.partReplayLen p) PartReplayLen.bytes
        let ok : Prop := s.partState p = 2 ∧ src % 4096 = 0 ∧ dst % 4096 = 0 ∧ len % 4096 = 0 ∧ rp s PartReplayStatus.busy = 0
          ∧ (s.spaceLoc p (bitsOf dst 46 3) (bitsOf dst 0 46) len).isSome = true
        (¬ ok → Completes (.replayStart p) s (fun x => x = s))
        ∧ (ok → len = 0 → Completes (.replayStart p) s (fun x => only [.partReplayStatus p] x ∧ rp x PartReplayStatus.done = 1
          ∧ ∀ f ∈ [PartReplayStatus.busy, PartReplayStatus.lost, PartReplayStatus.copied], rp x f = 0))
        ∧ (ok → len ≠ 0 → Completes (.replayStart p) s (fun x => rp x PartReplayStatus.done = 0 ∧ rp x PartReplayStatus.copied = 0
          ∧ (rp x PartReplayStatus.busy = 1 ∧ rp x PartReplayStatus.lost = 0 ∨ rp x PartReplayStatus.busy = 0 ∧ rp x PartReplayStatus.lost = 1))))
      ∧ ∀ v : BitVec 64,
        let i : Instr := .compare p v
        let same : Prop := ∀ j, j < 4 → s.reg (.partWdigMine p j) = s.reg (.partWdigPeer p j)
        let counted (x : State) : Prop := x.fld (.partWdigStat p) PartWdigStat.compares = (s.fld (.partWdigStat p) PartWdigStat.compares + 1) % 2 ^ 32
        (PartWdigCtl.compare.get v = 0 → Completes i s (fun x => x = s))
        ∧ (PartWdigCtl.compare.get v ≠ 0 → same → Completes i s (fun x => only [.partWdigStat p] x ∧ counted x
          ∧ x.fld (.partWdigStat p) PartWdigStat.mismatches = s.fld (.partWdigStat p) PartWdigStat.mismatches))
        ∧ (PartWdigCtl.compare.get v ≠ 0 → ¬ same → Completes i s (fun x => counted x ∧ x.Noted 0x1C30 ∧ SameMemory s x
          ∧ Counted (.partWdigStat p) PartWdigStat.mismatches 1 s x)))
    ∧ (¬ (state = 2 ∧ st s PartStepStatus.busy = 1) → Completes (.stepFoldDone p) s (fun x => x = s))
    ∧ (state = 2 → st s PartStepStatus.busy = 1 →
      let blocks : List (Nat × Nat × Blk) := (List.range 16).flatMap (fun r =>
        if (s.stepRange p r).1 = 2 then (List.range (s.stepRange p r).2.2.2).map (fun b => (r, b, s.blkOf (s.stepRange p r).2.1 ((s.stepRange p r).2.2.1 + b)))
        else [])
      Completes (.stepFoldDone p) s (fun x => only [.partStepStatus p, .partStepFold p] x ∧ st x PartStepStatus.state = 3
        ∧ st x PartStepStatus.busy = 0 ∧ st x PartStepStatus.openBlocks = (blocks.filter (fun y => !y.2.2.valid)).length % 2 ^ 32
        ∧ (x.reg (.partStepFold p)).toNat = ((blocks.filter (fun y => y.2.2.valid)).map (fun y =>
            srMix 0 (y.1 * 2 ^ 60 + y.2.1 * 2 ^ 32 + y.2.2.check.toNat))).sum % 2 ^ 64))
    ∧ (let waits := s.fab.xfers.find? (fun y => y.2.isReplayOf p)
      (waits = none ∨ rp s PartReplayStatus.busy = 0 → Completes (.replayResponseTimeout p) s (fun x => x = s))
      ∧ (waits.isSome = true → rp s PartReplayStatus.busy = 1 → (mfind s.parts p).isSome = true →
        Completes (.replayResponseTimeout p) s (fun x => rp x PartReplayStatus.busy = 0 ∧ rp x PartReplayStatus.lost = 1
          ∧ rp x PartReplayStatus.copied = rp s PartReplayStatus.copied ∧ x.Noted 0x2C20 ∧ x.partState p = 3)))

/-- Samples, sags, grants, sensor readings, feeds and the slew limiter: what each changes, cuts and trips (R394, R409, R411, R514, R517, R518, R519, R525, R526, R529, R532, R533). COMPLETES: POWER_SAMPLE, SAG_WARN, SAG_WARN_END, SAG_RESET, SAG_RESET_RELEASE, TRIP_HOLD_END, PWR_GRANT_WRITE, SENSOR_READ, OPT_FEED_LOW, FEED_RESTORED, SLEW_MICROSECOND. A sample becomes the present reading and the newest of 1,000; the two power limits compare the means of them and of the newest ten, and one that becomes active is logged. A sag warning, new, is logged, ends ballast and cuts the cap: the pool gives first, then each partition its share. A sag reset or a trip temperature, with its rails good, writes the retention record, resets the device to Bare, removes the rails and holds them. A grant write acts on a device that has booted and is not Fenced; one that fails its pair check is rejected, one for no grant or beyond the cap is refused. A reading in range is kept, one that fails fails its sensor for good, logged; THRM_STATUS holds what the limits say of each domain, and a domain critical twice fences the device. A low feed, logged, takes the ports it lights to Seek; a restored one lets ports whose wait is over train. Each microsecond a partition runs ballast up to its idle strips, so that its use falls no faster than its allowance; the strips that awl kernels used are noted, and a kernel that waited for the limiter starts when the allowance of the free pool admits it. -/
def Obligations.PowerHeatAndLightLimits : Prop :=
  ∀ (s : State),
    let ps (x : State) (f : Fld) : Nat := x.fld .pwrState f
    let off (i : Nat) (x : State) : Prop := x.pkg.rails = false ∧ x.pkg.booted = false ∧ x.devState = 0 ∧ x.cores = [] ∧ x.parts = []
      ∧ (x.fld .devBoot DevBoot.causes).testBit i = true ∧ Output.pin 2 false ∈ x.out
      ∧ x.fld (.pwrLastgasp 0) PwrLastgasp0.valid = 1 ∧ x.fld (.pwrLastgasp 0) PwrLastgasp0.uptime = s.pkg.uptime.toNat % 2 ^ 63
      ∧ x.fld (.pwrLastgasp 1) PwrLastgasp1.stitch = s.count ∧ x.fld (.pwrLastgasp 2) PwrLastgasp2.cause = i
      ∧ Counted (.pwrLastgasp 3) PwrLastgasp3.trips 1 s x
    (∀ vin iin pin, Completes (.powerSample vin iin pin) s (fun x =>
      let hist := (pin :: s.pwr.pinHist).take 1000
      let above (l : List Nat) (lim : Nat) : Bool := decide (s.cap0 ≠ 0) && decide (lim * l.length < l.sum)
      x.fld .pwrNow PwrNow.vin = vin % 2 ^ 16 ∧ x.fld .pwrNow PwrNow.iin = iin % 2 ^ 16 ∧ x.fld .pwrNow PwrNow.pin = pin % 2 ^ 16
      ∧ x.pwr.pinHist = hist ∧ x.pwr.samples = s.pwr.samples + 1 ∧ x.pwr.pinSum = s.pwr.pinSum + pin
      ∧ x.pwr.overLimit = above hist (s.fld .pwrCfg PwrCfg.limitW) ∧ x.pwr.overPeak = above (hist.take 10) (s.fld .pwrCfg PwrCfg.peakW)
      ∧ ((x.pwr.overLimit = true ∧ s.pwr.overLimit = false) ∨ (x.pwr.overPeak = true ∧ s.pwr.overPeak = false) → x.Noted 0x4D07)
      ∧ (x.pwr.overLimit = true ∨ x.pwr.overPeak = true → ps x PwrState.down = 1)
      ∧ x.cores = s.cores ∧ x.parts = s.parts ∧ SameMemory s x))
    ∧ (ps s PwrState.sag = 1 → ∀ v, Completes (.sagWarn v) s (fun x => x = s))
    ∧ (ps s PwrState.sag ≠ 1 → ∀ v,
      let k := s.fld .pwrSagCtl PwrSagCtl.pct
      let new := s.cap0 * k / 100
      let cap := ps s PwrState.cap
      let pool := ps s PwrState.pool
      let cuts : Prop := s.fld .pwrSagCtl PwrSagCtl.cut = 1 ∧ s.cap0 ≠ 0 ∧ k < s.capPct
      let warned (x : State) : Prop := ps x PwrState.sag = 1 ∧ x.Noted 0x4D01 ∧ x.cores = s.cores
        ∧ x.parts = s.parts.map (fun y => (y.1, { y.2 with ballast := 0 }))
      (¬ cuts → Completes (.sagWarn v) s (fun x => warned x ∧ ps x PwrState.cap = cap ∧ ps x PwrState.pct = s.capPct ∧ ps x PwrState.pool = pool
        ∧ ∀ p, x.heldBy p = s.heldBy p))
      ∧ (cuts → new < cap → Completes (.sagWarn v) s (fun x => warned x ∧ ps x PwrState.cap = new ∧ ps x PwrState.pct = k
        ∧ ps x PwrState.pool = pool - (cap - new)
        ∧ ∀ p l, s.partNums.count p = 1 →
          (p, l) ∈ lossShares ((cap - new) - pool) (s.partNums.map (fun q => (q, s.heldBy q))) → x.heldBy p = s.heldBy p - l))
      ∧ (cuts → cap ≤ new → Completes (.sagWarn v) s (fun x => warned x ∧ ps x PwrState.cap = new % 2 ^ 16 ∧ ps x PwrState.pct = k
        ∧ ps x PwrState.pool = (pool + (new - cap)) % 2 ^ 16 ∧ ∀ p, x.heldBy p = s.heldBy p)))
    ∧ (ps s PwrState.sag = 1 → Completes .sagWarnEnd s (fun x => ps x PwrState.sag = 0 ∧ x.pwr = { s.pwr with quietNs := s.pkg.uptime.toNat }
        ∧ x = { s with regs := x.regs, pwr := x.pwr } ∧ ∀ r, r ≠ .pwrState → x.reg r = s.reg r))
    ∧ (ps s PwrState.sag ≠ 1 → Completes .sagWarnEnd s (fun x => x = s))
    ∧ (s.pkg.standby = false ∨ s.pkg.rails = false → ∀ v, Completes (.sagReset v) s (fun x => x = s))
    ∧ (s.pkg.standby = true → s.pkg.rails = true → ∀ v, Completes (.sagReset v) s (fun x => off 1 x ∧ x.pkg.sagHold = true))
    ∧ Completes .sagResetRelease s (fun x => x = { s with pkg := { s.pkg with sagHold := false } })
    ∧ Completes .tripHoldEnd s (fun x => x = { s with pkg := { s.pkg with tripHold := false } })
    ∧ (∀ p (v : BitVec 64), p < 32 →
      let i : Instr := .pwrGrantWrite p v
      let a := v.toNat % 2 ^ 16
      let ok : Prop := (mfind s.parts p).isSome = true
        ∧ ((s.partNums.filter (fun q => decide (q ≠ p))).map (fun q => s.fld (.pwrGrant q) PwrGrant.allot)).sum + a ≤ s.cap0
      let only (rs : List Reg) (x : State) : Prop := x = { s with regs := x.regs } ∧ ∀ r, r ∉ rs → x.reg r = s.reg r
      (s.pkg.booted = false ∨ s.devState = 3 → Completes i s (fun x => x = s))
      ∧ (s.pkg.booted = true → s.devState ≠ 3 →
      (gfOk v = false → Completes i s (fun x => x.reg (.pwrGrant p) = s.reg (.pwrGrant p) ∧ x.Noted 0x4B01 ∧ Counted .fabConsDev FabConsDev.gf 1 s x))
      ∧ (gfOk v = true → ¬ ok → Completes i s (fun x => only [.pwrState] x ∧ ps x PwrState.grantRefused = 1))
      ∧ (gfOk v = true → ok → Completes i s (fun x => only [.pwrState, .pwrGrant p] x ∧ ps x PwrState.grantRefused = 0
        ∧ x.fld (.pwrGrant p) PwrGrant.allot = a ∧ gfOk (x.reg (.pwrGrant p)) = true))))
    ∧ (∀ rd : List (Nat × SensorReading), rd.all (fun y => decide (y.1 < 172)) = true →
      let i : Instr := .sensorRead rd
      let s1 := rd.foldl (fun t y => t.readSensor y.1 y.2) s
      (s.pkg.rails = false → Completes i s (fun x => x = s))
      ∧ (s.pkg.rails = true → s1.tripped = none →
        (∀ n t, s.sensorFailed n = false → rd.filter (fun y => decide (y.1 = n)) = [(n, .value t)] → -320 ≤ t → t ≤ 1200 →
          Completes i s (fun x => x.tempOf n = t ∧ x.sensorFailed n = false ∧ (mget x.pwr.temps n []).head? = some t))
        ∧ (∀ n r, s.sensorFailed n = false → s.sensorGone n = false → rd.filter (fun y => decide (y.1 = n)) = [(n, r)] →
          (r = .failed ∨ ∃ t, r = .value t ∧ (t < -320 ∨ 1200 < t)) →
          Completes i s (fun x => x.sensorFailed n = true ∧ x.tempOf n = s.tempOf n ∧ x.Noted 0x4D0A))
        ∧ ∀ d, d < 23 → Completes i s (fun x => (x.fld .thrmStatus ThrmStatus.atLimit).testBit d = s1.atThrottle d
          ∧ (x.fld .thrmStatus ThrmStatus.rising).testBit d = s1.tooFast d ∧ (d ∈ x.pwr.critOnce ↔ s1.atCritical d = true)
          ∧ (s1.tooFast d = true → (s.fld .thrmStatus ThrmStatus.rising).testBit d = false → x.Noted 0x4D03)
          ∧ (s1.atThrottle d = true → (s.fld .thrmStatus ThrmStatus.atLimit).testBit d = false → x.Noted 0x4D04)
          ∧ (s1.atCritical d = true → d ∈ s.pwr.critOnce → x.Noted 0x3D05 ∧ x.devState = 3)))
      ∧ (s.pkg.rails = true → s.pkg.standby = true → ∀ n t, s1.tripped = some (n, t) → Completes i s (fun x => off 2 x ∧ x.pkg.tripHold = true)))
    ∧ (∀ j power, j < 20 →
      let feed (low : Nat) (x : State) : Prop := x.fld (.optFeed j) OptFeed.power = power % 2 ^ 16 ∧ x.fld (.optFeed j) OptFeed.low = low
      Completes (.optFeedLow j power) s (fun x => feed 1 x ∧ x.Noted 0x4905 ∧ SameMemory s x
        ∧ (∀ k ∈ feedPorts j, s.lit k = true ∨ s.portState k = 2 → x.portState k = 1)
        ∧ (∀ k ∈ feedPorts j, s.lit k = true → x.Noted 0x4906)
        ∧ ∀ k, k ∉ feedPorts j ∨ (s.lit k = false ∧ s.portState k ≠ 2) → x.portState k = s.portState k)
      ∧ Completes (.feedRestored j power) s (fun x => feed 0 x ∧ SameMemory s x
        ∧ ∀ k, let trains : Prop := k ∈ feedPorts j ∧ k < 64 ∧ s.portState k = 1 ∧ (s.opt k).seekWait = false ∧ s.loopHolds k = false
          (trains → x.portState k = 2 ∧ (x.opt k).trainStep = 1) ∧ (¬ trains → x.portState k = s.portState k)))
    ∧ (let s1 := { s with pwr := { s.pwr with
        awlHist := ((uniq (s.pwr.awlNow ++ s.awlStrips)).length :: s.pwr.awlHist).take 100, awlNow := s.awlStrips } }
      let waits (c : Nat) : Option Nat := ((mfind s.cores c).bind Core.awl).bind AwlRun.wait
      Completes .slewMicrosecond s (fun x => x.pwr.awlHist = s1.pwr.awlHist ∧ (∀ c, waits c = none → mfind x.cores c = mfind s.cores c)
        ∧ ((∀ c, waits c = none) → x.pwr = s1.pwr)
        ∧ ∀ c k r m, mfind s.cores c = some k → k.awl = some r → r.wait = some m → r.declared = false → (∀ d, d ≠ c → waits d = none) →
          mfind x.cores c = some { k with awl := some (if s1.awlMay (kernelStrips c m) then { r with kernel := some m, wait := none, first := none }
            else { r with kernel := none, wait := some m, first := none }) }))
    ∧ ∀ p q, s.partNums.count p = 1 → mfind s.parts p = some q →
      let b := if ps s PwrState.sag = 0 ∧ ¬ (s.devState = 3 ∧ s.pwr.critOnce ≠ []) then
        min (s.idleStrips p) (q.slewHist.foldl max 0 - s.fld (.optSlewPart p) OptSlewPart.allowance - s.mmaStrips p) else 0
      Completes .slewMicrosecond s (fun x => SameMemory s x
        ∧ mfind x.parts p = some { q with slewHist := ((s.mmaStrips p + b) :: q.slewHist).take 100, busyNow := s.busyStrips p, ballast := b, bucket := q.bucket - b * 36875 * 2000 }
        ∧ x.fld (.optSlewPart p) OptSlewPart.busy = (s.mmaStrips p + b) % 2 ^ 16)

/-- Supplies, resets, boot, self-tests, the reference, the die links and the package loopbacks (R309, R550, R551, R552, R553, R554, R555, R556, R557, R559, R561, R570). COMPLETES: STANDBY_POWER_GOOD, STANDBY_POWER_LOSS, RAIL_RAMP, PERST_N, SYS_RST_N, WARM_RESET, RAISE_FW_SEQ, BOOT_START, SELFTEST_REPORT, PRIMARY_TIMEOUT, BOOT_DONE, REFCLK_LOST, REFCLK_RESTORED, D2D_RETRY, D2D_LINK_LOST, DEV_LOOP_START, DEV_LOOP_DONE. Standby power-up gives a new boot identifier, a zero uptime, the cause bit 0 and a device in reset; a loss unpowers all and keeps flash and fuses. A falling PERST_N or SYS_RST_N and a warm reset leave the device Bare with its cause set; ring head, boot identifier, retention record, marked lanes and spare selections are kept. The rails ramp unless held off. Boot starts when nothing holds the device and STRAP_TEST is low: each firmware copy is checked, the passing one of higher sequence loaded, and with none the device is Fenced. Each die reports once; a failed one is logged; a failed primary gives way to C2, and without C2 the device is Fenced. Boot is done when the primary has passed and no fatal error has fenced the device: logged, causes cleared, HARN_BOOT loaded. RAISE_FW_SEQ raises the minimum, at most to 32, in Armed. A lost reference is counted and fences a running device; so does a lost die link. A loopback runs only in Framed, drained, one at a time. -/
def Obligations.ResetsAndBootTakeTheDeviceThroughItsStages : Prop :=
  ∀ (s : State),
    let p := s.pkg
    let bare (x : State) : Prop := x.pkg.booted = false ∧ x.pkg.bootDone = false ∧ x.devState = 0 ∧ x.cores = [] ∧ x.parts = [] ∧ x.lls = []
      ∧ x.harn = State.reset.harn ∧ x.pkg.spdm = [] ∧ x.pkg.eid = 0 ∧ x.flash = s.flash ∧ x.pkg.keySlots = p.keySlots ∧ x.pkg.fwKey = p.fwKey
    let reset (i : Nat) (x : State) : Prop := bare x ∧ (x.fld .devBoot DevBoot.causes).testBit i = true ∧ x.reg .errRingHead = s.reg .errRingHead
      ∧ x.reg .stchBootId = s.reg .stchBootId ∧ (∀ j, x.reg (.pwrLastgasp j) = s.reg (.pwrLastgasp j)) ∧ x.pkg.uptime = p.uptime
      ∧ x.pkg.standby = p.standby ∧ x.pkg.rails = p.rails ∧ x.hbm.marks = s.hbm.marks ∧ x.hbm.spares = s.hbm.spares ∧ x.hbm.caSpare = s.hbm.caSpare
    let boot (x : State) (f : Fld) : Nat := x.fld .devBoot f
    let die (x : State) (f : Fld) : Nat := x.fld .devDie f
    let onlyPkg (x : State) : Prop := x = { s with pkg := x.pkg }
    (∀ high,
      (p.perstHigh = true → high = false → p.standby = true → Completes (.perstN high) s (fun x => reset 3 x ∧ x.pkg.perstHigh = false))
      ∧ (¬ (p.perstHigh = true ∧ high = false ∧ p.standby = true) → Completes (.perstN high) s (fun x => x = { s with pkg := { p with perstHigh := high } }))
      ∧ (p.sysRstHigh = true → high = false → p.standby = true → Completes (.sysRstN high) s (fun x => reset 4 x ∧ x.pkg.sysRstHigh = false))
      ∧ (¬ (p.sysRstHigh = true ∧ high = false ∧ p.standby = true) → Completes (.sysRstN high) s (fun x => x = { s with pkg := { p with sysRstHigh := high } })))
    ∧ (p.booted = true → p.standby = true → Completes .warmReset s (reset 5))
    ∧ (p.booted = false ∨ p.standby = false → Completes .warmReset s (fun x => x = s))
    ∧ (p.standby = true → Completes .standbyPowerGood s (fun x => x = s))
    ∧ (p.standby = false → Completes .standbyPowerGood s (fun x => bare x ∧ x.pkg.standby = true ∧ x.pkg.powerUps = p.powerUps + 1
        ∧ x.reg .stchBootId = bootIdOf p.powerUps ∧ boot x DevBoot.causes = 1 ∧ x.pkg.uptime = 0 ∧ x.pkg.retired = [] ∧ x.reg .errRingHead = 0))
    ∧ Completes .standbyPowerLoss s (fun x => bare x ∧ x.pkg.standby = false ∧ x.pkg.rails = false ∧ (p.rails = true → .pin 2 false ∈ x.out)
        ∧ x.reg .harnFuse = s.reg .harnFuse)
    ∧ (let up : Prop := p.rails = false ∧ p.standby = true ∧ p.sagHold = false ∧ p.tripHold = false
      (up → Completes .railRamp s (fun x => x = { s with pkg := { p with rails := true }, out := s.out ++ [.pin 2 true] }))
      ∧ (¬ up → Completes .railRamp s (fun x => x = s)))
    ∧ (∀ straps : BitVec 4,
      let free : Prop := p.booted = false ∧ (p.standby = true ∧ p.rails = true ∧ p.perstHigh = true ∧ p.sysRstHigh = true ∧ p.sagHold = false
        ∧ p.tripHold = false ∧ p.refOk = true) ∧ straps.getLsbD 3 = false
      let i0 := fwImage s.flash.fw0
      let i1 := fwImage s.flash.fw1
      let ok0 := s.fwOk i0
      let ok1 := s.fwOk i1
      (¬ free → Completes (.bootStart straps) s (fun x => x = s))
      ∧ (free → Completes (.bootStart straps) s (fun x => x.pkg = { p with booted := true, bootNs := p.uptime.toNat }
        ∧ x.fld .devFw DevFw.ok0 = (if ok0 then 1 else 0) ∧ x.fld .devFw DevFw.ok1 = (if ok1 then 1 else 0)
        ∧ x.fld .devClk DevClk.pllLocked = 1 ∧ x.fld .devClk DevClk.dieLocked = 15 ∧ (x.reg .devStrap).toNat = straps.toNat % 8
        ∧ (ok0 = false ∨ ok1 = false → x.Noted 0x4E03)
        ∧ (ok0 = true ∨ ok1 = true → boot x DevBoot.stage = 2 ∧ x.devState = s.devState
          ∧ boot x DevBoot.fwCopy = if ok1 = true ∧ (ok0 = false ∨ fwSeq i0 < fwSeq i1) then 1 else 0)
        ∧ (ok0 = false → ok1 = false → boot x DevBoot.stage = 4 ∧ x.devState = 3 ∧ x.Noted 0x3E04))))
    ∧ (let testing : Prop := p.booted = true ∧ p.bootDone = false ∧ boot s DevBoot.stage = 2
      let prim := boot s DevBoot.primary
      let second (x : State) : Prop := x.Noted 0x4E02
        ∧ (boot s DevBoot.fallback = 0 → boot x DevBoot.primary = 2 ∧ boot x DevBoot.fallback = 1 ∧ boot x DevBoot.stage = 2 ∧ die x DevDie.ok = 0
          ∧ ∀ d, 1 ≤ d → (die x DevDie.tested).testBit d = false)
        ∧ (boot s DevBoot.fallback = 1 → boot x DevBoot.stage = 4 ∧ x.Noted 0x3E02 ∧ x.devState = 3)
      (∀ d ok, d < 4 →
        let i : Instr := .selftestReport d ok
        let heard : Prop := testing ∧ (die s DevDie.tested).testBit d = false ∧ ¬ (d = 0 ∧ boot s DevBoot.fallback = 1)
        (¬ heard → Completes i s (fun x => x = s))
        ∧ (heard → ok = true → Completes i s (fun x => x = { s with regs := x.regs } ∧ (∀ r, r ≠ .devDie → x.reg r = s.reg r)
          ∧ die x DevDie.tested = die s DevDie.tested + 2 ^ d ∧ die x DevDie.ok = (die s DevDie.ok + 2 ^ d) % 16))
        ∧ (heard → ok = false → prim ≠ d → Completes i s (fun x => x.Noted 0x4E02 ∧ die x DevDie.tested = die s DevDie.tested + 2 ^ d
          ∧ die x DevDie.ok = die s DevDie.ok ∧ boot x DevBoot.primary = prim ∧ boot x DevBoot.stage = 2))
        ∧ (heard → ok = false → prim = d → Completes i s second))
      ∧ (testing → (die s DevDie.tested).testBit prim = false → Completes .primaryTimeout s second)
      ∧ (¬ testing ∨ (die s DevDie.tested).testBit prim = true → Completes .primaryTimeout s (fun x => x = s))
      ∧ (let ready : Prop := testing ∧ s.devState ≠ 3 ∧ (die s DevDie.ok).testBit prim = true
        let c := s.flash.ctl
        let auto : Prop := s.flash.current.isSome = true ∧ c.autoload = true ∧ s.fld .devStrap DevStrap.noAutoload = 0
        (¬ ready → Completes .bootDone s (fun x => x = s))
        ∧ (ready → Completes .bootDone s (fun x => x.pkg = { p with bootDone := true } ∧ boot x DevBoot.stage = 3 ∧ boot x DevBoot.causes = 0
          ∧ x.Noted 0x4E01 ∧ x.reg .harnBoot = gfPair ((if c.autoload then 1 else 0) + (if c.preferred then 2 else 0))
          ∧ (s.flash.current = none → x.Noted 0x420B) ∧ (¬ auto → x.harn = s.harn)
          ∧ (auto → ∃ st, x.harn.op = some (.tree ((if c.preferred then 1 else 0) + 1) st true))))))
    ∧ (p.booted = true → s.devState = 2 → Completes .raiseFwSeq s (fun x => x = { s with regs := x.regs } ∧ (∀ r, r ≠ .devFw → x.reg r = s.reg r)
        ∧ x.fld .devFw DevFw.fwMin = max (s.fld .devFw DevFw.fwMin) (min 32 (s.bootedSeq.getD 0))))
    ∧ (p.booted = false ∨ s.devState ≠ 2 → Completes .raiseFwSeq s (fun x => x = s))
    ∧ Completes .refclkRestored s (fun x => x = { s with pkg := { p with refOk := true } })
    ∧ (p.refOk = false ∨ p.standby = false → Completes .refclkLost s (fun x => x = s))
    ∧ (p.refOk = true → p.standby = true → Completes .refclkLost s (fun x => x.pkg = { p with refOk := false } ∧ Counted .devClk DevClk.refGaps 1 s x
        ∧ (p.booted = true → x.fld .devClk DevClk.refLost = 1 ∧ x.Noted 0x3E03 ∧ x.devState = 3)
        ∧ (p.booted = false → x.devState = s.devState ∧ ∀ r, r ≠ .devClk → x.reg r = s.reg r)))
    ∧ (∀ l, l < 8 →
      (s.devState = 0 → Completes (.d2dRetry l) s (fun x => x = s) ∧ Completes (.d2dLinkLost l) s (fun x => x = s))
      ∧ (s.devState ≠ 0 → Completes (.d2dRetry l) s (fun x => onlyPkg x ∧ x.pkg.d2dRetries = l :: p.d2dRetries)
        ∧ Completes (.d2dLinkLost l) s (fun x => x.Noted 0x3E01 ∧ x.devState = 3)))
    ∧ (∀ v : BitVec 64,
      let i : Instr := .devLoopStart v
      let ok : Prop := s.devState = 1 ∧ s.drained = true ∧ 1 ≤ DevLoopCtl.kind.get v ∧ DevLoopCtl.kind.get v ≤ 4 ∧ p.loopBusy = false
      let fields (x : State) : Prop := (∀ f ∈ [DevLoopCtl.kind, DevLoopCtl.target, DevLoopCtl.channel], x.fld .devLoopCtl f = f.get v)
        ∧ ∀ r, r ≠ .devLoopCtl → r ≠ .devLoopRes → x.reg r = s.reg r
      (p.booted = false ∨ s.devState = 3 → Completes i s (fun x => x = s))
      ∧ (p.booted = true → s.devState ≠ 3 →
        (DevLoopCtl.start.get v = 0 → Completes i s (fun x => fields x ∧ x.reg .devLoopRes = s.reg .devLoopRes ∧ x.pkg = p))
        ∧ (DevLoopCtl.start.get v ≠ 0 → ok → Completes i s (fun x => fields x ∧ x.reg .devLoopRes = 0 ∧ x.pkg = { p with loopBusy := true }))
        ∧ (DevLoopCtl.start.get v ≠ 0 → ¬ ok → Completes i s (fun x => fields x ∧ x.fld .devLoopRes DevLoopRes.refused = 1 ∧ x.pkg = p))))
    ∧ ∀ n, (p.loopBusy = false → Completes (.devLoopDone n) s (fun x => x = s))
      ∧ (p.loopBusy = true → Completes (.devLoopDone n) s (fun x => x.fld .devLoopRes DevLoopRes.errors = min (2 ^ 32 - 1) n
        ∧ x.fld .devLoopRes DevLoopRes.done = 1 ∧ x.pkg = { p with loopBusy := false } ∧ ∀ r, r ≠ .devLoopRes → x.reg r = s.reg r))

/-- TAP instructions: identity, sampling, bypass, and the five that take effect only in Bare (R445, R551, R567, R568, R569). COMPLETES: TRST_N, IDCODE, SAMPLE_PRELOAD, BYPASS, EXTEST, EXTEST_PULSE, EXTEST_TRAIN, CLAMP, HIGHZ. TRST_N selects IDCODE and changes nothing else. IDCODE shifts out a word with version 1, part 0x5264 and bit 0 set; SAMPLE/PRELOAD the pins. Every code outside 1 to 7 is a BYPASS. EXTEST, EXTEST_PULSE, EXTEST_TRAIN, CLAMP and HIGHZ act in Bare: the instruction is in force, the PCIe link is down, a push that was announced is void, and a Harness command is refused from then on; in any other state they act as BYPASS. -/
def Obligations.TheTestPortHoldsABareDevice : Prop :=
  ∀ (s : State),
    let tap (i : Nat) (bits : List Nat) (x : State) : Prop := x = { s with pkg := { s.pkg with tapInstr := i }, out := s.out ++ bits.map Output.tap }
    Completes .trstN s (tap 1 [])
    ∧ (∃ w, (w / 2 ^ 28 = 1 ∧ w / 2 ^ 12 % 2 ^ 16 = 0x5264 ∧ w % 2 = 1) ∧ Completes .idcode s (tap 1 [w]))
    ∧ (∀ pins, Completes (.samplePreload pins) s (tap 2 [pins]))
    ∧ (∀ code : BitVec 8, code.toNat = 0 ∨ 8 ≤ code.toNat → Completes (.bypass code) s (tap 0xFF [0]))
    ∧ ∀ y ∈ [(Instr.extest, 3), (.extestPulse, 4), (.extestTrain, 5), (.clamp, 6), (.highz, 7)],
      (s.devState ≠ 0 → Completes y.1 s (tap 0xFF [0]))
      ∧ (s.devState = 0 → Completes y.1 s (fun x => x.pkg.tapInstr = y.2 ∧ x.host.linkUp = false ∧ x.tapHolds = true
        ∧ (s.host.linkUp = false → tap y.2 [] x)
        ∧ (s.host.linkUp = true → x.reg .harnPushAddr = 0 ∧ x.reg .harnPushLen = 0)
        ∧ (s.pkg.booted = true → ∃ z, exec .arm x = .next z ∧ z.fld .harnStatus HarnStatus.result = 3)))

/-- A step runs the command at the front of the queue, the rest waiting; on an empty queue the reference has an edge (R64, R555). For every state and command: a step with the command at the front of the queue is exec of that command on the state with the queue's rest waiting. With nothing waiting a step answers a next state in which UPTIME_NS has advanced by 10 when the standby domain is powered and the reference present, and is unchanged otherwise, and nothing waits still. The queue and the edge are the model's choice (assumption 2). -/
def Obligations.StepRunsTheFrontCommand : Prop :=
  (∀ (s : State) (i : Instr) (rest : List Instr), s.pending = i :: rest → step s = exec i { s with pending := rest })
    ∧ ∀ s : State, s.pending = [] → ∃ t, step s = .next t ∧ t.pending = []
      ∧ t.pkg.uptime = (if s.pkg.standby = true ∧ s.pkg.refOk = true then s.pkg.uptime + 10 else s.pkg.uptime)

/-- After reset: Bare, uptime 0, the cause of a power-up, every other register at its reset word, nothing waiting (R51, R308, R551, R553, R581). In the state after reset the queue is empty and in order, the register file is canonical, the device is Bare and not yet booted, UPTIME_NS is 0, DEV_BOOT.causes names a standby power-up, and STCH_BOOT_ID is not 0. Every register but those two reads its reset word. There are no cores, partitions, LLS contents, links or events, and HBM lists no byte. That power is good, the reset pins are high and which values stand where the spec gives none are the model's choice (assumptions 1 and 7). -/
def Obligations.TheStateAfterReset : Prop :=
  let s := State.reset
  s.QueueOk ∧ s.RegsOk ∧ s.pending = [] ∧ s.devState = 0 ∧ s.pkg.booted = false ∧ s.pkg.uptime = 0 ∧ s.fld .devBoot DevBoot.causes = 1
    ∧ s.reg .stchBootId ≠ 0 ∧ (∀ r, r ≠ .stchBootId → r ≠ .devBoot → s.reg r = r.resetWord)
    ∧ s.cores = [] ∧ s.parts = [] ∧ s.lls = [] ∧ s.hbm.mem = [] ∧ s.fab.links = [] ∧ s.err.intake = [] ∧ s.out = []

/-- Every step keeps the queue in order and takes exactly its front; n waiting commands are served in n steps, and none stops (R64, R551). For every state whose waiting commands all name units that the package has: a step answers a next state, no fault and no refusal, whose queue is the old one without its front and again names only such units; as many steps as commands wait answer a state with none waiting, and fewer leave exactly the rest. A command that names a unit the package lacks stops the step with noSuchUnit. The queue is the model's own. -/
def Obligations.EveryQueueOfCommandsIsServed : Prop :=
  (∀ s : State, s.QueueOk → ∃ t, step s = .next t ∧ t.QueueOk ∧ t.pending = s.pending.tail)
    ∧ (∀ (s : State) (n : Nat), s.QueueOk → n ≤ s.pending.length → ∃ t, s.steps n = some t ∧ t.QueueOk ∧ t.pending = s.pending.drop n)
    ∧ ∀ (s : State) (i : Instr) (rest : List Instr), s.pending = i :: rest → i.wf = false → step s = .fault .noSuchUnit
end

