-- ==== Sys2Proof/Laws/Tables.lean ====
section
/-! SUPPORT. Laws of the sparse tables, of the memories and of their canonical form: what a read gives after a write. -/
namespace Sys2Proof.Machine

/-! ## Sparse tables -/

@[simp] theorem mfind_mset_self {α : Type} (m : SMap α) (k : Nat) (v : α) : mfind (mset m k v) k = some v := by
  induction m with
  | nil => simp [mset, mfind]
  | cons x r ih =>
    obtain ⟨k', v'⟩ := x
    unfold mset
    split
    · simp [mfind]
    · split
      · simp [mfind]
      · rename_i h _
        simp [mfind, h, ih]

theorem mfind_mset_ne {α : Type} (m : SMap α) {k j : Nat} (v : α) (h : j ≠ k) : mfind (mset m k v) j = mfind m j := by
  induction m with
  | nil => simp [mset, mfind, Ne.symm h]
  | cons x r ih =>
    obtain ⟨k', v'⟩ := x
    unfold mset
    split
    · rename_i e; subst e; simp [mfind, Ne.symm h]
    · split
      · simp [mfind, Ne.symm h]
      · simp only [mfind]; rw [ih]

theorem mfind_mset {α : Type} (m : SMap α) (k j : Nat) (v : α) :
    mfind (mset m k v) j = if j = k then some v else mfind m j := by
  split
  · rename_i h; subst h; simp
  · exact mfind_mset_ne m v ‹_›

@[simp] theorem mget_mset_self {α : Type} (m : SMap α) (k : Nat) (v d : α) : mget (mset m k v) k d = v := by simp [mget]

theorem mget_mset_ne {α : Type} (m : SMap α) {k j : Nat} (v d : α) (h : j ≠ k) : mget (mset m k v) j d = mget m j d := by
  simp [mget, mfind_mset_ne m v h]

theorem mfind_filter {α : Type} (m : SMap α) (q : Nat → Bool) (j : Nat) :
    mfind (m.filter (fun p => q p.1)) j = if q j then mfind m j else none := by
  induction m with
  | nil => simp [mfind]
  | cons x r ih =>
    obtain ⟨k, v⟩ := x
    by_cases hq : q k
    · simp only [List.filter_cons, hq, if_true, mfind]
      split
      · rename_i e; subst e; simp [hq]
      · exact ih
    · simp only [List.filter_cons, hq, mfind]
      by_cases e : k = j
      · subst e; simp [hq, ih]
      · simp [e, ih]

@[simp] theorem mfind_mdel_self {α : Type} (m : SMap α) (k : Nat) : mfind (mdel m k) k = none := by
  have := mfind_filter m (fun a => a != k) k
  simpa [mdel] using this

theorem mfind_mdel_ne {α : Type} (m : SMap α) {k j : Nat} (h : j ≠ k) : mfind (mdel m k) j = mfind m j := by
  have := mfind_filter m (fun a => a != k) j
  simpa [mdel, h] using this

theorem mfind_mmod {α : Type} (m : SMap α) (k j : Nat) (f : α → α) :
    mfind (mmod m k f) j = if j = k then (mfind m k).map f else mfind m j := by
  unfold mmod
  cases h : mfind m k with
  | none =>
    simp only [Option.map_none]
    split
    · rename_i e; subst e; exact h
    · rfl
  | some v => simp [mfind_mset]

@[simp] theorem mfind_mmod_self {α : Type} (m : SMap α) (k : Nat) (f : α → α) : mfind (mmod m k f) k = (mfind m k).map f := by
  simp [mfind_mmod]

theorem mfind_mmod_ne {α : Type} (m : SMap α) {k j : Nat} (f : α → α) (h : j ≠ k) : mfind (mmod m k f) j = mfind m j := by
  simp [mfind_mmod, h]

/-- The indices of a table rise. -/
def Table.wf {α : Type} (m : SMap α) : Prop := (m.map Prod.fst).Pairwise (· < ·)

theorem Table.wf_cons {α : Type} {k : Nat} {v : α} {r : SMap α} :
    Table.wf ((k, v) :: r) ↔ (∀ p ∈ r, k < p.1) ∧ Table.wf r := by
  simp [Table.wf, List.pairwise_cons]

theorem mem_of_mfind {α : Type} {m : SMap α} {k : Nat} {v : α} (h : mfind m k = some v) : (k, v) ∈ m := by
  induction m with
  | nil => simp [mfind] at h
  | cons x r ih =>
    obtain ⟨k', v'⟩ := x
    unfold mfind at h
    split at h
    · rename_i e; cases h; subst e; simp
    · exact List.mem_cons_of_mem _ (ih h)

/-- The indices of a table stay when a listed entry changes. -/
theorem mset_keys {α : Type} {m : SMap α} {k : Nat} (v : α) (w : Table.wf m) (h : (mfind m k).isSome) :
    (mset m k v).map Prod.fst = m.map Prod.fst := by
  induction m with
  | nil => simp [mfind] at h
  | cons x r ih =>
    obtain ⟨k', v'⟩ := x
    rw [Table.wf_cons] at w
    unfold mset
    by_cases e : k' = k
    · simp [e]
    · simp only [mfind, e, if_false] at h
      obtain ⟨y, hy⟩ := Option.isSome_iff_exists.mp h
      have := w.1 _ (mem_of_mfind hy)
      have l : ¬ k < k' := by simp at this; omega
      simp [e, l, ih w.2 h]

theorem mmod_keys {α : Type} {m : SMap α} (k : Nat) (f : α → α) (w : Table.wf m) :
    (mmod m k f).map Prod.fst = m.map Prod.fst := by
  unfold mmod
  split
  · rfl
  · rename_i v h; exact mset_keys _ w (by simp [h])

theorem mset_mem_keys {α : Type} {m : SMap α} {k : Nat} {v : α} {p : Nat × α} (h : p ∈ mset m k v) :
    p.1 = k ∨ p ∈ m := by
  induction m with
  | nil => simp [mset] at h; exact .inl (by simp [h])
  | cons x r ih =>
    obtain ⟨k', v'⟩ := x
    unfold mset at h
    split at h
    · simp only [List.mem_cons] at h ⊢
      obtain rfl | h := h
      · exact .inl rfl
      · exact .inr (.inr h)
    · split at h
      · simp only [List.mem_cons] at h ⊢
        obtain rfl | h := h
        · exact .inl rfl
        · exact .inr h
      · simp only [List.mem_cons] at h ⊢
        obtain rfl | h := h
        · exact .inr (.inl rfl)
        · exact (ih h).imp id .inr

theorem Table.wf_mset {α : Type} {m : SMap α} (k : Nat) (v : α) (w : Table.wf m) : Table.wf (mset m k v) := by
  induction m with
  | nil => simp [mset, Table.wf]
  | cons x r ih =>
    obtain ⟨k', v'⟩ := x
    have w' := Table.wf_cons.mp w
    unfold mset
    split
    · rename_i e; subst e; exact Table.wf_cons.mpr w'
    · split
      · refine Table.wf_cons.mpr ⟨fun p hp => ?_, w⟩
        simp only [List.mem_cons] at hp
        obtain rfl | hp := hp
        · assumption
        · have := w'.1 p hp; omega
      · refine Table.wf_cons.mpr ⟨fun p hp => ?_, ih w'.2⟩
        obtain e | hp := mset_mem_keys hp
        · rw [e]; omega
        · exact w'.1 p hp

theorem Table.wf_filter {α : Type} {m : SMap α} (q : Nat × α → Bool) (w : Table.wf m) : Table.wf (m.filter q) := by
  unfold Table.wf at *
  exact w.sublist ((List.filter_sublist).map _)

theorem Table.wf_mdel {α : Type} {m : SMap α} (k : Nat) (w : Table.wf m) : Table.wf (mdel m k) := Table.wf_filter _ w

theorem Table.wf_mmod {α : Type} {m : SMap α} (k : Nat) (f : α → α) (w : Table.wf m) : Table.wf (mmod m k f) := by
  unfold mmod; split
  · exact w
  · exact Table.wf_mset _ _ w

theorem Table.wf_map {α β : Type} {m : SMap α} (f : Nat × α → β) (w : Table.wf m) : Table.wf (m.map (fun p => (p.1, f p))) := by
  simpa [Table.wf, List.map_map, Function.comp_def] using w

/-! ## Memories -/

theorem memGet_nil (a : Nat) : memGet [] a = 0 := rfl

theorem mfind_append {α : Type} (m r : SMap α) (k : Nat) : mfind (m ++ r) k = (mfind m k).or (mfind r k) := by
  induction m with
  | nil => simp [mfind]
  | cons x t ih =>
    obtain ⟨k', v⟩ := x
    simp only [List.cons_append, mfind]
    split <;> simp [ih]

theorem mfind_memCells (a : Nat) (bs : List Byte) (x : Nat) :
    (mfind (memCells a bs) x).getD 0 = if a ≤ x ∧ x < a + bs.length then bs.getD (x - a) 0 else 0 := by
  induction bs generalizing a with
  | nil => simp [memCells, mfind]
  | cons b r ih =>
    unfold memCells
    by_cases hx : x = a
    · subst hx
      split
      · rename_i hb
        rw [ih, if_neg (by omega)]; simp [hb]
      · simp [mfind]
    · have e : (if a ≤ x ∧ x < a + (b :: r).length then (b :: r).getD (x - a) 0 else 0) =
          (if a + 1 ≤ x ∧ x < a + 1 + r.length then r.getD (x - (a + 1)) 0 else 0) := by
        simp only [List.length_cons]
        by_cases h1 : a + 1 ≤ x ∧ x < a + 1 + r.length
        · have e1 : x - a = (x - (a + 1)) + 1 := by omega
          rw [if_pos (by omega), if_pos h1, e1, List.getD_cons_succ]
        · rw [if_neg (by omega), if_neg h1]
      rw [e]
      split
      · exact ih _
      · rw [mfind, if_neg (Ne.symm hx)]; exact ih _

/-- Outside its run of bytes, `memCells` lists nothing. -/
theorem mfind_memCells_none {a : Nat} {bs : List Byte} {x : Nat} (h : ¬ (a ≤ x ∧ x < a + bs.length)) :
    mfind (memCells a bs) x = none := by
  induction bs generalizing a with
  | nil => rfl
  | cons b r ih =>
    simp only [List.length_cons] at h
    unfold memCells
    split
    · exact ih (by omega)
    · rw [mfind, if_neg (by omega)]; exact ih (by omega)

/-- A read after a write: the byte written within the run, the old byte outside it. -/
theorem memGet_memWrite (m : Mem) (a : Nat) (bs : List Byte) (x : Nat) :
    memGet (memWrite m a bs) x = if a ≤ x ∧ x < a + bs.length then bs.getD (x - a) 0 else memGet m x := by
  have f1 := mfind_filter m (fun k => decide (k < a)) x
  have f2 := mfind_filter m (fun k => decide (a + bs.length ≤ k)) x
  have c := mfind_memCells a bs x
  unfold memGet mget memWrite
  rw [mfind_append, mfind_append, f1, f2]
  by_cases h : a ≤ x ∧ x < a + bs.length
  · rw [if_pos h] at c ⊢
    have h1 : ¬ x < a := by omega
    have h2 : ¬ a + bs.length ≤ x := by omega
    simpa [h1, h2] using c
  · rw [if_neg h]
    rw [mfind_memCells_none h]
    by_cases h1 : x < a
    · have h2 : ¬ a + bs.length ≤ x := by omega
      simp [h1, h2]
    · have h2 : a + bs.length ≤ x := by omega
      simp [h1, h2]

theorem memGet_memWrite_out {m : Mem} {a : Nat} {bs : List Byte} {x : Nat} (h : x < a ∨ a + bs.length ≤ x) :
    memGet (memWrite m a bs) x = memGet m x := by
  rw [memGet_memWrite, if_neg (by omega)]

/-- Zeroed bytes read 0, the others as before. -/
theorem memGet_memZero (m : Mem) (a n x : Nat) :
    memGet (memZero m a n) x = if a ≤ x ∧ x < a + n then 0 else memGet m x := by
  have f := mfind_filter m (fun k => decide (k < a ∨ a + n ≤ k)) x
  unfold memGet mget memZero
  rw [f]
  by_cases h : a ≤ x ∧ x < a + n
  · have : ¬ (x < a ∨ a + n ≤ x) := by omega
    simp [h, this]
  · have : x < a ∨ a + n ≤ x := by omega
    simp [h, this]

@[simp] theorem memRead_length (m : Mem) (a n : Nat) : (memRead m a n).length = n := by simp [memRead]

/-- A run of bytes read is the bytes one by one. -/
theorem memRead_eq (m : Mem) (a n : Nat) : memRead m a n = (List.range n).map (fun i => memGet m (a + i)) := by
  unfold memRead
  apply List.map_congr_left
  intro i hi
  have f := mfind_filter m (fun k => decide (a ≤ k ∧ k < a + n)) (a + i)
  simp only [List.mem_range] at hi
  have : a ≤ a + i ∧ a + i < a + n := by omega
  unfold memGet mget
  rw [f]; simp [hi]

/-- What was written is read back. -/
theorem memRead_memWrite (m : Mem) (a : Nat) (bs : List Byte) : memRead (memWrite m a bs) a bs.length = bs := by
  rw [memRead_eq]
  apply List.ext_getElem
  · simp
  · intro i h1 h2
    simp only [List.getElem_map, List.getElem_range, memGet_memWrite]
    rw [if_pos (by omega)]
    simp [h2]

/-- A write elsewhere leaves a run of bytes alone. -/
theorem memRead_memWrite_out {m : Mem} {a b n : Nat} {bs : List Byte} (h : b + n ≤ a ∨ a + bs.length ≤ b) :
    memRead (memWrite m a bs) b n = memRead m b n := by
  rw [memRead_eq, memRead_eq]
  apply List.map_congr_left
  intro i hi
  simp only [List.mem_range] at hi
  exact memGet_memWrite_out (by omega)

/-! ## The canonical form -/

/-- The canonical form as a property: addresses rise, and no cell holds zero. -/
theorem Memory.wf_iff (m : Mem) : Memory.wf m = true ↔ Table.wf m ∧ ∀ p ∈ m, p.2 ≠ 0 := by
  have key : ∀ (m : Mem) (lo : Option Nat), memWfFrom lo m = true ↔
      (∀ x, lo = some x → ∀ p ∈ m, x < p.1) ∧ Table.wf m ∧ ∀ p ∈ m, p.2 ≠ 0 := by
    intro m
    induction m with
    | nil => intro lo; simp [memWfFrom, Table.wf]
    | cons c r ih =>
      intro lo
      obtain ⟨a, b⟩ := c
      simp only [memWfFrom, Bool.and_eq_true, ih, Table.wf_cons, bne_iff_ne, ne_eq, List.mem_cons, forall_eq_or_imp]
      constructor
      · rintro ⟨⟨h1, h2⟩, h3, h4, h5⟩
        refine ⟨?_, ⟨h3 a rfl, h4⟩, h2, h5⟩
        intro x hx
        subst hx
        simp only [decide_eq_true_eq] at h1
        exact ⟨h1, fun p hp => Nat.lt_trans h1 (h3 a rfl p hp)⟩
      · rintro ⟨h1, ⟨h2, h3⟩, h4, h5⟩
        refine ⟨⟨?_, h4⟩, ?_, h3, h5⟩
        · cases lo with
          | none => rfl
          | some x => simpa using (h1 x rfl).1
        · intro x hx p hp; cases hx; exact h2 p hp
  rw [Memory.wf, key]
  simp

theorem memCells_mem {a : Nat} {bs : List Byte} {p : Nat × Byte} (h : p ∈ memCells a bs) :
    a ≤ p.1 ∧ p.1 < a + bs.length ∧ p.2 ≠ 0 := by
  induction bs generalizing a with
  | nil => simp [memCells] at h
  | cons b r ih =>
    unfold memCells at h
    split at h
    · have := ih h; exact ⟨by omega, by simp only [List.length_cons]; omega, this.2.2⟩
    · simp only [List.mem_cons] at h
      obtain rfl | h := h
      · simp_all
      · have := ih h; exact ⟨by omega, by simp only [List.length_cons]; omega, this.2.2⟩

theorem memCells_wf (a : Nat) (bs : List Byte) : Table.wf (memCells a bs) := by
  induction bs generalizing a with
  | nil => simp [memCells, Table.wf]
  | cons b r ih =>
    unfold memCells
    split
    · exact ih _
    · refine Table.wf_cons.mpr ⟨fun p hp => ?_, ih _⟩
      have := memCells_mem hp; omega

/-- A write keeps the canonical form. -/
theorem Memory.wf_memWrite {m : Mem} (a : Nat) (bs : List Byte) (w : Memory.wf m = true) :
    Memory.wf (memWrite m a bs) = true := by
  rw [Memory.wf_iff] at *
  obtain ⟨t, z⟩ := w
  constructor
  · have t1 : Table.wf (m.filter (fun p => decide (p.1 < a))) := Table.wf_filter _ t
    have t2 : Table.wf (m.filter (fun p => decide (a + bs.length ≤ p.1))) := Table.wf_filter _ t
    have t3 := memCells_wf a bs
    unfold Table.wf at *
    unfold memWrite
    simp only [List.map_append]
    refine List.pairwise_append.mpr ⟨List.pairwise_append.mpr ⟨t1, t3, ?_⟩, t2, ?_⟩
    · intro x hx y hy
      simp only [List.mem_map, List.mem_filter] at hx hy
      obtain ⟨p, ⟨_, hp⟩, rfl⟩ := hx
      obtain ⟨q, hq, rfl⟩ := hy
      have := memCells_mem hq
      simp at hp; omega
    · intro x hx y hy
      simp only [List.mem_append, List.mem_map, List.mem_filter] at hx hy
      obtain ⟨q, ⟨_, hq⟩, rfl⟩ := hy
      simp at hq
      obtain ⟨p, ⟨_, hp⟩, rfl⟩ | ⟨p, hp, rfl⟩ := hx
      · simp at hp; omega
      · have := memCells_mem hp; omega
  · intro p hp
    simp only [memWrite, List.mem_append, List.mem_filter] at hp
    obtain (⟨hp, _⟩ | hp) | ⟨hp, _⟩ := hp
    · exact z p hp
    · exact (memCells_mem hp).2.2
    · exact z p hp

/-- Zeroing keeps the canonical form. -/
theorem Memory.wf_memZero {m : Mem} (a n : Nat) (w : Memory.wf m = true) : Memory.wf (memZero m a n) = true := by
  rw [Memory.wf_iff] at *
  exact ⟨Table.wf_filter _ w.1, fun p hp => w.2 p (List.mem_filter.mp hp).1⟩

theorem Memory.wf_nil : Memory.wf [] = true := rfl

end Sys2Proof.Machine
end

