-- ==== Sys2Proof/Laws/Registers.lean ====
section
/-! SUPPORT. Laws of bit fields and of the register file: what a field or a register reads after a write. -/
namespace Sys2Proof.Machine

/-! ## Bit fields -/

/-- A field lies within its register. -/
def Fld.fits (f : Fld) : Bool := f.lo + f.width ≤ 64
/-- Two fields share no bit. -/
def Fld.apart (f g : Fld) : Bool := f.lo + f.width ≤ g.lo || g.lo + g.width ≤ f.lo

theorem bitsOf_eq (n lo w : Nat) : bitsOf n lo w = n % 2 ^ (lo + w) / 2 ^ lo := by
  rw [bitsOf, Nat.pow_add, Nat.mod_mul_right_div_self]

/-- A number with bits [lo + w - 1 : lo] replaced by `x`. -/
theorem splice_eq (n lo w x : Nat) :
    n - n / 2 ^ lo % 2 ^ w * 2 ^ lo + x * 2 ^ lo = n / 2 ^ (lo + w) * 2 ^ (lo + w) + x * 2 ^ lo + n % 2 ^ lo := by
  have h1 := Nat.div_add_mod n (2 ^ lo)
  have h2 := Nat.div_add_mod (n / 2 ^ lo) (2 ^ w)
  have h3 : n / 2 ^ (lo + w) = n / 2 ^ lo / 2 ^ w := by rw [Nat.pow_add, Nat.div_div_eq_div_mul]
  have e : n = n / 2 ^ (lo + w) * 2 ^ (lo + w) + n / 2 ^ lo % 2 ^ w * 2 ^ lo + n % 2 ^ lo := by
    conv => lhs; rw [← h1, ← h2]
    rw [h3, Nat.pow_add, Nat.mul_add, Nat.mul_comm (2 ^ lo) (n / 2 ^ lo % 2 ^ w), ← Nat.mul_assoc, Nat.mul_comm (2 ^ lo) (2 ^ w),
      Nat.mul_comm (2 ^ w * 2 ^ lo)]
  omega

theorem splice_lt {n lo w x : Nat} (hn : n < 2 ^ 64) (hx : x < 2 ^ w) (h : lo + w ≤ 64) :
    n / 2 ^ (lo + w) * 2 ^ (lo + w) + x * 2 ^ lo + n % 2 ^ lo < 2 ^ 64 := by
  have e : (2 : Nat) ^ 64 = 2 ^ (64 - (lo + w)) * 2 ^ (lo + w) := by rw [← Nat.pow_add]; congr 1; omega
  have h1 : n / 2 ^ (lo + w) < 2 ^ (64 - (lo + w)) := by
    rw [Nat.div_lt_iff_lt_mul (Nat.two_pow_pos _)]; omega
  have h2 : n % 2 ^ lo < 2 ^ lo := Nat.mod_lt _ (Nat.two_pow_pos _)
  have h3 : x * 2 ^ lo + n % 2 ^ lo < 2 ^ (lo + w) := by
    calc x * 2 ^ lo + n % 2 ^ lo < x * 2 ^ lo + 2 ^ lo := by omega
      _ = (x + 1) * 2 ^ lo := by rw [Nat.add_mul]; simp
      _ ≤ 2 ^ w * 2 ^ lo := Nat.mul_le_mul_right _ hx
      _ = 2 ^ (lo + w) := by rw [Nat.add_comm lo w, Nat.pow_add]
  have h4 : (n / 2 ^ (lo + w) + 1) * 2 ^ (lo + w) ≤ 2 ^ (64 - (lo + w)) * 2 ^ (lo + w) := Nat.mul_le_mul_right _ h1
  rw [Nat.add_mul] at h4
  omega

/-- The word after a field write, as a number. -/
theorem Fld.put_toNat {f : Fld} (v : BitVec 64) (x : Nat) (h : f.fits = true) :
    (f.put v x).toNat = v.toNat / 2 ^ (f.lo + f.width) * 2 ^ (f.lo + f.width) + x % 2 ^ f.width * 2 ^ f.lo + v.toNat % 2 ^ f.lo := by
  simp only [Fld.fits, decide_eq_true_eq] at h
  unfold Fld.put Fld.get wbits bitsOf
  rw [BitVec.toNat_ofNat, splice_eq]
  exact Nat.mod_eq_of_lt (splice_lt v.isLt (Nat.mod_lt _ (Nat.two_pow_pos _)) h)

/-- A field reads what was written to it. -/
theorem Fld.get_put {f : Fld} (v : BitVec 64) (x : Nat) (h : f.fits = true) : f.get (f.put v x) = x % 2 ^ f.width := by
  unfold Fld.get wbits
  rw [bitsOf_eq, Fld.put_toNat v x h]
  have hx : x % 2 ^ f.width < 2 ^ f.width := Nat.mod_lt _ (Nat.two_pow_pos _)
  have hl : v.toNat % 2 ^ f.lo < 2 ^ f.lo := Nat.mod_lt _ (Nat.two_pow_pos _)
  have h3 : x % 2 ^ f.width * 2 ^ f.lo + v.toNat % 2 ^ f.lo < 2 ^ (f.lo + f.width) := by
    calc _ < x % 2 ^ f.width * 2 ^ f.lo + 2 ^ f.lo := by omega
      _ = (x % 2 ^ f.width + 1) * 2 ^ f.lo := by rw [Nat.add_mul]; simp
      _ ≤ 2 ^ f.width * 2 ^ f.lo := Nat.mul_le_mul_right _ hx
      _ = 2 ^ (f.lo + f.width) := by rw [Nat.add_comm f.lo, Nat.pow_add]
  rw [Nat.add_assoc, Nat.mul_add_mod', Nat.mod_eq_of_lt h3, Nat.mul_comm, Nat.mul_add_div (Nat.two_pow_pos _), Nat.div_eq_of_lt hl,
    Nat.add_zero]

/-- A field that shares no bit with the one written reads as before. -/
theorem Fld.get_put_apart {f g : Fld} (v : BitVec 64) (x : Nat) (h : f.fits = true) (d : f.apart g = true) :
    g.get (f.put v x) = g.get v := by
  simp only [Fld.apart, Bool.or_eq_true, decide_eq_true_eq] at d
  unfold Fld.get wbits
  rw [Fld.put_toNat v x h]
  have hx : x % 2 ^ f.width < 2 ^ f.width := Nat.mod_lt _ (Nat.two_pow_pos _)
  have hl : v.toNat % 2 ^ f.lo < 2 ^ f.lo := Nat.mod_lt _ (Nat.two_pow_pos _)
  have h3 : x % 2 ^ f.width * 2 ^ f.lo + v.toNat % 2 ^ f.lo < 2 ^ (f.lo + f.width) := by
    calc _ < x % 2 ^ f.width * 2 ^ f.lo + 2 ^ f.lo := by omega
      _ = (x % 2 ^ f.width + 1) * 2 ^ f.lo := by rw [Nat.add_mul]; simp
      _ ≤ 2 ^ f.width * 2 ^ f.lo := Nat.mul_le_mul_right _ hx
      _ = 2 ^ (f.lo + f.width) := by rw [Nat.add_comm f.lo, Nat.pow_add]
  obtain d | d := d
  · unfold bitsOf
    have e : ∀ n : Nat, n / 2 ^ g.lo = n / 2 ^ (f.lo + f.width) / 2 ^ (g.lo - (f.lo + f.width)) := by
      intro n
      rw [Nat.div_div_eq_div_mul, ← Nat.pow_add]; congr 2; omega
    rw [e, e v.toNat, Nat.add_assoc, Nat.mul_comm, Nat.mul_add_div (Nat.two_pow_pos _), Nat.div_eq_of_lt h3, Nat.add_zero]
  · rw [bitsOf_eq, bitsOf_eq]
    have m : ∀ n : Nat, n % 2 ^ (g.lo + g.width) = n % 2 ^ f.lo % 2 ^ (g.lo + g.width) := by
      intro n
      rw [Nat.mod_mod_of_dvd]
      exact Nat.pow_dvd_pow 2 d
    rw [m, m v.toNat]
    congr 2
    rw [Nat.pow_add, ← Nat.mul_assoc, Nat.mul_right_comm, ← Nat.add_mul, Nat.mul_add_mod', Nat.mod_mod]

theorem Fld.get_lt (f : Fld) (v : BitVec 64) : f.get v < 2 ^ f.width := Nat.mod_lt _ (Nat.two_pow_pos _)

/-! ## The register file -/

theorem regGet_filter (f : RegFile) (q : Reg → Bool) (r : Reg) :
    regGet (f.filter (fun p => q p.1)) r = if q r then regGet f r else r.resetWord := by
  induction f with
  | nil => simp [regGet]
  | cons x t ih =>
    obtain ⟨r', v⟩ := x
    by_cases hq : q r'
    · simp only [List.filter_cons, hq, if_true, regGet]
      split
      · rename_i e; subst e; simp [hq]
      · exact ih
    · simp only [List.filter_cons, hq, regGet]
      by_cases e : r' = r
      · subst e; simp [hq, ih]
      · simp [e, ih]

/-- A register reads what was stored in it, every other register as before. -/
theorem regGet_regSet (f : RegFile) (r r' : Reg) (v : BitVec 64) : regGet (regSet f r v) r' = if r' = r then v else regGet f r' := by
  have h := regGet_filter f (fun a => decide (a ≠ r)) r'
  unfold regSet
  by_cases e : r' = r
  · subst e
    split
    · rename_i hv; rw [h]; simp [hv]
    · simp [regGet]
  · split
    · rw [h]; simp [e]
    · rw [regGet, if_neg (Ne.symm e), h]; simp [e]

@[simp] theorem State.reg_setReg (s : State) (r r' : Reg) (v : BitVec 64) :
    (s.setReg r v).reg r' = if r' = r then v else s.reg r' := regGet_regSet _ _ _ _

theorem State.fld_setReg (s : State) (r r' : Reg) (v : BitVec 64) (f : Fld) :
    (s.setReg r v).fld r' f = if r' = r then f.get v else s.fld r' f := by
  unfold State.fld; rw [State.reg_setReg]; split <;> rfl

theorem State.reg_setFld (s : State) (r r' : Reg) (f : Fld) (x : Nat) :
    (s.setFld r f x).reg r' = if r' = r then f.put (s.reg r) x else s.reg r' := State.reg_setReg _ _ _ _

theorem State.reg_setFld_ne (s : State) {r r' : Reg} (f : Fld) (x : Nat) (h : r' ≠ r) : (s.setFld r f x).reg r' = s.reg r' := by
  rw [State.reg_setFld, if_neg h]

/-- A field reads what was written to it. -/
theorem State.fld_setFld_self (s : State) (r : Reg) {f : Fld} (x : Nat) (h : f.fits = true) :
    (s.setFld r f x).fld r f = x % 2 ^ f.width := by
  unfold State.fld; rw [State.reg_setFld, if_pos rfl, Fld.get_put _ _ h]

/-- A field of another register reads as before. -/
theorem State.fld_setFld_reg (s : State) {r r' : Reg} (f g : Fld) (x : Nat) (h : r' ≠ r) :
    (s.setFld r f x).fld r' g = s.fld r' g := by
  unfold State.fld; rw [State.reg_setFld, if_neg h]

/-- A field that shares no bit with the one written reads as before. -/
theorem State.fld_setFld_apart (s : State) (r r' : Reg) {f g : Fld} (x : Nat) (h : f.fits = true) (d : f.apart g = true) :
    (s.setFld r f x).fld r' g = s.fld r' g := by
  unfold State.fld; rw [State.reg_setFld]
  split
  · rename_i e; subst e; exact Fld.get_put_apart _ _ h d
  · rfl

theorem State.reg_resetRegs (s : State) (q : Reg → Bool) (r : Reg) :
    (s.resetRegs q).reg r = if q r then r.resetWord else s.reg r := by
  have h := regGet_filter s.regs (fun a => !q a) r
  unfold State.reg State.resetRegs
  rw [h]
  cases q r <;> rfl

theorem State.fld_lt (s : State) (r : Reg) (f : Fld) : s.fld r f < 2 ^ f.width := Fld.get_lt _ _

/-! ## The canonical form of the register file -/

/-- No register is listed twice, and none at its reset word. -/
def RegFile.wf (f : RegFile) : Prop := (f.map Prod.fst).Nodup ∧ ∀ p ∈ f, p.2 ≠ p.1.resetWord

theorem RegFile.wf_nil : RegFile.wf [] := ⟨List.nodup_nil, fun _ hp => nomatch hp⟩

theorem RegFile.wf_filter {f : RegFile} (q : Reg × BitVec 64 → Bool) (w : RegFile.wf f) : RegFile.wf (f.filter q) :=
  ⟨w.1.sublist ((List.filter_sublist).map _), fun p hp => w.2 p (List.mem_filter.mp hp).1⟩

/-- Storing a register keeps the canonical form. -/
theorem RegFile.wf_regSet {f : RegFile} (r : Reg) (v : BitVec 64) (w : RegFile.wf f) : RegFile.wf (regSet f r v) := by
  unfold regSet
  split
  · exact RegFile.wf_filter _ w
  · rename_i h
    refine ⟨?_, ?_⟩
    · simp only [List.map_cons, List.nodup_cons]
      refine ⟨?_, (RegFile.wf_filter _ w).1⟩
      simp [List.mem_map, List.mem_filter]
    · intro p hp
      simp only [List.mem_cons] at hp
      obtain rfl | hp := hp
      · exact h
      · exact (RegFile.wf_filter _ w).2 p hp

end Sys2Proof.Machine
end

