-- ==== Sys2Proof/Laws/State.lean ====
section
/-! SUPPORT. What each update of the state leaves alone and sets: one lemma per field of State per named update. -/
namespace Sys2Proof.Machine

/-! ## setReg -/

@[simp] theorem State.setReg_regs (s : State) (r : Reg) (v : BitVec 64) : (s.setReg r v).regs = regSet s.regs r v := (rfl)
@[simp] theorem State.setReg_live (s : State) (r : Reg) (v : BitVec 64) : (s.setReg r v).live = s.live := (rfl)
@[simp] theorem State.setReg_pkg (s : State) (r : Reg) (v : BitVec 64) : (s.setReg r v).pkg = s.pkg := (rfl)
@[simp] theorem State.setReg_host (s : State) (r : Reg) (v : BitVec 64) : (s.setReg r v).host = s.host := (rfl)
@[simp] theorem State.setReg_harn (s : State) (r : Reg) (v : BitVec 64) : (s.setReg r v).harn = s.harn := (rfl)
@[simp] theorem State.setReg_flash (s : State) (r : Reg) (v : BitVec 64) : (s.setReg r v).flash = s.flash := (rfl)
@[simp] theorem State.setReg_cores (s : State) (r : Reg) (v : BitVec 64) : (s.setReg r v).cores = s.cores := (rfl)
@[simp] theorem State.setReg_parts (s : State) (r : Reg) (v : BitVec 64) : (s.setReg r v).parts = s.parts := (rfl)
@[simp] theorem State.setReg_gtacks (s : State) (r : Reg) (v : BitVec 64) : (s.setReg r v).gtacks = s.gtacks := (rfl)
@[simp] theorem State.setReg_cinches (s : State) (r : Reg) (v : BitVec 64) : (s.setReg r v).cinches = s.cinches := (rfl)
@[simp] theorem State.setReg_lls (s : State) (r : Reg) (v : BitVec 64) : (s.setReg r v).lls = s.lls := (rfl)
@[simp] theorem State.setReg_hbm (s : State) (r : Reg) (v : BitVec 64) : (s.setReg r v).hbm = s.hbm := (rfl)
@[simp] theorem State.setReg_fab (s : State) (r : Reg) (v : BitVec 64) : (s.setReg r v).fab = s.fab := (rfl)
@[simp] theorem State.setReg_eth (s : State) (r : Reg) (v : BitVec 64) : (s.setReg r v).eth = s.eth := (rfl)
@[simp] theorem State.setReg_stitch (s : State) (r : Reg) (v : BitVec 64) : (s.setReg r v).stitch = s.stitch := (rfl)
@[simp] theorem State.setReg_pwr (s : State) (r : Reg) (v : BitVec 64) : (s.setReg r v).pwr = s.pwr := (rfl)
@[simp] theorem State.setReg_err (s : State) (r : Reg) (v : BitVec 64) : (s.setReg r v).err = s.err := (rfl)
@[simp] theorem State.setReg_out (s : State) (r : Reg) (v : BitVec 64) : (s.setReg r v).out = s.out := (rfl)
@[simp] theorem State.setReg_freeCtr (s : State) (r : Reg) (v : BitVec 64) : (s.setReg r v).freeCtr = s.freeCtr := (rfl)
@[simp] theorem State.setReg_pending (s : State) (r : Reg) (v : BitVec 64) : (s.setReg r v).pending = s.pending := (rfl)

/-! ## setFld -/

@[simp] theorem State.setFld_live (s : State) (r : Reg) (f : Fld) (x : Nat) : (s.setFld r f x).live = s.live := (rfl)
@[simp] theorem State.setFld_pkg (s : State) (r : Reg) (f : Fld) (x : Nat) : (s.setFld r f x).pkg = s.pkg := (rfl)
@[simp] theorem State.setFld_host (s : State) (r : Reg) (f : Fld) (x : Nat) : (s.setFld r f x).host = s.host := (rfl)
@[simp] theorem State.setFld_harn (s : State) (r : Reg) (f : Fld) (x : Nat) : (s.setFld r f x).harn = s.harn := (rfl)
@[simp] theorem State.setFld_flash (s : State) (r : Reg) (f : Fld) (x : Nat) : (s.setFld r f x).flash = s.flash := (rfl)
@[simp] theorem State.setFld_cores (s : State) (r : Reg) (f : Fld) (x : Nat) : (s.setFld r f x).cores = s.cores := (rfl)
@[simp] theorem State.setFld_parts (s : State) (r : Reg) (f : Fld) (x : Nat) : (s.setFld r f x).parts = s.parts := (rfl)
@[simp] theorem State.setFld_gtacks (s : State) (r : Reg) (f : Fld) (x : Nat) : (s.setFld r f x).gtacks = s.gtacks := (rfl)
@[simp] theorem State.setFld_cinches (s : State) (r : Reg) (f : Fld) (x : Nat) : (s.setFld r f x).cinches = s.cinches := (rfl)
@[simp] theorem State.setFld_lls (s : State) (r : Reg) (f : Fld) (x : Nat) : (s.setFld r f x).lls = s.lls := (rfl)
@[simp] theorem State.setFld_hbm (s : State) (r : Reg) (f : Fld) (x : Nat) : (s.setFld r f x).hbm = s.hbm := (rfl)
@[simp] theorem State.setFld_fab (s : State) (r : Reg) (f : Fld) (x : Nat) : (s.setFld r f x).fab = s.fab := (rfl)
@[simp] theorem State.setFld_eth (s : State) (r : Reg) (f : Fld) (x : Nat) : (s.setFld r f x).eth = s.eth := (rfl)
@[simp] theorem State.setFld_stitch (s : State) (r : Reg) (f : Fld) (x : Nat) : (s.setFld r f x).stitch = s.stitch := (rfl)
@[simp] theorem State.setFld_pwr (s : State) (r : Reg) (f : Fld) (x : Nat) : (s.setFld r f x).pwr = s.pwr := (rfl)
@[simp] theorem State.setFld_err (s : State) (r : Reg) (f : Fld) (x : Nat) : (s.setFld r f x).err = s.err := (rfl)
@[simp] theorem State.setFld_out (s : State) (r : Reg) (f : Fld) (x : Nat) : (s.setFld r f x).out = s.out := (rfl)
@[simp] theorem State.setFld_freeCtr (s : State) (r : Reg) (f : Fld) (x : Nat) : (s.setFld r f x).freeCtr = s.freeCtr := (rfl)
@[simp] theorem State.setFld_pending (s : State) (r : Reg) (f : Fld) (x : Nat) : (s.setFld r f x).pending = s.pending := (rfl)

/-! ## satFld -/

@[simp] theorem State.satFld_live (s : State) (r : Reg) (f : Fld) (n : Nat) : (s.satFld r f n).live = s.live := (rfl)
@[simp] theorem State.satFld_pkg (s : State) (r : Reg) (f : Fld) (n : Nat) : (s.satFld r f n).pkg = s.pkg := (rfl)
@[simp] theorem State.satFld_host (s : State) (r : Reg) (f : Fld) (n : Nat) : (s.satFld r f n).host = s.host := (rfl)
@[simp] theorem State.satFld_harn (s : State) (r : Reg) (f : Fld) (n : Nat) : (s.satFld r f n).harn = s.harn := (rfl)
@[simp] theorem State.satFld_flash (s : State) (r : Reg) (f : Fld) (n : Nat) : (s.satFld r f n).flash = s.flash := (rfl)
@[simp] theorem State.satFld_cores (s : State) (r : Reg) (f : Fld) (n : Nat) : (s.satFld r f n).cores = s.cores := (rfl)
@[simp] theorem State.satFld_parts (s : State) (r : Reg) (f : Fld) (n : Nat) : (s.satFld r f n).parts = s.parts := (rfl)
@[simp] theorem State.satFld_gtacks (s : State) (r : Reg) (f : Fld) (n : Nat) : (s.satFld r f n).gtacks = s.gtacks := (rfl)
@[simp] theorem State.satFld_cinches (s : State) (r : Reg) (f : Fld) (n : Nat) : (s.satFld r f n).cinches = s.cinches := (rfl)
@[simp] theorem State.satFld_lls (s : State) (r : Reg) (f : Fld) (n : Nat) : (s.satFld r f n).lls = s.lls := (rfl)
@[simp] theorem State.satFld_hbm (s : State) (r : Reg) (f : Fld) (n : Nat) : (s.satFld r f n).hbm = s.hbm := (rfl)
@[simp] theorem State.satFld_fab (s : State) (r : Reg) (f : Fld) (n : Nat) : (s.satFld r f n).fab = s.fab := (rfl)
@[simp] theorem State.satFld_eth (s : State) (r : Reg) (f : Fld) (n : Nat) : (s.satFld r f n).eth = s.eth := (rfl)
@[simp] theorem State.satFld_stitch (s : State) (r : Reg) (f : Fld) (n : Nat) : (s.satFld r f n).stitch = s.stitch := (rfl)
@[simp] theorem State.satFld_pwr (s : State) (r : Reg) (f : Fld) (n : Nat) : (s.satFld r f n).pwr = s.pwr := (rfl)
@[simp] theorem State.satFld_err (s : State) (r : Reg) (f : Fld) (n : Nat) : (s.satFld r f n).err = s.err := (rfl)
@[simp] theorem State.satFld_out (s : State) (r : Reg) (f : Fld) (n : Nat) : (s.satFld r f n).out = s.out := (rfl)
@[simp] theorem State.satFld_freeCtr (s : State) (r : Reg) (f : Fld) (n : Nat) : (s.satFld r f n).freeCtr = s.freeCtr := (rfl)
@[simp] theorem State.satFld_pending (s : State) (r : Reg) (f : Fld) (n : Nat) : (s.satFld r f n).pending = s.pending := (rfl)

/-! ## wrapFld -/

@[simp] theorem State.wrapFld_live (s : State) (r : Reg) (f : Fld) (n : Nat) : (s.wrapFld r f n).live = s.live := (rfl)
@[simp] theorem State.wrapFld_pkg (s : State) (r : Reg) (f : Fld) (n : Nat) : (s.wrapFld r f n).pkg = s.pkg := (rfl)
@[simp] theorem State.wrapFld_host (s : State) (r : Reg) (f : Fld) (n : Nat) : (s.wrapFld r f n).host = s.host := (rfl)
@[simp] theorem State.wrapFld_harn (s : State) (r : Reg) (f : Fld) (n : Nat) : (s.wrapFld r f n).harn = s.harn := (rfl)
@[simp] theorem State.wrapFld_flash (s : State) (r : Reg) (f : Fld) (n : Nat) : (s.wrapFld r f n).flash = s.flash := (rfl)
@[simp] theorem State.wrapFld_cores (s : State) (r : Reg) (f : Fld) (n : Nat) : (s.wrapFld r f n).cores = s.cores := (rfl)
@[simp] theorem State.wrapFld_parts (s : State) (r : Reg) (f : Fld) (n : Nat) : (s.wrapFld r f n).parts = s.parts := (rfl)
@[simp] theorem State.wrapFld_gtacks (s : State) (r : Reg) (f : Fld) (n : Nat) : (s.wrapFld r f n).gtacks = s.gtacks := (rfl)
@[simp] theorem State.wrapFld_cinches (s : State) (r : Reg) (f : Fld) (n : Nat) : (s.wrapFld r f n).cinches = s.cinches := (rfl)
@[simp] theorem State.wrapFld_lls (s : State) (r : Reg) (f : Fld) (n : Nat) : (s.wrapFld r f n).lls = s.lls := (rfl)
@[simp] theorem State.wrapFld_hbm (s : State) (r : Reg) (f : Fld) (n : Nat) : (s.wrapFld r f n).hbm = s.hbm := (rfl)
@[simp] theorem State.wrapFld_fab (s : State) (r : Reg) (f : Fld) (n : Nat) : (s.wrapFld r f n).fab = s.fab := (rfl)
@[simp] theorem State.wrapFld_eth (s : State) (r : Reg) (f : Fld) (n : Nat) : (s.wrapFld r f n).eth = s.eth := (rfl)
@[simp] theorem State.wrapFld_stitch (s : State) (r : Reg) (f : Fld) (n : Nat) : (s.wrapFld r f n).stitch = s.stitch := (rfl)
@[simp] theorem State.wrapFld_pwr (s : State) (r : Reg) (f : Fld) (n : Nat) : (s.wrapFld r f n).pwr = s.pwr := (rfl)
@[simp] theorem State.wrapFld_err (s : State) (r : Reg) (f : Fld) (n : Nat) : (s.wrapFld r f n).err = s.err := (rfl)
@[simp] theorem State.wrapFld_out (s : State) (r : Reg) (f : Fld) (n : Nat) : (s.wrapFld r f n).out = s.out := (rfl)
@[simp] theorem State.wrapFld_freeCtr (s : State) (r : Reg) (f : Fld) (n : Nat) : (s.wrapFld r f n).freeCtr = s.freeCtr := (rfl)
@[simp] theorem State.wrapFld_pending (s : State) (r : Reg) (f : Fld) (n : Nat) : (s.wrapFld r f n).pending = s.pending := (rfl)

/-! ## liveAdd -/

@[simp] theorem State.liveAdd_regs (s : State) (r : Reg) (f : Fld) (n : Nat) : (s.liveAdd r f n).regs = s.regs := (rfl)
@[simp] theorem State.liveAdd_pkg (s : State) (r : Reg) (f : Fld) (n : Nat) : (s.liveAdd r f n).pkg = s.pkg := (rfl)
@[simp] theorem State.liveAdd_host (s : State) (r : Reg) (f : Fld) (n : Nat) : (s.liveAdd r f n).host = s.host := (rfl)
@[simp] theorem State.liveAdd_harn (s : State) (r : Reg) (f : Fld) (n : Nat) : (s.liveAdd r f n).harn = s.harn := (rfl)
@[simp] theorem State.liveAdd_flash (s : State) (r : Reg) (f : Fld) (n : Nat) : (s.liveAdd r f n).flash = s.flash := (rfl)
@[simp] theorem State.liveAdd_cores (s : State) (r : Reg) (f : Fld) (n : Nat) : (s.liveAdd r f n).cores = s.cores := (rfl)
@[simp] theorem State.liveAdd_parts (s : State) (r : Reg) (f : Fld) (n : Nat) : (s.liveAdd r f n).parts = s.parts := (rfl)
@[simp] theorem State.liveAdd_gtacks (s : State) (r : Reg) (f : Fld) (n : Nat) : (s.liveAdd r f n).gtacks = s.gtacks := (rfl)
@[simp] theorem State.liveAdd_cinches (s : State) (r : Reg) (f : Fld) (n : Nat) : (s.liveAdd r f n).cinches = s.cinches := (rfl)
@[simp] theorem State.liveAdd_lls (s : State) (r : Reg) (f : Fld) (n : Nat) : (s.liveAdd r f n).lls = s.lls := (rfl)
@[simp] theorem State.liveAdd_hbm (s : State) (r : Reg) (f : Fld) (n : Nat) : (s.liveAdd r f n).hbm = s.hbm := (rfl)
@[simp] theorem State.liveAdd_fab (s : State) (r : Reg) (f : Fld) (n : Nat) : (s.liveAdd r f n).fab = s.fab := (rfl)
@[simp] theorem State.liveAdd_eth (s : State) (r : Reg) (f : Fld) (n : Nat) : (s.liveAdd r f n).eth = s.eth := (rfl)
@[simp] theorem State.liveAdd_stitch (s : State) (r : Reg) (f : Fld) (n : Nat) : (s.liveAdd r f n).stitch = s.stitch := (rfl)
@[simp] theorem State.liveAdd_pwr (s : State) (r : Reg) (f : Fld) (n : Nat) : (s.liveAdd r f n).pwr = s.pwr := (rfl)
@[simp] theorem State.liveAdd_err (s : State) (r : Reg) (f : Fld) (n : Nat) : (s.liveAdd r f n).err = s.err := (rfl)
@[simp] theorem State.liveAdd_out (s : State) (r : Reg) (f : Fld) (n : Nat) : (s.liveAdd r f n).out = s.out := (rfl)
@[simp] theorem State.liveAdd_freeCtr (s : State) (r : Reg) (f : Fld) (n : Nat) : (s.liveAdd r f n).freeCtr = s.freeCtr := (rfl)
@[simp] theorem State.liveAdd_pending (s : State) (r : Reg) (f : Fld) (n : Nat) : (s.liveAdd r f n).pending = s.pending := (rfl)
@[simp] theorem State.liveAdd_reg (s : State) (r : Reg) (f : Fld) (n : Nat) (r' : Reg) : (s.liveAdd r f n).reg r' = s.reg r' := (rfl)
@[simp] theorem State.liveAdd_fld (s : State) (r : Reg) (f : Fld) (n : Nat) (r' : Reg) (f' : Fld) : (s.liveAdd r f n).fld r' f' = s.fld r' f' := (rfl)

/-! ## resetRegs -/

@[simp] theorem State.resetRegs_regs (s : State) (q : Reg → Bool) : (s.resetRegs q).regs = s.regs.filter (fun p => !q p.1) := (rfl)
@[simp] theorem State.resetRegs_live (s : State) (q : Reg → Bool) : (s.resetRegs q).live = s.live := (rfl)
@[simp] theorem State.resetRegs_pkg (s : State) (q : Reg → Bool) : (s.resetRegs q).pkg = s.pkg := (rfl)
@[simp] theorem State.resetRegs_host (s : State) (q : Reg → Bool) : (s.resetRegs q).host = s.host := (rfl)
@[simp] theorem State.resetRegs_harn (s : State) (q : Reg → Bool) : (s.resetRegs q).harn = s.harn := (rfl)
@[simp] theorem State.resetRegs_flash (s : State) (q : Reg → Bool) : (s.resetRegs q).flash = s.flash := (rfl)
@[simp] theorem State.resetRegs_cores (s : State) (q : Reg → Bool) : (s.resetRegs q).cores = s.cores := (rfl)
@[simp] theorem State.resetRegs_parts (s : State) (q : Reg → Bool) : (s.resetRegs q).parts = s.parts := (rfl)
@[simp] theorem State.resetRegs_gtacks (s : State) (q : Reg → Bool) : (s.resetRegs q).gtacks = s.gtacks := (rfl)
@[simp] theorem State.resetRegs_cinches (s : State) (q : Reg → Bool) : (s.resetRegs q).cinches = s.cinches := (rfl)
@[simp] theorem State.resetRegs_lls (s : State) (q : Reg → Bool) : (s.resetRegs q).lls = s.lls := (rfl)
@[simp] theorem State.resetRegs_hbm (s : State) (q : Reg → Bool) : (s.resetRegs q).hbm = s.hbm := (rfl)
@[simp] theorem State.resetRegs_fab (s : State) (q : Reg → Bool) : (s.resetRegs q).fab = s.fab := (rfl)
@[simp] theorem State.resetRegs_eth (s : State) (q : Reg → Bool) : (s.resetRegs q).eth = s.eth := (rfl)
@[simp] theorem State.resetRegs_stitch (s : State) (q : Reg → Bool) : (s.resetRegs q).stitch = s.stitch := (rfl)
@[simp] theorem State.resetRegs_pwr (s : State) (q : Reg → Bool) : (s.resetRegs q).pwr = s.pwr := (rfl)
@[simp] theorem State.resetRegs_err (s : State) (q : Reg → Bool) : (s.resetRegs q).err = s.err := (rfl)
@[simp] theorem State.resetRegs_out (s : State) (q : Reg → Bool) : (s.resetRegs q).out = s.out := (rfl)
@[simp] theorem State.resetRegs_freeCtr (s : State) (q : Reg → Bool) : (s.resetRegs q).freeCtr = s.freeCtr := (rfl)
@[simp] theorem State.resetRegs_pending (s : State) (q : Reg → Bool) : (s.resetRegs q).pending = s.pending := (rfl)

/-! ## emit -/

@[simp] theorem State.emit_regs (s : State) (o : Output) : (s.emit o).regs = s.regs := (rfl)
@[simp] theorem State.emit_live (s : State) (o : Output) : (s.emit o).live = s.live := (rfl)
@[simp] theorem State.emit_pkg (s : State) (o : Output) : (s.emit o).pkg = s.pkg := (rfl)
@[simp] theorem State.emit_host (s : State) (o : Output) : (s.emit o).host = s.host := (rfl)
@[simp] theorem State.emit_harn (s : State) (o : Output) : (s.emit o).harn = s.harn := (rfl)
@[simp] theorem State.emit_flash (s : State) (o : Output) : (s.emit o).flash = s.flash := (rfl)
@[simp] theorem State.emit_cores (s : State) (o : Output) : (s.emit o).cores = s.cores := (rfl)
@[simp] theorem State.emit_parts (s : State) (o : Output) : (s.emit o).parts = s.parts := (rfl)
@[simp] theorem State.emit_gtacks (s : State) (o : Output) : (s.emit o).gtacks = s.gtacks := (rfl)
@[simp] theorem State.emit_cinches (s : State) (o : Output) : (s.emit o).cinches = s.cinches := (rfl)
@[simp] theorem State.emit_lls (s : State) (o : Output) : (s.emit o).lls = s.lls := (rfl)
@[simp] theorem State.emit_hbm (s : State) (o : Output) : (s.emit o).hbm = s.hbm := (rfl)
@[simp] theorem State.emit_fab (s : State) (o : Output) : (s.emit o).fab = s.fab := (rfl)
@[simp] theorem State.emit_eth (s : State) (o : Output) : (s.emit o).eth = s.eth := (rfl)
@[simp] theorem State.emit_stitch (s : State) (o : Output) : (s.emit o).stitch = s.stitch := (rfl)
@[simp] theorem State.emit_pwr (s : State) (o : Output) : (s.emit o).pwr = s.pwr := (rfl)
@[simp] theorem State.emit_err (s : State) (o : Output) : (s.emit o).err = s.err := (rfl)
@[simp] theorem State.emit_out (s : State) (o : Output) : (s.emit o).out = s.out ++ [o] := (rfl)
@[simp] theorem State.emit_freeCtr (s : State) (o : Output) : (s.emit o).freeCtr = s.freeCtr := (rfl)
@[simp] theorem State.emit_pending (s : State) (o : Output) : (s.emit o).pending = s.pending := (rfl)
@[simp] theorem State.emit_reg (s : State) (o : Output) (r' : Reg) : (s.emit o).reg r' = s.reg r' := (rfl)
@[simp] theorem State.emit_fld (s : State) (o : Output) (r' : Reg) (f' : Fld) : (s.emit o).fld r' f' = s.fld r' f' := (rfl)

/-! ## modCore -/

@[simp] theorem State.modCore_regs (s : State) (c : Nat) (f : Core → Core) : (s.modCore c f).regs = s.regs := (rfl)
@[simp] theorem State.modCore_live (s : State) (c : Nat) (f : Core → Core) : (s.modCore c f).live = s.live := (rfl)
@[simp] theorem State.modCore_pkg (s : State) (c : Nat) (f : Core → Core) : (s.modCore c f).pkg = s.pkg := (rfl)
@[simp] theorem State.modCore_host (s : State) (c : Nat) (f : Core → Core) : (s.modCore c f).host = s.host := (rfl)
@[simp] theorem State.modCore_harn (s : State) (c : Nat) (f : Core → Core) : (s.modCore c f).harn = s.harn := (rfl)
@[simp] theorem State.modCore_flash (s : State) (c : Nat) (f : Core → Core) : (s.modCore c f).flash = s.flash := (rfl)
@[simp] theorem State.modCore_cores (s : State) (c : Nat) (f : Core → Core) : (s.modCore c f).cores = mmod s.cores c f := (rfl)
@[simp] theorem State.modCore_parts (s : State) (c : Nat) (f : Core → Core) : (s.modCore c f).parts = s.parts := (rfl)
@[simp] theorem State.modCore_gtacks (s : State) (c : Nat) (f : Core → Core) : (s.modCore c f).gtacks = s.gtacks := (rfl)
@[simp] theorem State.modCore_cinches (s : State) (c : Nat) (f : Core → Core) : (s.modCore c f).cinches = s.cinches := (rfl)
@[simp] theorem State.modCore_lls (s : State) (c : Nat) (f : Core → Core) : (s.modCore c f).lls = s.lls := (rfl)
@[simp] theorem State.modCore_hbm (s : State) (c : Nat) (f : Core → Core) : (s.modCore c f).hbm = s.hbm := (rfl)
@[simp] theorem State.modCore_fab (s : State) (c : Nat) (f : Core → Core) : (s.modCore c f).fab = s.fab := (rfl)
@[simp] theorem State.modCore_eth (s : State) (c : Nat) (f : Core → Core) : (s.modCore c f).eth = s.eth := (rfl)
@[simp] theorem State.modCore_stitch (s : State) (c : Nat) (f : Core → Core) : (s.modCore c f).stitch = s.stitch := (rfl)
@[simp] theorem State.modCore_pwr (s : State) (c : Nat) (f : Core → Core) : (s.modCore c f).pwr = s.pwr := (rfl)
@[simp] theorem State.modCore_err (s : State) (c : Nat) (f : Core → Core) : (s.modCore c f).err = s.err := (rfl)
@[simp] theorem State.modCore_out (s : State) (c : Nat) (f : Core → Core) : (s.modCore c f).out = s.out := (rfl)
@[simp] theorem State.modCore_freeCtr (s : State) (c : Nat) (f : Core → Core) : (s.modCore c f).freeCtr = s.freeCtr := (rfl)
@[simp] theorem State.modCore_pending (s : State) (c : Nat) (f : Core → Core) : (s.modCore c f).pending = s.pending := (rfl)
@[simp] theorem State.modCore_reg (s : State) (c : Nat) (f : Core → Core) (r' : Reg) : (s.modCore c f).reg r' = s.reg r' := (rfl)
@[simp] theorem State.modCore_fld (s : State) (c : Nat) (f : Core → Core) (r' : Reg) (f' : Fld) : (s.modCore c f).fld r' f' = s.fld r' f' := (rfl)

/-! ## modPart -/

@[simp] theorem State.modPart_regs (s : State) (p : Nat) (f : Part → Part) : (s.modPart p f).regs = s.regs := (rfl)
@[simp] theorem State.modPart_live (s : State) (p : Nat) (f : Part → Part) : (s.modPart p f).live = s.live := (rfl)
@[simp] theorem State.modPart_pkg (s : State) (p : Nat) (f : Part → Part) : (s.modPart p f).pkg = s.pkg := (rfl)
@[simp] theorem State.modPart_host (s : State) (p : Nat) (f : Part → Part) : (s.modPart p f).host = s.host := (rfl)
@[simp] theorem State.modPart_harn (s : State) (p : Nat) (f : Part → Part) : (s.modPart p f).harn = s.harn := (rfl)
@[simp] theorem State.modPart_flash (s : State) (p : Nat) (f : Part → Part) : (s.modPart p f).flash = s.flash := (rfl)
@[simp] theorem State.modPart_cores (s : State) (p : Nat) (f : Part → Part) : (s.modPart p f).cores = s.cores := (rfl)
@[simp] theorem State.modPart_parts (s : State) (p : Nat) (f : Part → Part) : (s.modPart p f).parts = mmod s.parts p f := (rfl)
@[simp] theorem State.modPart_gtacks (s : State) (p : Nat) (f : Part → Part) : (s.modPart p f).gtacks = s.gtacks := (rfl)
@[simp] theorem State.modPart_cinches (s : State) (p : Nat) (f : Part → Part) : (s.modPart p f).cinches = s.cinches := (rfl)
@[simp] theorem State.modPart_lls (s : State) (p : Nat) (f : Part → Part) : (s.modPart p f).lls = s.lls := (rfl)
@[simp] theorem State.modPart_hbm (s : State) (p : Nat) (f : Part → Part) : (s.modPart p f).hbm = s.hbm := (rfl)
@[simp] theorem State.modPart_fab (s : State) (p : Nat) (f : Part → Part) : (s.modPart p f).fab = s.fab := (rfl)
@[simp] theorem State.modPart_eth (s : State) (p : Nat) (f : Part → Part) : (s.modPart p f).eth = s.eth := (rfl)
@[simp] theorem State.modPart_stitch (s : State) (p : Nat) (f : Part → Part) : (s.modPart p f).stitch = s.stitch := (rfl)
@[simp] theorem State.modPart_pwr (s : State) (p : Nat) (f : Part → Part) : (s.modPart p f).pwr = s.pwr := (rfl)
@[simp] theorem State.modPart_err (s : State) (p : Nat) (f : Part → Part) : (s.modPart p f).err = s.err := (rfl)
@[simp] theorem State.modPart_out (s : State) (p : Nat) (f : Part → Part) : (s.modPart p f).out = s.out := (rfl)
@[simp] theorem State.modPart_freeCtr (s : State) (p : Nat) (f : Part → Part) : (s.modPart p f).freeCtr = s.freeCtr := (rfl)
@[simp] theorem State.modPart_pending (s : State) (p : Nat) (f : Part → Part) : (s.modPart p f).pending = s.pending := (rfl)
@[simp] theorem State.modPart_reg (s : State) (p : Nat) (f : Part → Part) (r' : Reg) : (s.modPart p f).reg r' = s.reg r' := (rfl)
@[simp] theorem State.modPart_fld (s : State) (p : Nat) (f : Part → Part) (r' : Reg) (f' : Fld) : (s.modPart p f).fld r' f' = s.fld r' f' := (rfl)

/-! ## modHarn -/

@[simp] theorem State.modHarn_regs (s : State) (f : Harn → Harn) : (s.modHarn f).regs = s.regs := (rfl)
@[simp] theorem State.modHarn_live (s : State) (f : Harn → Harn) : (s.modHarn f).live = s.live := (rfl)
@[simp] theorem State.modHarn_pkg (s : State) (f : Harn → Harn) : (s.modHarn f).pkg = s.pkg := (rfl)
@[simp] theorem State.modHarn_host (s : State) (f : Harn → Harn) : (s.modHarn f).host = s.host := (rfl)
@[simp] theorem State.modHarn_harn (s : State) (f : Harn → Harn) : (s.modHarn f).harn = f s.harn := (rfl)
@[simp] theorem State.modHarn_flash (s : State) (f : Harn → Harn) : (s.modHarn f).flash = s.flash := (rfl)
@[simp] theorem State.modHarn_cores (s : State) (f : Harn → Harn) : (s.modHarn f).cores = s.cores := (rfl)
@[simp] theorem State.modHarn_parts (s : State) (f : Harn → Harn) : (s.modHarn f).parts = s.parts := (rfl)
@[simp] theorem State.modHarn_gtacks (s : State) (f : Harn → Harn) : (s.modHarn f).gtacks = s.gtacks := (rfl)
@[simp] theorem State.modHarn_cinches (s : State) (f : Harn → Harn) : (s.modHarn f).cinches = s.cinches := (rfl)
@[simp] theorem State.modHarn_lls (s : State) (f : Harn → Harn) : (s.modHarn f).lls = s.lls := (rfl)
@[simp] theorem State.modHarn_hbm (s : State) (f : Harn → Harn) : (s.modHarn f).hbm = s.hbm := (rfl)
@[simp] theorem State.modHarn_fab (s : State) (f : Harn → Harn) : (s.modHarn f).fab = s.fab := (rfl)
@[simp] theorem State.modHarn_eth (s : State) (f : Harn → Harn) : (s.modHarn f).eth = s.eth := (rfl)
@[simp] theorem State.modHarn_stitch (s : State) (f : Harn → Harn) : (s.modHarn f).stitch = s.stitch := (rfl)
@[simp] theorem State.modHarn_pwr (s : State) (f : Harn → Harn) : (s.modHarn f).pwr = s.pwr := (rfl)
@[simp] theorem State.modHarn_err (s : State) (f : Harn → Harn) : (s.modHarn f).err = s.err := (rfl)
@[simp] theorem State.modHarn_out (s : State) (f : Harn → Harn) : (s.modHarn f).out = s.out := (rfl)
@[simp] theorem State.modHarn_freeCtr (s : State) (f : Harn → Harn) : (s.modHarn f).freeCtr = s.freeCtr := (rfl)
@[simp] theorem State.modHarn_pending (s : State) (f : Harn → Harn) : (s.modHarn f).pending = s.pending := (rfl)
@[simp] theorem State.modHarn_reg (s : State) (f : Harn → Harn) (r' : Reg) : (s.modHarn f).reg r' = s.reg r' := (rfl)
@[simp] theorem State.modHarn_fld (s : State) (f : Harn → Harn) (r' : Reg) (f' : Fld) : (s.modHarn f).fld r' f' = s.fld r' f' := (rfl)

/-! ## modPkg -/

@[simp] theorem State.modPkg_regs (s : State) (f : Pkg → Pkg) : (s.modPkg f).regs = s.regs := (rfl)
@[simp] theorem State.modPkg_live (s : State) (f : Pkg → Pkg) : (s.modPkg f).live = s.live := (rfl)
@[simp] theorem State.modPkg_pkg (s : State) (f : Pkg → Pkg) : (s.modPkg f).pkg = f s.pkg := (rfl)
@[simp] theorem State.modPkg_host (s : State) (f : Pkg → Pkg) : (s.modPkg f).host = s.host := (rfl)
@[simp] theorem State.modPkg_harn (s : State) (f : Pkg → Pkg) : (s.modPkg f).harn = s.harn := (rfl)
@[simp] theorem State.modPkg_flash (s : State) (f : Pkg → Pkg) : (s.modPkg f).flash = s.flash := (rfl)
@[simp] theorem State.modPkg_cores (s : State) (f : Pkg → Pkg) : (s.modPkg f).cores = s.cores := (rfl)
@[simp] theorem State.modPkg_parts (s : State) (f : Pkg → Pkg) : (s.modPkg f).parts = s.parts := (rfl)
@[simp] theorem State.modPkg_gtacks (s : State) (f : Pkg → Pkg) : (s.modPkg f).gtacks = s.gtacks := (rfl)
@[simp] theorem State.modPkg_cinches (s : State) (f : Pkg → Pkg) : (s.modPkg f).cinches = s.cinches := (rfl)
@[simp] theorem State.modPkg_lls (s : State) (f : Pkg → Pkg) : (s.modPkg f).lls = s.lls := (rfl)
@[simp] theorem State.modPkg_hbm (s : State) (f : Pkg → Pkg) : (s.modPkg f).hbm = s.hbm := (rfl)
@[simp] theorem State.modPkg_fab (s : State) (f : Pkg → Pkg) : (s.modPkg f).fab = s.fab := (rfl)
@[simp] theorem State.modPkg_eth (s : State) (f : Pkg → Pkg) : (s.modPkg f).eth = s.eth := (rfl)
@[simp] theorem State.modPkg_stitch (s : State) (f : Pkg → Pkg) : (s.modPkg f).stitch = s.stitch := (rfl)
@[simp] theorem State.modPkg_pwr (s : State) (f : Pkg → Pkg) : (s.modPkg f).pwr = s.pwr := (rfl)
@[simp] theorem State.modPkg_err (s : State) (f : Pkg → Pkg) : (s.modPkg f).err = s.err := (rfl)
@[simp] theorem State.modPkg_out (s : State) (f : Pkg → Pkg) : (s.modPkg f).out = s.out := (rfl)
@[simp] theorem State.modPkg_freeCtr (s : State) (f : Pkg → Pkg) : (s.modPkg f).freeCtr = s.freeCtr := (rfl)
@[simp] theorem State.modPkg_pending (s : State) (f : Pkg → Pkg) : (s.modPkg f).pending = s.pending := (rfl)
@[simp] theorem State.modPkg_reg (s : State) (f : Pkg → Pkg) (r' : Reg) : (s.modPkg f).reg r' = s.reg r' := (rfl)
@[simp] theorem State.modPkg_fld (s : State) (f : Pkg → Pkg) (r' : Reg) (f' : Fld) : (s.modPkg f).fld r' f' = s.fld r' f' := (rfl)

/-! ## modStitch -/

@[simp] theorem State.modStitch_regs (s : State) (f : Stitch → Stitch) : (s.modStitch f).regs = s.regs := (rfl)
@[simp] theorem State.modStitch_live (s : State) (f : Stitch → Stitch) : (s.modStitch f).live = s.live := (rfl)
@[simp] theorem State.modStitch_pkg (s : State) (f : Stitch → Stitch) : (s.modStitch f).pkg = s.pkg := (rfl)
@[simp] theorem State.modStitch_host (s : State) (f : Stitch → Stitch) : (s.modStitch f).host = s.host := (rfl)
@[simp] theorem State.modStitch_harn (s : State) (f : Stitch → Stitch) : (s.modStitch f).harn = s.harn := (rfl)
@[simp] theorem State.modStitch_flash (s : State) (f : Stitch → Stitch) : (s.modStitch f).flash = s.flash := (rfl)
@[simp] theorem State.modStitch_cores (s : State) (f : Stitch → Stitch) : (s.modStitch f).cores = s.cores := (rfl)
@[simp] theorem State.modStitch_parts (s : State) (f : Stitch → Stitch) : (s.modStitch f).parts = s.parts := (rfl)
@[simp] theorem State.modStitch_gtacks (s : State) (f : Stitch → Stitch) : (s.modStitch f).gtacks = s.gtacks := (rfl)
@[simp] theorem State.modStitch_cinches (s : State) (f : Stitch → Stitch) : (s.modStitch f).cinches = s.cinches := (rfl)
@[simp] theorem State.modStitch_lls (s : State) (f : Stitch → Stitch) : (s.modStitch f).lls = s.lls := (rfl)
@[simp] theorem State.modStitch_hbm (s : State) (f : Stitch → Stitch) : (s.modStitch f).hbm = s.hbm := (rfl)
@[simp] theorem State.modStitch_fab (s : State) (f : Stitch → Stitch) : (s.modStitch f).fab = s.fab := (rfl)
@[simp] theorem State.modStitch_eth (s : State) (f : Stitch → Stitch) : (s.modStitch f).eth = s.eth := (rfl)
@[simp] theorem State.modStitch_stitch (s : State) (f : Stitch → Stitch) : (s.modStitch f).stitch = f s.stitch := (rfl)
@[simp] theorem State.modStitch_pwr (s : State) (f : Stitch → Stitch) : (s.modStitch f).pwr = s.pwr := (rfl)
@[simp] theorem State.modStitch_err (s : State) (f : Stitch → Stitch) : (s.modStitch f).err = s.err := (rfl)
@[simp] theorem State.modStitch_out (s : State) (f : Stitch → Stitch) : (s.modStitch f).out = s.out := (rfl)
@[simp] theorem State.modStitch_freeCtr (s : State) (f : Stitch → Stitch) : (s.modStitch f).freeCtr = s.freeCtr := (rfl)
@[simp] theorem State.modStitch_pending (s : State) (f : Stitch → Stitch) : (s.modStitch f).pending = s.pending := (rfl)
@[simp] theorem State.modStitch_reg (s : State) (f : Stitch → Stitch) (r' : Reg) : (s.modStitch f).reg r' = s.reg r' := (rfl)
@[simp] theorem State.modStitch_fld (s : State) (f : Stitch → Stitch) (r' : Reg) (f' : Fld) : (s.modStitch f).fld r' f' = s.fld r' f' := (rfl)

/-! ## modLink -/

@[simp] theorem State.modLink_regs (s : State) (k : Nat) (f : Link → Link) : (s.modLink k f).regs = s.regs := (rfl)
@[simp] theorem State.modLink_live (s : State) (k : Nat) (f : Link → Link) : (s.modLink k f).live = s.live := (rfl)
@[simp] theorem State.modLink_pkg (s : State) (k : Nat) (f : Link → Link) : (s.modLink k f).pkg = s.pkg := (rfl)
@[simp] theorem State.modLink_host (s : State) (k : Nat) (f : Link → Link) : (s.modLink k f).host = s.host := (rfl)
@[simp] theorem State.modLink_harn (s : State) (k : Nat) (f : Link → Link) : (s.modLink k f).harn = s.harn := (rfl)
@[simp] theorem State.modLink_flash (s : State) (k : Nat) (f : Link → Link) : (s.modLink k f).flash = s.flash := (rfl)
@[simp] theorem State.modLink_cores (s : State) (k : Nat) (f : Link → Link) : (s.modLink k f).cores = s.cores := (rfl)
@[simp] theorem State.modLink_parts (s : State) (k : Nat) (f : Link → Link) : (s.modLink k f).parts = s.parts := (rfl)
@[simp] theorem State.modLink_gtacks (s : State) (k : Nat) (f : Link → Link) : (s.modLink k f).gtacks = s.gtacks := (rfl)
@[simp] theorem State.modLink_cinches (s : State) (k : Nat) (f : Link → Link) : (s.modLink k f).cinches = s.cinches := (rfl)
@[simp] theorem State.modLink_lls (s : State) (k : Nat) (f : Link → Link) : (s.modLink k f).lls = s.lls := (rfl)
@[simp] theorem State.modLink_hbm (s : State) (k : Nat) (f : Link → Link) : (s.modLink k f).hbm = s.hbm := (rfl)
@[simp] theorem State.modLink_eth (s : State) (k : Nat) (f : Link → Link) : (s.modLink k f).eth = s.eth := (rfl)
@[simp] theorem State.modLink_stitch (s : State) (k : Nat) (f : Link → Link) : (s.modLink k f).stitch = s.stitch := (rfl)
@[simp] theorem State.modLink_pwr (s : State) (k : Nat) (f : Link → Link) : (s.modLink k f).pwr = s.pwr := (rfl)
@[simp] theorem State.modLink_err (s : State) (k : Nat) (f : Link → Link) : (s.modLink k f).err = s.err := (rfl)
@[simp] theorem State.modLink_out (s : State) (k : Nat) (f : Link → Link) : (s.modLink k f).out = s.out := (rfl)
@[simp] theorem State.modLink_freeCtr (s : State) (k : Nat) (f : Link → Link) : (s.modLink k f).freeCtr = s.freeCtr := (rfl)
@[simp] theorem State.modLink_pending (s : State) (k : Nat) (f : Link → Link) : (s.modLink k f).pending = s.pending := (rfl)
@[simp] theorem State.modLink_reg (s : State) (k : Nat) (f : Link → Link) (r' : Reg) : (s.modLink k f).reg r' = s.reg r' := (rfl)
@[simp] theorem State.modLink_fld (s : State) (k : Nat) (f : Link → Link) (r' : Reg) (f' : Fld) : (s.modLink k f).fld r' f' = s.fld r' f' := (rfl)

/-! ## modOpt -/

@[simp] theorem State.modOpt_regs (s : State) (k : Nat) (f : Opt → Opt) : (s.modOpt k f).regs = s.regs := (rfl)
@[simp] theorem State.modOpt_live (s : State) (k : Nat) (f : Opt → Opt) : (s.modOpt k f).live = s.live := (rfl)
@[simp] theorem State.modOpt_pkg (s : State) (k : Nat) (f : Opt → Opt) : (s.modOpt k f).pkg = s.pkg := (rfl)
@[simp] theorem State.modOpt_host (s : State) (k : Nat) (f : Opt → Opt) : (s.modOpt k f).host = s.host := (rfl)
@[simp] theorem State.modOpt_harn (s : State) (k : Nat) (f : Opt → Opt) : (s.modOpt k f).harn = s.harn := (rfl)
@[simp] theorem State.modOpt_flash (s : State) (k : Nat) (f : Opt → Opt) : (s.modOpt k f).flash = s.flash := (rfl)
@[simp] theorem State.modOpt_cores (s : State) (k : Nat) (f : Opt → Opt) : (s.modOpt k f).cores = s.cores := (rfl)
@[simp] theorem State.modOpt_parts (s : State) (k : Nat) (f : Opt → Opt) : (s.modOpt k f).parts = s.parts := (rfl)
@[simp] theorem State.modOpt_gtacks (s : State) (k : Nat) (f : Opt → Opt) : (s.modOpt k f).gtacks = s.gtacks := (rfl)
@[simp] theorem State.modOpt_cinches (s : State) (k : Nat) (f : Opt → Opt) : (s.modOpt k f).cinches = s.cinches := (rfl)
@[simp] theorem State.modOpt_lls (s : State) (k : Nat) (f : Opt → Opt) : (s.modOpt k f).lls = s.lls := (rfl)
@[simp] theorem State.modOpt_hbm (s : State) (k : Nat) (f : Opt → Opt) : (s.modOpt k f).hbm = s.hbm := (rfl)
@[simp] theorem State.modOpt_eth (s : State) (k : Nat) (f : Opt → Opt) : (s.modOpt k f).eth = s.eth := (rfl)
@[simp] theorem State.modOpt_stitch (s : State) (k : Nat) (f : Opt → Opt) : (s.modOpt k f).stitch = s.stitch := (rfl)
@[simp] theorem State.modOpt_pwr (s : State) (k : Nat) (f : Opt → Opt) : (s.modOpt k f).pwr = s.pwr := (rfl)
@[simp] theorem State.modOpt_err (s : State) (k : Nat) (f : Opt → Opt) : (s.modOpt k f).err = s.err := (rfl)
@[simp] theorem State.modOpt_out (s : State) (k : Nat) (f : Opt → Opt) : (s.modOpt k f).out = s.out := (rfl)
@[simp] theorem State.modOpt_freeCtr (s : State) (k : Nat) (f : Opt → Opt) : (s.modOpt k f).freeCtr = s.freeCtr := (rfl)
@[simp] theorem State.modOpt_pending (s : State) (k : Nat) (f : Opt → Opt) : (s.modOpt k f).pending = s.pending := (rfl)
@[simp] theorem State.modOpt_reg (s : State) (k : Nat) (f : Opt → Opt) (r' : Reg) : (s.modOpt k f).reg r' = s.reg r' := (rfl)
@[simp] theorem State.modOpt_fld (s : State) (k : Nat) (f : Opt → Opt) (r' : Reg) (f' : Fld) : (s.modOpt k f).fld r' f' = s.fld r' f' := (rfl)

/-! ## modThread -/

@[simp] theorem State.modThread_regs (s : State) (c t : Nat) (f : Thread → Thread) : (s.modThread c t f).regs = s.regs := (rfl)
@[simp] theorem State.modThread_live (s : State) (c t : Nat) (f : Thread → Thread) : (s.modThread c t f).live = s.live := (rfl)
@[simp] theorem State.modThread_pkg (s : State) (c t : Nat) (f : Thread → Thread) : (s.modThread c t f).pkg = s.pkg := (rfl)
@[simp] theorem State.modThread_host (s : State) (c t : Nat) (f : Thread → Thread) : (s.modThread c t f).host = s.host := (rfl)
@[simp] theorem State.modThread_harn (s : State) (c t : Nat) (f : Thread → Thread) : (s.modThread c t f).harn = s.harn := (rfl)
@[simp] theorem State.modThread_flash (s : State) (c t : Nat) (f : Thread → Thread) : (s.modThread c t f).flash = s.flash := (rfl)
@[simp] theorem State.modThread_parts (s : State) (c t : Nat) (f : Thread → Thread) : (s.modThread c t f).parts = s.parts := (rfl)
@[simp] theorem State.modThread_gtacks (s : State) (c t : Nat) (f : Thread → Thread) : (s.modThread c t f).gtacks = s.gtacks := (rfl)
@[simp] theorem State.modThread_cinches (s : State) (c t : Nat) (f : Thread → Thread) : (s.modThread c t f).cinches = s.cinches := (rfl)
@[simp] theorem State.modThread_lls (s : State) (c t : Nat) (f : Thread → Thread) : (s.modThread c t f).lls = s.lls := (rfl)
@[simp] theorem State.modThread_hbm (s : State) (c t : Nat) (f : Thread → Thread) : (s.modThread c t f).hbm = s.hbm := (rfl)
@[simp] theorem State.modThread_fab (s : State) (c t : Nat) (f : Thread → Thread) : (s.modThread c t f).fab = s.fab := (rfl)
@[simp] theorem State.modThread_eth (s : State) (c t : Nat) (f : Thread → Thread) : (s.modThread c t f).eth = s.eth := (rfl)
@[simp] theorem State.modThread_stitch (s : State) (c t : Nat) (f : Thread → Thread) : (s.modThread c t f).stitch = s.stitch := (rfl)
@[simp] theorem State.modThread_pwr (s : State) (c t : Nat) (f : Thread → Thread) : (s.modThread c t f).pwr = s.pwr := (rfl)
@[simp] theorem State.modThread_err (s : State) (c t : Nat) (f : Thread → Thread) : (s.modThread c t f).err = s.err := (rfl)
@[simp] theorem State.modThread_out (s : State) (c t : Nat) (f : Thread → Thread) : (s.modThread c t f).out = s.out := (rfl)
@[simp] theorem State.modThread_freeCtr (s : State) (c t : Nat) (f : Thread → Thread) : (s.modThread c t f).freeCtr = s.freeCtr := (rfl)
@[simp] theorem State.modThread_pending (s : State) (c t : Nat) (f : Thread → Thread) : (s.modThread c t f).pending = s.pending := (rfl)
@[simp] theorem State.modThread_reg (s : State) (c t : Nat) (f : Thread → Thread) (r' : Reg) : (s.modThread c t f).reg r' = s.reg r' := (rfl)
@[simp] theorem State.modThread_fld (s : State) (c t : Nat) (f : Thread → Thread) (r' : Reg) (f' : Fld) : (s.modThread c t f).fld r' f' = s.fld r' f' := (rfl)

/-! ## Answers -/

/-- A meaning that answers with a next state had operands that name units, and left the queue alone. -/
theorem commit_next_iff {s t t' : State} {ok : Bool} :
    commit s ok t = .next t' ↔ ok = true ∧ t' = { t with pending := s.pending } := by
  cases ok
  · simp [commit]
  · simp only [commit, if_true, Host.Outcome.next.injEq, true_and]
    exact eq_comm

theorem commit_ok {s t : State} {ok : Bool} (h : ok = true) : commit s ok t = .next { t with pending := s.pending } := by
  subst h; rfl
theorem commit_bad {s t : State} {ok : Bool} (h : ok = false) : commit s ok t = .fault .noSuchUnit := by
  subst h; rfl

/-- Every meaning answers through `commit` with the well-formedness of its own command. -/
theorem exec_commit (i : Instr) (s : State) : ∃ t, exec i s = commit s i.wf t := by
  cases i <;> exact ⟨_, rfl⟩

theorem step_nil {s : State} (h : s.pending = []) : step s = .next s.edge := by unfold step; rw [h]
theorem step_cons {s : State} {c : Instr} {r : List Instr} (h : s.pending = c :: r) : step s = exec c { s with pending := r } := by
  unfold step; rw [h]


end Sys2Proof.Machine
end

