-- ==== Sys2Proof/Laws/Frames.lean ====
section
/-! SUPPORT. What the shared operations leave alone. A reading `g` of the state that does not see some of its parts is kept by
every operation that changes only those parts; the field `cores`, or register `r`, or any tuple of such readings, is a `g`. -/
namespace Sys2Proof.Machine

/-- A command completes when its meaning commits an effect that leaves the queue alone. -/
theorem completes_of {i : Instr} {s t : State} {P : State → Prop} (e : exec i s = commit s true t) (q : t.pending = s.pending) (p : P t) :
    Completes i s P := by
  refine ⟨t, ?_, p⟩
  rw [e, commit, if_pos rfl, ← q]

/-- A reading that does not see the registers that `P` names. -/
def BlindReg {β : Type} (g : State → β) (P : Reg → Bool) : Prop := ∀ (s : State) (r : Reg) (v : BitVec 64), P r = true → g (s.setReg r v) = g s
/-- A reading that does not see the host port. -/
def BlindHost {β : Type} (g : State → β) : Prop := ∀ (s : State) (x : HostPort), g { s with host := x } = g s
/-- A reading that does not see the pending messages of the host port. -/
def BlindPend {β : Type} (g : State → β) : Prop := ∀ (s : State) (x : List Nat), g { s with host := { s.host with msixPend := x } } = g s
/-- A reading that does not see the log of what was sent. -/
def BlindOut {β : Type} (g : State → β) : Prop := ∀ (s : State) (x : List Output), g { s with out := x } = g s
/-- A reading that does not see the event queues. -/
def BlindErr {β : Type} (g : State → β) : Prop := ∀ (s : State) (x : Err), g { s with err := x } = g s
/-- A reading that does not see the Harness. -/
def BlindHarn {β : Type} (g : State → β) : Prop := ∀ (s : State) (x : Harn), g { s with harn := x } = g s
/-- A reading that does not see the X-die. -/
def BlindFab {β : Type} (g : State → β) : Prop := ∀ (s : State) (x : Fab), g { s with fab := x } = g s
/-- A reading that does not see the cores. -/
def BlindCores {β : Type} (g : State → β) : Prop := ∀ (s : State) (x : SMap Core), g { s with cores := x } = g s

theorem BlindReg.mono {β : Type} {g : State → β} {P Q : Reg → Bool} (h : BlindReg g Q) (i : ∀ r, P r = true → Q r = true) : BlindReg g P :=
  fun s r v p => h s r v (i r p)

theorem BlindHost.pend {β : Type} {g : State → β} (h : BlindHost g) : BlindPend g := fun s _ => h s _

/-- A register outside `P` is not seen to change by updates of the registers in `P`. -/
theorem blindReg_reg {P : Reg → Bool} {r : Reg} (h : P r = false) : BlindReg (fun s => s.reg r) P := by
  intro s r' v p
  simp only [State.reg_setReg]
  rw [if_neg]
  rintro rfl
  rw [h] at p
  exact Bool.noConfusion p

theorem blindReg_fld {P : Reg → Bool} {r : Reg} (f : Fld) (h : P r = false) : BlindReg (fun s => s.fld r f) P := by
  intro s r' v p
  exact congrArg f.get (blindReg_reg h s r' v p)

/-- A fold keeps what each of its steps keeps. -/
theorem foldl_keep {σ α β : Type} (g : σ → β) (f : σ → α → σ) (h : ∀ s a, g (f s a) = g s) (l : List α) (s : σ) :
    g (l.foldl f s) = g s := by
  induction l generalizing s with
  | nil => rfl
  | cons a t ih => rw [List.foldl_cons, ih, h]

/-- A fold keeps what each of the steps that it takes keeps. -/
theorem foldl_keep_mem {σ α β : Type} (g : σ → β) (f : σ → α → σ) (l : List α) (h : ∀ s, ∀ a ∈ l, g (f s a) = g s) (s : σ) :
    g (l.foldl f s) = g s := by
  induction l generalizing s with
  | nil => rfl
  | cons a t ih => rw [List.foldl_cons, ih (fun s b hb => h s b (List.mem_cons_of_mem _ hb)), h s a List.mem_cons_self]

section
variable {β : Type} {g : State → β} {P : Reg → Bool}

theorem setReg_keep (h : BlindReg g P) {r : Reg} (p : P r = true) (s : State) (v : BitVec 64) : g (s.setReg r v) = g s := h s r v p
theorem setFld_keep (h : BlindReg g P) {r : Reg} (p : P r = true) (s : State) (f : Fld) (x : Nat) : g (s.setFld r f x) = g s := h s r _ p
theorem satFld_keep (h : BlindReg g P) {r : Reg} (p : P r = true) (s : State) (f : Fld) (x : Nat) : g (s.satFld r f x) = g s := h s r _ p
theorem wrapFld_keep (h : BlindReg g P) {r : Reg} (p : P r = true) (s : State) (f : Fld) (x : Nat) : g (s.wrapFld r f x) = g s := h s r _ p
theorem setRegs_keep (h : BlindReg g P) {f : Nat → Reg} (p : ∀ i, P (f i) = true) (s : State) (ws : List (BitVec 64)) :
    g (s.setRegs f ws) = g s := by
  unfold State.setRegs
  refine foldl_keep g _ ?_ _ s
  rintro t ⟨w, i⟩
  exact h t _ _ (p i)
theorem emit_keep (o : BlindOut g) (s : State) (x : Output) : g (s.emit x) = g s := o s _
theorem modCore_keep (hc : BlindCores g) (s : State) (c : Nat) (f : Core → Core) : g (s.modCore c f) = g s := hc s _

/-! ## Interrupts -/

theorem sendMsix_keep (ho : BlindPend g) (o : BlindOut g) (s : State) (fn vec : Nat) : g (s.sendMsix fn vec) = g s := by
  unfold State.sendMsix
  split
  · exact ho s _
  · exact o s _

theorem raiseIrq_keep (h : BlindReg g P) (ho : BlindPend g) (o : BlindOut g) {r : Reg} (p : P r = true) (s : State) (f : Fld) (fn vec : Nat) :
    g (s.raiseIrq r f fn vec) = g s := by
  unfold State.raiseIrq
  split
  · rfl
  · rw [sendMsix_keep ho o, setFld_keep h p]

theorem partIrq_keep (h : BlindReg g P) (ho : BlindPend g) (o : BlindOut g) {q : Nat} (p : P (.partIrqStat q) = true) (s : State) (f : Fld) :
    g (s.partIrq q f) = g s := raiseIrq_keep h ho o p s f _ _
theorem devIrq_keep (h : BlindReg g P) (ho : BlindPend g) (o : BlindOut g) (p : P .devIrqStat = true) (s : State) (f : Fld) :
    g (s.devIrq f) = g s := raiseIrq_keep h ho o p s f _ _
theorem pwrIrq_keep (h : BlindReg g P) (ho : BlindPend g) (o : BlindOut g) (p : P .pwrIrqStat = true) (s : State) (f : Fld) :
    g (s.pwrIrq f) = g s := raiseIrq_keep h ho o p s f _ _

theorem setPartState_keep (h : BlindReg g P) (ho : BlindPend g) (o : BlindOut g) {q : Nat} (p1 : P (.partIrqStat q) = true)
    (p2 : P (.partState q) = true) (p3 : P .harnState = true) (s : State) (st : Nat) : g (s.setPartState q st) = g s := by
  unfold State.setPartState
  split
  · rfl
  · dsimp only
    rw [partIrq_keep h ho o p1, setFld_keep h p3, setFld_keep h p2]

theorem setDevState_keep (h : BlindReg g P) (ho : BlindPend g) (o : BlindOut g) (p1 : ∀ q, P (.partIrqStat q) = true)
    (p2 : P .devIrqStat = true) (p3 : P .harnState = true) (s : State) (st : Nat) : g (s.setDevState st) = g s := by
  unfold State.setDevState
  split
  · rfl
  · rw [foldl_keep g _ (fun t q => partIrq_keep h ho o (p1 q) t _), devIrq_keep h ho o p2, setFld_keep h p3]

/-! ## Events -/

/-- The registers of the error path that an event may change. -/
def Reg.ofErr : Reg → Bool
  | .errCapCtl _ | .errFirst _ _ | .errNext _ _ | .errIntake | .errSig _ _ | .errSigStat => true
  | _ => false
/-- The registers that an event or its class action may change. -/
def Reg.logged : Reg → Bool
  | .harnState | .harnStatus | .partStrapStatus _ | .devIrqStat | .partIrqStat _ | .partState _ | .coreSkvGate _ | .coreSkvSlots _
  | .coreMxInexact _ | .coreFault _ | .partStrapDigest _ _ | .partStrapKey _ _ => true
  | r => r.ofErr

theorem Reg.ofErr_logged (r : Reg) (h : r.ofErr = true) : r.logged = true := by
  cases r <;> first | rfl | exact h

theorem capture_keep (h : BlindReg g Reg.ofErr) (ho : BlindPend g) (o : BlindOut g) (s : State) (r : Rec) : g (s.capture r).1 = g s := by
  unfold State.capture
  split
  · rfl
  · split
    · dsimp only
      rw [setFld_keep h rfl, setRegs_keep h (fun _ => rfl)]
    · dsimp only
      split
      · dsimp only
        split
        · rw [sendMsix_keep ho o, sendMsix_keep ho o, setFld_keep h rfl, satFld_keep h rfl, setRegs_keep h (fun _ => rfl)]
        · rw [sendMsix_keep ho o, setFld_keep h rfl, satFld_keep h rfl, setRegs_keep h (fun _ => rfl)]
      · dsimp only
        rw [satFld_keep h rfl, setRegs_keep h (fun _ => rfl)]

theorem enqueue_keep (h : BlindReg g Reg.ofErr) (e : BlindErr g) (s : State) (r : Rec) : g (s.enqueue r) = g s := by
  unfold State.enqueue State.notePeak
  split
  · rw [setFld_keep h rfl, e]
  · split
    · rw [satFld_keep h rfl, e]
    · dsimp only
      rw [satFld_keep h rfl, setFld_keep h rfl, e]

theorem formSignature_keep (h : BlindReg g Reg.ofErr) (o : BlindOut g) (e : BlindErr g) (s : State) (r : Rec) (w : List (Nat × Nat)) :
    g (s.formSignature r w) = g s := by
  unfold State.formSignature
  split
  · rfl
  · dsimp only
    rw [emit_keep o, e, wrapFld_keep h rfl, setRegs_keep h (fun _ => rfl)]
    split
    · rw [satFld_keep h rfl]
    · rfl

/-- Recording an event changes nothing but the error path's registers and queues, what is sent and what is pending. -/
theorem record_keep (h : BlindReg g Reg.ofErr) (ho : BlindPend g) (o : BlindOut g) (e : BlindErr g) (s : State) (ev : Ev) :
    g (s.record ev) = g s := by
  unfold State.record
  dsimp only
  rw [formSignature_keep h o e, enqueue_keep h e, capture_keep h ho o]

theorem putStatus_keep (h : BlindReg g P) {r : Reg} (p : P r = true) (s : State) (a b c d e : Nat) : g (s.putStatus r a b c d e) = g s := by
  unfold State.putStatus
  rw [setFld_keep h p, setFld_keep h p, setFld_keep h p, setFld_keep h p, setFld_keep h p]

theorem harnEvent_keep (h : BlindReg g Reg.ofErr) (ho : BlindPend g) (o : BlindOut g) (e : BlindErr g) (s : State)
    (code step detail us cmd : Nat) (p : Option Nat) : g (s.harnEvent code step detail us cmd p) = g s := record_keep h ho o e s _

theorem harnRefuse_keep (h : BlindReg g Reg.logged) (ho : BlindPend g) (o : BlindOut g) (e : BlindErr g) (s : State) (cmd : Nat)
    (vf : Option Nat) : g (s.harnRefuse cmd vf) = g s := by
  have he := h.mono Reg.ofErr_logged
  cases vf with
  | none => unfold State.harnRefuse; dsimp only; rw [harnEvent_keep he ho o e, setFld_keep h rfl, setFld_keep h rfl, setFld_keep h rfl]
  | some p => unfold State.harnRefuse; dsimp only; rw [harnEvent_keep he ho o e, setFld_keep h rfl, setFld_keep h rfl, setFld_keep h rfl]

/-- What a failing strap commit takes back lies in scratchpads and its partition's digests. -/
theorem unload_keep (h : BlindReg g Reg.logged) (hc : BlindCores g) (s : State) : g s.unload = g s := by
  unfold State.unload
  have k := foldl_keep g (fun t (x : Nat × Nat × Nat) => t.modCore x.1 (fun k => k.zeroBytes x.2.1 x.2.2)) (fun t x => modCore_keep hc t _ _)
    s.harn.loader.rows s
  split
  · dsimp only
    split
    · rw [setRegs_keep h (fun _ => rfl), setRegs_keep h (fun _ => rfl)]; exact k
    · exact k
  · rfl

theorem harnEnd_keep (h : BlindReg g Reg.logged) (hh : BlindHost g) (o : BlindOut g) (e : BlindErr g) (hn : BlindHarn g) (hc : BlindCores g)
    (s : State) (result code detail : Nat) : g (s.harnEnd result code detail) = g s := by
  have he := h.mono Reg.ofErr_logged
  have ho := hh.pend
  have h0 : g (if result = 1 then s else s.unload) = g s := by
    split
    · rfl
    · exact unload_keep h hc s
  have h1 : ∀ (a : Harn) (b : HostPort), g { (if result = 1 then s else s.unload) with harn := a, host := b } = g s := fun a b =>
    ((hh { (if result = 1 then s else s.unload) with harn := a } b).trans (hn _ a)).trans h0
  unfold State.harnEnd
  split
  · rfl
  · dsimp only
    rw [devIrq_keep h ho o rfl]
    split
    · split
      · rw [putStatus_keep h rfl, putStatus_keep h rfl, setFld_keep h rfl, h1]
      · rw [putStatus_keep h rfl, setFld_keep h rfl, h1]
    · rw [harnEvent_keep he ho o e]
      split
      · rw [putStatus_keep h rfl, putStatus_keep h rfl, setFld_keep h rfl, h1]
      · rw [putStatus_keep h rfl, setFld_keep h rfl, h1]

theorem zeroCoreRegs_keep (h : BlindReg g Reg.logged) (hc : BlindCores g) (s : State) (c : Nat) : g (s.zeroCoreRegs c) = g s := by
  unfold State.zeroCoreRegs
  rw [setReg_keep h rfl, setReg_keep h rfl, setReg_keep h rfl, modCore_keep hc]

theorem stopDone_keep (h : BlindReg g Reg.logged) (hc : BlindCores g) (s : State) (c : Nat) : g (s.stopDone c) = g s := by
  unfold State.stopDone
  rw [modCore_keep hc, setReg_keep h rfl, zeroCoreRegs_keep h hc]

theorem stopCore_keep (h : BlindReg g Reg.logged) (f : BlindFab g) (hc : BlindCores g) (s : State) (c : Nat) : g (s.stopCore c) = g s := by
  unfold State.stopCore
  split
  · rfl
  · split
    · rfl
    · dsimp only
      split
      · rw [stopDone_keep h hc, modCore_keep hc]; exact f s _
      · rw [modCore_keep hc]; exact f s _

theorem fencePart_keep (h : BlindReg g Reg.logged) (ho : BlindPend g) (o : BlindOut g) (f : BlindFab g) (hc : BlindCores g) (s : State)
    (p code : Nat) : g (s.fencePart p code) = g s := by
  unfold State.fencePart
  split
  · rfl
  · split
    · rfl
    · rw [setPartState_keep h ho o rfl rfl rfl, setFld_keep h rfl]
      exact foldl_keep g _ (stopCore_keep h f hc) _ s

theorem fenceDev_keep (h : BlindReg g Reg.logged) (hh : BlindHost g) (o : BlindOut g) (e : BlindErr g) (hn : BlindHarn g) (f : BlindFab g)
    (hc : BlindCores g) (s : State) : g s.fenceDev = g s := by
  have ho := hh.pend
  unfold State.fenceDev
  split
  · rfl
  · dsimp only
    rw [setDevState_keep h ho o (fun _ => rfl) rfl rfl, foldl_keep g _ (stopCore_keep h f hc), hn, harnEnd_keep h hh o e hn hc]

/-- An event and its class action change only the registers that `Reg.logged` names, the event queues, the Harness, the far
accesses of stopped cores, the cores, what is sent and what is pending. -/
theorem log_keep (h : BlindReg g Reg.logged) (hh : BlindHost g) (o : BlindOut g) (e : BlindErr g) (hn : BlindHarn g) (f : BlindFab g)
    (hc : BlindCores g) (s : State) (ev : Ev) : g (s.log ev) = g s := by
  have he := h.mono Reg.ofErr_logged
  have ho := hh.pend
  have r := record_keep he ho o e s ev
  unfold State.log
  dsimp only
  split
  · split
    · rw [fencePart_keep h ho o f hc, r]
    · exact r
  · rw [fenceDev_keep h hh o e hn f hc, r]
  · exact r

end

/-- What every blind reading keeps differs only in the registers, sent items and pending messages. -/
theorem regFrame_of {P : Reg → Bool} {s t : State}
    (h : ∀ {β : Type} (g : State → β), BlindReg g P → BlindPend g → BlindOut g → g t = g s) : RegFrame P s t := by
  refine ⟨?_, fun r p => h (fun s => s.reg r) (blindReg_reg p) (fun _ _ => rfl) (fun _ _ => rfl)⟩
  have e := h (fun s : State => { s with regs := [], host := { s.host with msixPend := [] }, out := [] })
    (fun _ _ _ _ => rfl) (fun _ _ => rfl) (fun _ _ => rfl)
  have e2 := congrArg (fun x : State => { x with regs := t.regs, host := { x.host with msixPend := t.host.msixPend }, out := t.out }) e
  exact e2

/-- An event of no fatal class is only recorded. -/
theorem State.log_record (s : State) (ev : Ev) (h2 : ev.code / 4096 ≠ 2) (h3 : ev.code / 4096 ≠ 3) : s.log ev = s.record ev := by
  unfold State.log
  split
  · rename_i h; exact absurd h h2
  · rename_i h; exact absurd h h3
  · rfl

/-! ## What the operations set -/

/-- A field of a written register reads what was written. -/
theorem State.fld_setReg_self (s : State) (r : Reg) (v : BitVec 64) (f : Fld) : (s.setReg r v).fld r f = f.get v := by
  rw [State.fld_setReg, if_pos rfl]

/-- The state of the device after it has been set. -/
theorem State.setDevState_devState (s : State) {st : Nat} (h : st < 4) : (s.setDevState st).devState = st := by
  unfold State.setDevState
  split
  · assumption
  · have b : BlindReg (fun s => s.fld .harnState HarnState.devState) (fun r => decide (r ≠ .harnState)) := blindReg_fld _ rfl
    have k := foldl_keep (fun s => s.fld .harnState HarnState.devState) (fun t p => State.partIrq t p PartIrqStat.state)
      (fun t q => partIrq_keep b (fun _ _ => rfl) (fun _ _ => rfl) rfl t _)
    unfold State.devState
    rw [k, devIrq_keep b (fun _ _ => rfl) (fun _ _ => rfl) rfl, State.fld_setFld_self _ _ _ rfl]
    exact Nat.mod_eq_of_lt h

/-- The state of a partition after it has been set. -/
theorem State.setPartState_partState (s : State) (p : Nat) {st : Nat} (h : st < 4) : (s.setPartState p st).partState p = st := by
  unfold State.setPartState
  split
  · assumption
  · have b : BlindReg (fun s => s.fld (.partState p) PartState.state) (fun r => decide (r ≠ .partState p)) := blindReg_fld _ (by simp)
    unfold State.partState
    dsimp only
    rw [partIrq_keep b (fun _ _ => rfl) (fun _ _ => rfl) rfl, State.fld_setFld_reg (r := .harnState) (r' := .partState p) _ _ _ _ (by simp), State.fld_setFld_self _ _ _ rfl]
    exact Nat.mod_eq_of_lt h

/-- The fields of a status register after they have been put. -/
theorem State.putStatus_result (s : State) (r : Reg) (a b c d e : Nat) : (s.putStatus r a b c d e).fld r HarnStatus.result = b % 4 := by
  unfold State.putStatus
  rw [State.fld_setFld_apart _ _ _ _ rfl rfl, State.fld_setFld_apart _ _ _ _ rfl rfl, State.fld_setFld_apart _ _ _ _ rfl rfl,
    State.fld_setFld_self _ _ _ rfl]
  rfl
theorem State.putStatus_code (s : State) (r : Reg) (a b c d e : Nat) : (s.putStatus r a b c d e).fld r HarnStatus.code = c % 65536 := by
  unfold State.putStatus
  rw [State.fld_setFld_apart _ _ _ _ rfl rfl, State.fld_setFld_apart _ _ _ _ rfl rfl, State.fld_setFld_self _ _ _ rfl]
  rfl

end Sys2Proof.Machine
end

