-- ==== Sys2Proof/Laws/Events.lean ====
section
/-! SUPPORT. What recording an event leaves in the error path: its code stands there, and so does every code that stood there
before (R493). -/
namespace Sys2Proof.Machine

/-- Joining a record keeps every code of the intake. -/
theorem joinIntake_mem {r : Rec} {l l' : List Rec} (h : joinIntake r l = some l') {c : Nat} (m : ∃ x ∈ l, x.code = c) :
    ∃ x ∈ l', x.code = c := by
  induction l generalizing l' with
  | nil => cases h
  | cons y t ih =>
    unfold joinIntake at h
    obtain ⟨x, hx, hc⟩ := m
    split at h
    · cases h
      rcases List.mem_cons.1 hx with rfl | hx
      · exact ⟨_, List.mem_cons_self, hc⟩
      · exact ⟨x, List.mem_cons_of_mem _ hx, hc⟩
    · obtain ⟨t', ht, rfl⟩ := Option.map_eq_some_iff.1 h
      rcases List.mem_cons.1 hx with rfl | hx
      · exact ⟨x, List.mem_cons_self, hc⟩
      · obtain ⟨z, hz, hzc⟩ := ih ht ⟨x, hx, hc⟩
        exact ⟨z, List.mem_cons_of_mem _ hz, hzc⟩

/-- A record joins an entry of its own code. -/
theorem joinIntake_self {r : Rec} {l l' : List Rec} (h : joinIntake r l = some l') : ∃ x ∈ l', x.code = r.code := by
  induction l generalizing l' with
  | nil => cases h
  | cons y t ih =>
    unfold joinIntake at h
    split at h
    · rename_i e
      cases h
      exact ⟨_, List.mem_cons_self, e.1⟩
    · obtain ⟨t', ht, rfl⟩ := Option.map_eq_some_iff.1 h
      obtain ⟨z, hz, hzc⟩ := ih ht
      exact ⟨z, List.mem_cons_of_mem _ hz, hzc⟩

/-- What the error path notes lies in the intake and the overflow entries alone. -/
theorem State.noted_congr {s t : State} {c : Nat} (hi : t.err.intake = s.err.intake) (ho : t.err.overflow = s.err.overflow) :
    t.Noted c ↔ s.Noted c := by
  unfold State.Noted
  rw [hi, ho]

theorem State.notePeak_err (s : State) : s.notePeak.err = s.err :=
  setFld_keep (g := State.err) (P := fun _ => true) (fun _ _ _ _ => rfl) rfl s _ _

/-- The intake and the overflow entries after an event has entered. -/
theorem State.enqueue_err (s : State) (r : Rec) : (s.enqueue r).err =
    if s.err.intake.length < 32 then { s.err with intake := s.err.intake ++ [r] }
    else match joinIntake r s.err.intake with
      | some l => { s.err with intake := l }
      | none => { s.err with overflow := mset s.err.overflow (r.code / 4096) (overEntry (mfind s.err.overflow (r.code / 4096)) r) } := by
  unfold State.enqueue
  by_cases h : s.err.intake.length < 32
  · rw [if_pos h, if_pos h, State.notePeak_err]
  · rw [if_neg h, if_neg h]
    cases joinIntake r s.err.intake with
    | some l => exact State.satFld_err _ _ _ _
    | none =>
      dsimp only
      rw [State.satFld_err, State.notePeak_err]

/-- An event that has entered is noted. -/
theorem State.enqueue_noted (s : State) (r : Rec) : (s.enqueue r).Noted r.code := by
  unfold State.Noted
  rw [State.enqueue_err]
  split
  · exact Or.inl ⟨r, List.mem_append_right _ List.mem_cons_self, rfl⟩
  · split
    · rename_i l h
      exact Or.inl (joinIntake_self h)
    · refine Or.inr ?_
      dsimp only
      rw [mfind_mset, if_pos rfl]
      rfl

/-- Entering keeps every code that stood in the error path. -/
theorem State.enqueue_keeps (s : State) (r : Rec) {c : Nat} (h : s.Noted c) : (s.enqueue r).Noted c := by
  unfold State.Noted
  rw [State.enqueue_err]
  split
  · rcases h with ⟨x, hx, hc⟩ | h
    · exact Or.inl ⟨x, List.mem_append_left _ hx, hc⟩
    · exact Or.inr h
  · split
    · rename_i l e
      rcases h with h | h
      · exact Or.inl (joinIntake_mem e h)
      · exact Or.inr h
    · rcases h with h | h
      · exact Or.inl h
      · refine Or.inr ?_
        dsimp only
        rw [mfind_mset]
        split
        · rfl
        · exact h

/-- Capture changes no queue of the error path, and its record keeps its code. -/
theorem State.capture_err (s : State) (r : Rec) : (s.capture r).1.err = s.err :=
  capture_keep (g := State.err) (fun _ _ _ _ => rfl) (fun _ _ => rfl) (fun _ _ => rfl) s r

theorem State.capture_code (s : State) (r : Rec) : (s.capture r).2.code = r.code := by
  unfold State.capture
  split
  · rfl
  · split
    · rfl
    · dsimp only
      split
      · split <;> rfl
      · rfl

/-- A signature changes neither the intake nor the overflow entries. -/
theorem State.formSignature_noted (s : State) (r : Rec) (w : List (Nat × Nat)) (c : Nat) : (s.formSignature r w).Noted c ↔ s.Noted c := by
  unfold State.formSignature
  split
  · rfl
  · have key : ∀ u : State, ∀ l : List Nat, ∀ m : Output, ({ u with err := { u.err with undelivered := l } }.emit m).Noted c ↔ u.Noted c :=
      fun _ _ _ => Iff.rfl
    dsimp only
    rw [key]
    refine State.noted_congr (congrArg Err.intake ?_) (congrArg Err.overflow ?_) <;>
    · rw [wrapFld_keep (g := State.err) (P := fun _ => true) (fun _ _ _ _ => rfl) rfl,
        setRegs_keep (g := State.err) (P := fun _ => true) (fun _ _ _ _ => rfl) (fun _ => rfl)]
      split
      · exact State.satFld_err _ _ _ _
      · rfl

/-- A recorded event is noted. -/
theorem State.record_noted (s : State) (e : Ev) : (s.record e).Noted e.code := by
  unfold State.record
  dsimp only
  rw [State.formSignature_noted]
  have := State.enqueue_noted (s.capture (s.mkRec e)).1 (s.capture (s.mkRec e)).2
  rw [State.capture_code] at this
  exact this

/-- Recording keeps what was noted. -/
theorem State.record_keeps (s : State) (e : Ev) {c : Nat} (h : s.Noted c) : (s.record e).Noted c := by
  unfold State.record
  dsimp only
  rw [State.formSignature_noted]
  refine State.enqueue_keeps _ _ ?_
  exact (State.noted_congr (by rw [State.capture_err]) (by rw [State.capture_err])).2 h

/-- An event of no fatal class is noted. -/
theorem State.log_noted (s : State) (e : Ev) (h2 : e.code / 4096 ≠ 2) (h3 : e.code / 4096 ≠ 3) : (s.log e).Noted e.code := by
  rw [State.log_record s e h2 h3]
  exact s.record_noted e

/-- An event of no fatal class keeps what was noted. -/
theorem State.log_keeps (s : State) (e : Ev) (h2 : e.code / 4096 ≠ 2) (h3 : e.code / 4096 ≠ 3) {c : Nat} (h : s.Noted c) :
    (s.log e).Noted c := by
  rw [State.log_record s e h2 h3]
  exact s.record_keeps e h

end Sys2Proof.Machine
end

