-- ==== Sys2Proof/Laws/Harness.lean ====
section
/-! SUPPORT. Laws of the Harness: what a command that is done at once, a refused command, a started operation and a step show. -/
namespace Sys2Proof.Machine

section
variable {β : Type} {g : State → β} {P : Reg → Bool}

theorem harnDone_keep (h : BlindReg g P) (ho : BlindPend g) (o : BlindOut g) (p1 : P .harnStatus = true) (p2 : P .devIrqStat = true)
    (s : State) : g (s.harnDone none) = g s := by
  unfold State.harnDone
  dsimp only
  rw [devIrq_keep h ho o p2, putStatus_keep h p1]

theorem harnDoneVf_keep (h : BlindReg g P) (ho : BlindPend g) (o : BlindOut g) (p1 : P .harnStatus = true) (p2 : P .devIrqStat = true)
    (p3 : ∀ q, P (.partStrapStatus q) = true) (s : State) (vf : Option Nat) : g (s.harnDone vf) = g s := by
  unfold State.harnDone
  cases vf
  · dsimp only
    rw [devIrq_keep h ho o p2, putStatus_keep h p1]
  · dsimp only
    rw [devIrq_keep h ho o p2, putStatus_keep h (p3 _), putStatus_keep h p1]

end

theorem State.harnCommand_open (s : State) (cmd : Nat) (vf : Option Nat) (eff : State) (h : s.HarnOpen) : s.harnCommand cmd vf eff = eff := by
  obtain ⟨h1, h2, h3⟩ := h
  unfold State.harnCommand
  rw [h1, h2, h3]
  rfl

theorem State.harnDone_result (s : State) : (s.harnDone none).fld .harnStatus HarnStatus.result = 1 := by
  have b : BlindReg (fun s => s.fld .harnStatus HarnStatus.result) (fun r => decide (r ≠ .harnStatus)) := blindReg_fld _ rfl
  unfold State.harnDone
  dsimp only
  rw [devIrq_keep b (fun _ _ => rfl) (fun _ _ => rfl) rfl, State.putStatus_result]

/-- A refused command shows result 3 and HARN_REFUSED (R64, R67). -/
theorem State.harnRefuse_status (s : State) (cmd : Nat) :
    (s.harnRefuse cmd none).fld .harnStatus HarnStatus.result = 3 ∧ (s.harnRefuse cmd none).fld .harnStatus HarnStatus.code = 0x420A := by
  have b : ∀ f : Fld, BlindReg (fun s => s.fld .harnStatus f) Reg.ofErr := fun f => blindReg_fld f rfl
  unfold State.harnRefuse
  dsimp only
  rw [harnEvent_keep (b _) (fun _ _ => rfl) (fun _ _ => rfl) (fun _ _ => rfl),
    harnEvent_keep (b _) (fun _ _ => rfl) (fun _ _ => rfl) (fun _ _ => rfl), State.fld_setFld_apart _ _ _ _ rfl rfl,
    State.fld_setFld_apart _ _ _ _ rfl rfl, State.fld_setFld_self _ _ _ rfl, State.fld_setFld_apart _ _ _ _ rfl rfl,
    State.fld_setFld_self _ _ _ rfl]
  exact ⟨rfl, rfl⟩

end Sys2Proof.Machine
end

