-- ==== Sys2Proof/Laws/Ports.lean ====
section
/-! SUPPORT. Links, optics and the states of ports after an update of one of them. -/
namespace Sys2Proof.Machine

/-- The link of a port after a change of one. -/
theorem State.link_modLink (s : State) (k j : Nat) (f : Link → Link) : (s.modLink k f).link j = if j = k then f (s.link k) else s.link j := by
  show mget (mset s.fab.links k (f (s.link k))) j Link.idle = _
  unfold mget
  rw [mfind_mset]
  split
  · rfl
  · rfl

/-- The optics of a port after a change of one. -/
theorem State.opt_modOpt (s : State) (k j : Nat) (f : Opt → Opt) : (s.modOpt k f).opt j = if j = k then f (s.opt k) else s.opt j := by
  show mget (mset s.fab.opts k (f (s.opt k))) j Opt.idle = _
  unfold mget
  rw [mfind_mset]
  split
  · rfl
  · rfl

@[simp] theorem State.link_modOpt (s : State) (k j : Nat) (f : Opt → Opt) : (s.modOpt k f).link j = s.link j := (rfl)
@[simp] theorem State.opt_modLink (s : State) (k j : Nat) (f : Link → Link) : (s.modLink k f).opt j = s.opt j := (rfl)
@[simp] theorem State.reg_modOpt (s : State) (k : Nat) (f : Opt → Opt) (r : Reg) : (s.modOpt k f).reg r = s.reg r := (rfl)
@[simp] theorem State.reg_modLink (s : State) (k : Nat) (f : Link → Link) (r : Reg) : (s.modLink k f).reg r = s.reg r := (rfl)
@[simp] theorem State.portState_modOpt (s : State) (k j : Nat) (f : Opt → Opt) : (s.modOpt k f).portState j = s.portState j := (rfl)
@[simp] theorem State.portState_modLink (s : State) (k j : Nat) (f : Link → Link) : (s.modLink k f).portState j = s.portState j := (rfl)
@[simp] theorem State.carrying_modOpt (s : State) (k j : Nat) (f : Opt → Opt) : (s.modOpt k f).carrying j = s.carrying j := (rfl)
@[simp] theorem State.carrying_modLink (s : State) (k j : Nat) (f : Link → Link) : (s.modLink k f).carrying j = s.carrying j := (rfl)

/-- A CTRL message joins the ones to send. -/
theorem State.link_sendCtrl (s : State) (k j : Nat) (m : Ctrl) :
    (s.sendCtrl k m).link j = if j = k then { s.link k with ctrl := (s.link k).ctrl ++ [m] } else s.link j :=
  s.link_modLink k j _

/-- A CTRL request joins the ones to send and the unanswered ones. -/
theorem State.link_sendReq (s : State) (k j : Nat) (m : Ctrl) :
    (s.sendReq k m).link j = if j = k then { s.link k with
      ctrl := (s.link k).ctrl ++ [m], reqs := (s.link k).reqs.filter (fun r => r.msg ≠ m) ++ [⟨m, 1⟩] } else s.link j := by
  unfold State.sendReq
  rw [State.link_modLink]
  split
  · rw [State.link_sendCtrl, if_pos rfl]
  · rw [State.link_sendCtrl, if_neg ‹_›]

/-- The state of a port after a change of one. -/
theorem State.portState_setPort (s : State) (k j : Nat) {st : Nat} (h : st < 8) :
    (s.setPort k st).portState j = if j = k then st else s.portState j := by
  have key : ((s.setFld (.optPortState k) OptPortState.state st)).portState j = if j = k then st else s.portState j := by
    unfold State.portState
    split
    · rename_i e
      subst e
      rw [State.fld_setFld_self _ _ _ rfl]
      exact Nat.mod_eq_of_lt h
    · rename_i e
      exact State.fld_setFld_reg _ _ _ _ (fun x => e (by injection x))
  unfold State.setPort
  dsimp only
  split
  · rw [← key]
    exact State.fld_setFld_reg _ _ _ _ (fun x => nomatch x)
  · split
    · exact key
    · exact key

end Sys2Proof.Machine
end

