-- ==== Sys2Proof/Tests/Slice0.lean ====
section
/-! SUPPORT. Small tests: ill-formed commands that the check refuses, results that the rules of spec/ give for chosen values, and
for each statement states and operands that meet its hypotheses. -/
namespace Sys2Proof.Tests
open Sys2Proof.Machine

set_option Elab.async false

/-! ## States -/

/-- A grant of cores 0 and 1 and of device queues 0 and 1. -/
def grant : List (BitVec 32) := (List.range 48).map (fun i => if i = 1 then 3 else if i = 25 then 0x200 else 0)
/-- A partition with that grant. -/
def part : Part := { Part.fresh [] with grant := grant }
/-- A device without structure that has booted, no opaque value in it. -/
def bare : State := { State.reset with
  regs := [], flash := { State.reset.flash with fw0 := [], fw1 := [] },
  pkg := { State.reset.pkg with booted := true, bootDone := true, keySlots := [0, 0, 0, 0], fwKey := 0 } }
/-- A device in a state with one partition in a state. -/
def dev (d p : Nat) : State := ({ bare with
  host := { bare.host with linkUp := true, vfEnable := true, busMaster := 3 },
  parts := [(0, part)], cores := [(0, Core.fresh 0), (1, Core.fresh 1)] }.setFld .harnState HarnState.devState d).setFld (.partState 0)
    PartState.state p
/-- An Armed device with one Armed partition. -/
def armed : State := dev 2 2
/-- That device with port 3 in a state of R395 and nine good receive lines. -/
def port (st : Nat) : State := (armed.setPort 3 st).modOpt 3 (fun o => { o with lines := 511 })

/-! ## Ill-formed commands -/

theorem test_wf_core : Instr.wf (.reservedInstruction ⟨512, []⟩) = false ∧ Instr.wf (.reservedInstruction ⟨511, []⟩) = true := by decide
theorem test_wf_partition : Instr.wf (.release 32) = false ∧ Instr.wf (.release 31) = true := by decide
theorem test_wf_path : Instr.wf (.registerWrite (.vf 33) 0 0) = false ∧ Instr.wf (.registerWrite (.vf 0) 0 0) = false
    ∧ Instr.wf (.registerWrite (.vf 32) 0 0) = true := by decide
theorem test_ill_formed_stops : (match exec (.vfFlr 33) State.reset with | .fault .noSuchUnit => true | _ => false) = true := by
  decide +kernel

/-! ## The Harness -/

/-- The armed device with an operation of the Harness under way. -/
def busy (op : HarnOp) : State := { armed with harn := { armed.harn with op := some op } }
/-- A request to load partition 0 through the PF. -/
def req : StrapReq := ⟨0, 0x10000, 0x4000, true⟩
/-- An image of one section of a type: sixteen header pairs, one entry, the words. -/
def sectionImg (t : Nat) (ws : List Nat) : List (BitVec 64) :=
  ([0, 0, 0, 1] ++ List.replicate 12 0 ++ [t, 20, ws.length, 0] ++ ws).map gfPair

theorem witness_ArmAndDrainMoveTheDevice :
    (∀ d ∈ [1, 2], (dev d 1).HarnOpen ∧ (dev d 1).harnBusy = false ∧ (dev d 1).devState = d
      ∧ (∀ p ∈ (dev d 1).partNums, (dev d 1).partState p ≠ 2) ∧ (∃ p ∈ (dev d 2).partNums, (dev d 2).partState p = 2))
    ∧ (∀ s ∈ [{ dev 2 1 with harn := { (dev 2 1).harn with queue := [none] } }], s.harn.op = none ∧ s.harn.queue = none :: []
      ∧ ∀ p ∈ s.partNums, s.partState p ≠ 2)
    ∧ (∀ s ∈ [{ armed with harn := { armed.harn with queue := [none] } }], s.HarnOpen ∧ s.harn.op = none ∧ s.harn.queue ≠ [] ∧ s.harnBusy = true
      ∧ ∃ p ∈ s.partNums, s.partState p = 2)
    ∧ (∀ op ∈ [HarnOp.release 0 1, .strap req 1, .tree 1 1 false, .slotWrite 0], (busy op).HarnOpen ∧ (busy op).harn.op = some op ∧ (busy op).harnBusy = true)
    ∧ (∀ d ∈ [0, 3], (dev d 1).HarnOpen ∧ (dev d 1).devState = d) := by decide +kernel
theorem witness_RaiseSeqAndBootSettings : armed.HarnOpen ∧ armed.harnBusy = false ∧ armed.devState = 2
    ∧ ((busy (.release 0 1)).HarnOpen ∧ (busy (.release 0 1)).harnBusy = true ∧ (dev 1 1).HarnOpen ∧ (dev 1 1).devState ≠ 2)
    ∧ armed.pkg.booted = true ∧ armed.flash.current = some false ∧ (armed.flash.mark 0 true).current = some true
    ∧ ((dev 3 1).devState = 3 ∧ (dev 3 1).pkg.booted = true) ∧ gfOk (gfPair 3) = true ∧ gfOk 3 = false := by decide +kernel
theorem witness_TreeCommitsStart :
    ∀ s ∈ [((dev 0 0).setFld .harnPushAddr HarnPushAddr.addr 4096).setFld .harnPushLen HarnPushLen.len 128],
      s.HarnOpen ∧ s.harnBusy = false ∧ s.devState = 0 ∧ s.host.busMaster.getLsbD 0 = true
      ∧ s.fld .harnPushAddr HarnPushAddr.addr % 4096 = 0 ∧ s.fld .harnPushLen HarnPushLen.len % 8 = 0
      ∧ 128 ≤ s.fld .harnPushLen HarnPushLen.len
      ∧ (∀ d ∈ [1, 2, 3], ∀ x ∈ [s.setFld .harnState HarnState.devState d], x.HarnOpen ∧ x.harnBusy = false ∧ x.devState = d ∧ (d = 1 → x.drained = true))
      ∧ State.drained { s.setFld .harnState HarnState.devState 1 with fab := { s.fab with xfers := [(0, ⟨.replay 0 0, 0, 0, 1, false⟩)] } } = false
      ∧ ({ s with host := { s.host with busMaster := 2 } } : State).host.busMaster.getLsbD 0 = false
      ∧ (s.setFld .harnPushAddr HarnPushAddr.addr 4097).fld .harnPushAddr HarnPushAddr.addr % 4096 ≠ 0
      ∧ (s.setFld .harnPushLen HarnPushLen.len 0).fld .harnPushLen HarnPushLen.len / 8 = 0 := by decide +kernel
theorem witness_SlotWritesGuardTheSlot :
    (∀ v ∈ [0, 1], ∀ s ∈ [armed.setFld .harnBoot HarnBoot.preferred v], s.HarnOpen ∧ s.harnBusy = false ∧ s.devState = 2
      ∧ s.pkg.fwUpdate = none ∧ s.fld .harnBoot HarnBoot.preferred = v
      ∧ ({ s with pkg := { s.pkg with fwUpdate := some (1, []) } } : State).pkg.fwUpdate.isSome = true)
    ∧ (busy (.slotWrite 1)).harn.op = some (.slotWrite 1) := by decide +kernel
theorem witness_TreeCommitStepsAndTimeout :
    (∀ st ∈ [1, 2, 3, 5, 6], ∀ b ∈ [true, false], (busy (.tree 1 st b)).harn.op = some (.tree 1 st b))
    ∧ ((dev 0 0).devState = 0 ∧ (dev 0 0).harn.loader.todo = [])
    ∧ ({ (dev 0 0).harn with loader := { Loader.idle with todo := [(0, 8)] } } : Harn).loader.todo ≠ []
    ∧ (∀ n ∈ [7, 8], ∀ r ∈ [(⟨[⟨5, [], n⟩], []⟩ : TrainReport)], r.links.find? (fun x => x.link = 5) = some ⟨5, [], n⟩
      ∧ r.links.find? (fun x => x.link = 4) = none) := by decide +kernel
theorem witness_StrapRequestsAndUnload :
    (∀ s ∈ [{ dev 2 1 with harn := { (dev 2 1).harn with op := some (.strap req 1) } }],
      s.HarnOpen ∧ s.strapAllowed 0 = true ∧ s.harn.op = some (.strap req 1) ∧ s.queuedStraps < 32
      ∧ s.fld .harnPushAddr HarnPushAddr.addr % 4096 = 0 ∧ s.fld .harnPushLen HarnPushLen.len % 8 = 0)
    ∧ (∀ p ∈ [1, 2], ∀ s ∈ [{ dev 2 p with harn := { (dev 2 p).harn with queue := [some req] } }],
      s.harn.op = none ∧ s.harn.queue = some req :: [] ∧ s.strapAllowed req.part = decide (p = 1)
      ∧ s.host.busMaster.getLsbD (req.part + 1) = true ∧ req.viaPf = true)
    ∧ (armed.HarnOpen ∧ armed.harnBusy = false ∧ armed.partState 0 = 2 ∧ armed.fld (.partState 0) PartState.releasing = 0)
    ∧ (∀ s ∈ [{ dev 2 1 with harn := { (dev 2 1).harn with op := some (.release 3 2), queue := List.replicate 32 (some req) } }],
      s.HarnOpen ∧ s.strapAllowed 0 = true ∧ 32 ≤ s.queuedStraps)
    ∧ ((dev 2 1).harnBusy = false ∧ (dev 2 1).host.busMaster.getLsbD 1 = true ∧ (dev 2 1).host.vfEnable = true ∧ (mfind (dev 2 1).parts 0).isSome = true
      ∧ (dev 2 1).fld (.partStrapAddr 0) PartStrapAddr.addr % 4096 = 0 ∧ (dev 2 1).fld (.partStrapLen 0) PartStrapLen.len % 8 = 0
      ∧ armed.strapAllowed 0 = false) := by
  decide +kernel
/-- A strap image for partition 0 with empty SYNC_USE and REGION_TABLE sections, unsigned. -/
def strapImg : List (BitVec 64) :=
  ([0x5348524E, 0x20001, 172, 2, 0xA15264, 0, 0] ++ List.replicate 9 0 ++ [0x21, 24, 98, 0, 0x22, 122, 1, 0] ++ List.replicate 99 0
    ++ [0xFFFFFFFF] ++ List.replicate 48 0).map gfPair
theorem witness_StrapCommitAndReleaseSteps :
    (∀ s ∈ [{ dev 2 1 with harn := { (dev 2 1).harn with op := some (.strap req 3), loader := { (dev 2 1).harn.loader with
        img := gfPair (2 ^ 32 - 1) :: List.replicate 48 (gfPair 0) } } }],
      s.harn.loader.todo = [] ∧ wordAt (sigBlock (grains s.harn.loader.img)) 0 = 2 ^ 32 - 1
      ∧ (s.strapKey 0 s.harn.loader.img).isSome = true ∧ s.strapAllowed 0 = true)
    ∧ (armed.HarnOpen ∧ armed.harnBusy = false ∧ armed.devState = 2 ∧ (mfind armed.parts 0).isSome = true)
    ∧ (∀ st ∈ [1, 2, 3, 4], (busy (.release 0 st)).harn.op = some (.release 0 st) ∧ 0 ∈ (busy (.release 0 st)).coresOf 0)
    ∧ (∀ s ∈ [busy (.strap req 2)], s.harn.loader.bad = false ∧ ({ s.harn.loader with bad := true } : Loader).bad = true ∧ s.host.busMaster.getLsbD 1 = true
      ∧ s.strapCheck 0 = some 0x4201 ∧ s.strapKey 0 (List.replicate 49 (gfPair 1)) = none)
    ∧ (∀ s ∈ [{ dev 2 1 with harn := { (dev 2 1).harn with op := some (.strap req 1), loader := ⟨0x10000, 1376, strapImg, [], [(0, 172)], false, [(0, 0, 128)]⟩ } }],
      s.harn.loader.todo = [] ∧ s.strapCheck 0 = none ∧ s.host.busMaster.getLsbD 1 = true ∧ (0, 0, 128) ∈ s.harn.loader.rows)
    ∧ ((busy (.release 0 1)).harnBusy = true ∧ mfind armed.parts 5 = none) := by decide +kernel
/-! ## The host port -/

theorem witness_RegisterWritesFollowAccessCodes :
    bare.pkg.booted = true ∧ viewOf 0x28 = none ∧ (match pfPlace 0x28 with | .reg r => r.plain | _ => false) = true
    ∧ (mfind armed.parts 0).isSome = true ∧ armed.host.vfEnable = true ∧ armed.pkg.booted = true ∧ armed.devState ≠ 3
    ∧ ((dev 3 1).devState = 3 ∧ (pfPlace 0x28).whenFenced = false ∧ (pfPlace 0xF000000).whenFenced = true) ∧ mfind armed.parts 1 = none := by decide +kernel
theorem witness_MalformedAccessIsNotPerformed : Path.wf .pf = true ∧ Path.wf (.vf 32) = true ∧ bare.pkg.booted = true
    ∧ (4 ≠ 8) ∧ 12 % 8 ≠ 0 ∧ State.reset.pkg.booted = false := by decide +kernel
theorem witness_ReadsWithSideEffects : bare.pkg.booted = true ∧ State.reset.pkg.booted = false ∧ 22 < 23 := by decide +kernel
/-- Descriptor 5 of an engine in progress, waiting for `left` transfers. -/
def act (eng : Nat) (d : Desc) (left : Nat := 0) : Act := ⟨5, eng, d, false, left, false, [], 1, [], (0, 0, 0), [], []⟩
/-- The armed device with a read of the host under way, for core 0's descriptor 5 in progress or for the loader. -/
def reading (q : HostUse) (fn : Nat) (op : Option HarnOp) : State := { armed with
  cores := [(0, { Core.fresh 0 with active := [act 2 ⟨[], 0, 0, [], false⟩ 2] })]
  harn := { armed.harn with op := op }, host := { armed.host with reqs := [(7, ⟨fn, 4096, 64, q⟩)] } }
theorem witness_HostCompletionsReachTheirUser :
    (∀ s ∈ [reading (.dma 0 5 0) 1 none], ∃ a ∈ s.cores.flatMap (fun x => x.2.active), mfind s.host.reqs 7 = some ⟨1, 4096, 64, .dma 0 5 0⟩
      ∧ (mfind s.cores 0).map Core.active = some [a] ∧ a.id = 5 ∧ 2 ≤ a.left ∧ s.fld (.coreFault 0) CoreFault.cause = 0)
    ∧ (∀ s ∈ [reading .loader 0 (some (.tree 3 1 false))], mfind s.host.reqs 7 = some ⟨0, 4096, 64, .loader⟩
      ∧ s.harn.op = some (.tree 3 1 false) ∧ mfind s.host.reqs 8 = none)
    ∧ (reading .loader 1 (some (.strap req 2))).harn.op = some (.strap req 2) := by decide +kernel
theorem witness_FunctionResetsClearTheHostSide : armed.partState 0 = 2 ∧ armed.fld (.partState 0) PartState.releasing = 0
    ∧ armed.harn.op = none ∧ (∀ r st, armed.harn.op ≠ some (.strap r st)) := ⟨by decide +kernel, by decide +kernel, by decide +kernel,
      fun _ _ h => by rw [show armed.harn.op = none by decide +kernel] at h; cases h⟩
theorem witness_LinkUpAndUnmask : bare.pkg.booted = true ∧ bare.tapHolds = false ∧ Path.wf (.vf 1) = true ∧ 63 < 64
    ∧ ({ armed.host with msixPend := [64] }).msixPend = [pathFn (.vf 1) * 64 + 0] ∧ State.reset.pkg.booted = false
    ∧ (pathFn .pf = 0 ∧ pathFn (.vf 1) ≠ 0 ∧ armed.host.msixPend = []) := by decide +kernel

/-! ## Scalar threads -/

/-- Core 0 with thread 0 ready at program counter 0, where the word `w` stands; registers g1 to g3 hold `rs`. -/
def running (w : Nat) (rs : List (BitVec 64)) : Core := { Core.fresh 0 with
  taskSet := true, progEnv := [0, 4096, 0, 0, 0, 0], run := some 0
  threads := [(0, ⟨.ready, 0, rs.zipIdx.map (fun (v, i) => (i + 1, v)), [0, 4096, 0, 0, 0, 0], 0⟩)]
  spm := memWrite [] 0 (leBytes 4 w) }
/-- The armed device with that core. -/
def ready (w : Nat) (rs : List (BitVec 64)) : State := { armed with cores := [(0, running w rs), (1, Core.fresh 1)] }
/-- What `State.Runs` says, evaluated. -/
def State.runsNow (s : State) (c t w : Nat) : Bool := match mfind s.cores c with
  | none => false
  | some k => k.run = some t && !k.halted && k.awl.isNone && !s.isRetired c && (k.thread t).stat = .ready
      && decide ((k.thread t).pc < envAt (k.thread t).env 1) && k.fetch t = w
theorem runs_of {s : State} {c t w : Nat} (h : State.runsNow s c t w = true) : s.Runs c t w := by
  unfold State.runsNow at h
  split at h
  · cases h
  · rename_i k hk
    simp only [Bool.and_eq_true, decide_eq_true_eq, Bool.not_eq_true', Option.isNone_iff_eq_none] at h
    exact ⟨k, hk, h.1.1.1.1.1.1, h.1.1.1.1.1.2, h.1.1.1.1.2, h.1.1.1.2, h.1.1.2, h.1.2, h.2⟩
/-- The thread that is ready at a word runs it. -/
theorem ready_runs (rs : List (BitVec 64)) (ws : List Nat) (h : ws.all (fun w => State.runsNow (ready w rs) 0 0 w) = true) :
    ∀ w ∈ ws, (ready w rs).Runs 0 0 w := fun w hw => runs_of (List.all_eq_true.mp h w hw)

/-- That device with a second thread of the core. -/
def beside (st : TStat) (w : Nat) (rs : List (BitVec 64)) : State := { ready w rs with
  cores := mmod (ready w rs).cores 0 (fun k => { k with threads := k.threads ++ [(1, ⟨st, 0, [], [0, 4096, 0, 0, 0, 0], 0⟩)] }) }
/-- That device with far stores of the thread not acknowledged. -/
def owing (n w : Nat) (rs : List (BitVec 64)) : State := (ready w rs).modThread 0 0 (fun t => { t with unacked := n })
/-- What `all_runs` says of a state for a list of words. -/
theorem all_runs (f : Nat → State) (ws : List Nat) (h : ws.all (fun w => State.runsNow (f w) 0 0 w) = true) :
    ∀ w ∈ ws, (f w).Runs 0 0 w := fun w hw => runs_of (List.all_eq_true.mp h w hw)

theorem witness_AluRegisterResults :
    ∀ w ∈ (List.range 16).map (fun f => 3 * 2 ^ 4 + 1 * 2 ^ 9 + 2 * 2 ^ 14 + f * 2 ^ 19), (ready w [5, 0]).Runs 0 0 w :=
  ready_runs _ _ (by decide +kernel)
theorem witness_AluImmediateResults :
    ∀ w ∈ (7 + 3 * 2 ^ 4 + (2 ^ 23 - 1) * 2 ^ 9) ::
      [0, 2, 3, 4, 5, 6, 7, 8, 9].map (fun f => 1 + 3 * 2 ^ 4 + 1 * 2 ^ 9 + f * 2 ^ 14 + (2 ^ 13 - 1) * 2 ^ 19), (ready w [5]).Runs 0 0 w :=
  ready_runs _ _ (by decide +kernel)
theorem witness_BranchesAndJumps :
    (∀ w ∈ (6 + 3 * 2 ^ 4 + 2 * 2 ^ 9) :: (10 + 3 * 2 ^ 4 + 1 * 2 ^ 9 + 6 * 2 ^ 14 + 1 * 2 ^ 19) ::
      (List.range 6).map (fun f => 5 + 2 * 2 ^ 4 + 1 * 2 ^ 9 + f * 2 ^ 14 + (2 ^ 13 - 1) * 2 ^ 19), (ready w [8, 9]).Runs 0 0 w)
    ∧ ((8 : Int) + 4 * 1) % 2 ^ 64 % 4 = 0 ∧ ((9 : Int) + 4 * 1) % 2 ^ 64 % 4 ≠ 0
    ∧ (ready 6 [9]).fld (.coreFault 0) CoreFault.cause = 0 := ⟨ready_runs _ _ (by decide +kernel), by decide +kernel⟩
theorem witness_LocalLoadsAndStores :
    (∀ w ∈ [2, 3].map (fun cls => cls + 3 * 2 ^ 4 + 1 * 2 ^ 9 + 3 * 2 ^ 14), (ready w [4088]).Runs 0 0 w)
    ∧ (∀ w ∈ [2, 3].map (fun cls => cls + 3 * 2 ^ 4 + 1 * 2 ^ 9 + 3 * 2 ^ 14), (ready w [4089]).Runs 0 0 w)
    ∧ (∀ w ∈ [2, 3].map (fun cls => cls + 3 * 2 ^ 4 + 1 * 2 ^ 9 + 3 * 2 ^ 14), (ready w [4096]).Runs 0 0 w)
    ∧ (4088 % 8 = 0 ∧ 4088 + 8 ≤ 4096 ∧ 4089 % 8 ≠ 0 ∧ 4096 % 8 = 0 ∧ 4096 < 4096 + 8)
    ∧ (ready 3 [4088]).stepGuards (.spm 0) 4088 8 = false ∧ (ready 3 []).fld (.coreFault 0) CoreFault.cause = 0 :=
  ⟨ready_runs _ _ (by decide +kernel), ready_runs _ _ (by decide +kernel), ready_runs _ _ (by decide +kernel), by decide +kernel⟩
theorem witness_ReservedInstructionFaults :
    ((ready (11 + 2 ^ 31) []).Runs 0 0 (11 + 2 ^ 31) ∧ wordValid (11 + 2 ^ 31) = false
      ∧ (ready 0 []).fld (.coreFault 0) CoreFault.cause = 0)
    ∧ ∀ k ∈ [{ running 0 [] with threads := [(0, ⟨.ready, 4096, [], [0, 4096, 0, 0, 0, 0], 0⟩)] }],
      k.run = some 0 ∧ k.halted = false ∧ k.awl = none ∧ (ready 0 []).isRetired 0 = false ∧ (k.thread 0).stat = .ready
      ∧ envAt (k.thread 0).env 1 ≤ (k.thread 0).pc := ⟨⟨runs_of (by decide +kernel), by decide +kernel⟩, by decide +kernel⟩
theorem witness_ReservedInstructionFaults_upsets :
    ((State.upsets (ready 11 []) (.spm 0) [(0, 4)] [.spmLost 0 0 true]).2 ≠ .none
      ∧ (State.upsets (ready 11 []) (.spm 0) [(0, 4)] [.spmLost 0 0 true]).1.fld (.coreFault 0) CoreFault.cause = 0)
    ∧ (State.upsets (ready (11 + 2 ^ 31) []) (.spm 0) [(0, 4)] [.spmFixed 0 0]).2 = .none
    ∧ (State.upsets (ready (11 + 2 ^ 31) []) (.spm 0) [(0, 4)] [.spmFixed 0 0]).1.Runs 0 0 (11 + 2 ^ 31) :=
  ⟨by decide +kernel, by decide +kernel, runs_of (by decide +kernel)⟩
theorem witness_ControlAndStatusRegisters :
    (∀ w ∈ [0, 5, 0x100, 0x105, 0x200, 0x23F, 6].map (fun n => 10 + 3 * 2 ^ 4 + n * 2 ^ 19)
        ++ [0x101, 0x209, 0].map (fun n => 10 + 1 * 2 ^ 9 + 2 ^ 14 + n * 2 ^ 19), (ready w [4096]).Runs 0 0 w)
    ∧ ((ready 0 []).ownerOf 0 = some 0 ∧ csrKnown 6 = false ∧ csrWritable 0 = false)
    ∧ envWithin ((padEnv [0, 4096, 0, 0, 0, 0]).set 1 4096) [0, 4096, 0, 0, 0, 0] = true
    ∧ envWithin ((padEnv [0, 4096, 0, 0, 0, 0]).set 1 4097) [0, 4096, 0, 0, 0, 0] = false :=
  ⟨ready_runs _ _ (by decide +kernel), by decide +kernel⟩
theorem witness_ThreadsStartYieldAndEnd :
    (∀ w ∈ [10 + 3 * 2 ^ 4 + 1 * 2 ^ 9 + 2 * 2 ^ 14, 10 + 3 * 2 ^ 14, 10 + 4 * 2 ^ 14, 10 + 5 * 2 ^ 14], (ready w [1]).Runs 0 0 w)
    ∧ (((running 0 []).thread 1).started = false ∧ ((running 0 []).thread 0).started = true)
    ∧ ((running 0 []).busyThread 0 = false
      ∧ Core.busyThread { running 0 [] with active := [act 2 ⟨[], 0, 0, [], false⟩ 2] } 0 = true)
    ∧ (ready 0 []).isRetired 0 = false ∧ ((ready 0 []).thread 0 0).unacked = 0 :=
  ⟨ready_runs _ _ (by decide +kernel), by decide +kernel⟩
theorem witness_ThreadsStartYieldAndEnd_others :
    (∀ w ∈ [10 + 3 * 2 ^ 4 + 1 * 2 ^ 9 + 2 * 2 ^ 14], (ready w [2 ^ 33]).Runs 0 0 w)
    ∧ (∀ w ∈ [10 + 3 * 2 ^ 4 + 1 * 2 ^ 9 + 2 * 2 ^ 14], (ready w [0]).Runs 0 0 w)
    ∧ (∀ w ∈ [10 + 4 * 2 ^ 14], (beside .ready w []).Runs 0 0 w)
    ∧ (∀ w ∈ [10 + 5 * 2 ^ 14], (owing 1 w []).Runs 0 0 w)
    ∧ (2 ^ 33 / 2 ^ 32 % 4 ≠ 0 ∧ ((owing 1 0 []).thread 0 0).unacked ≠ 0 ∧ (ready 0 []).fld (.coreFault 0) CoreFault.cause = 0
      ∧ ∀ y ∈ (beside .ready 0 []).cores, y.1 = 0 → (1, y.2.thread 1) ∈ y.2.threads ∧ (y.2.thread 1).stat = .ready ∧ y.2.busyThread 0 = false) :=
  ⟨ready_runs _ _ (by decide +kernel), ready_runs _ _ (by decide +kernel), all_runs (fun w => beside .ready w []) _ (by decide +kernel),
    all_runs (fun w => owing 1 w []) _ (by decide +kernel), by decide +kernel⟩

/-! ## Synchronisation -/

/-- Everything that a SYNC_USE section can list: core 0's tacks, grid tacks, and cinch line 5 with thread 0 of core 0. -/
def listed (s : State) : State := { s with
  cores := mmod s.cores 0 (fun k => { k with tacksUsed := BitVec.allOnes 32 })
  parts := [(0, { part with gtUsed := BitVec.allOnes 1024, gtSettable := BitVec.allOnes 1024, lines := [⟨5, false, 1, [0]⟩] })] }
theorem witness_CoreTacksSetClearAndWait :
    (∀ w ∈ (9 + 31 * 2 ^ 4 + 4 * 2 ^ 14 + 3 * 2 ^ 9) :: [0, 1, 2, 3].map (fun fn => 9 + 31 * 2 ^ 4 + fn * 2 ^ 14), (ready w []).Runs 0 0 w)
    ∧ (∀ v ∈ [0, 2 ^ 31], ∀ s ∈ [(listed (ready 9 [])).setFld (.coreTack 0) CoreTack.value v], s.usesTack 0 31 = true
      ∧ (s.fld (.coreTack 0) CoreTack.value).testBit 31 = decide (v ≠ 0) ∧ s.fld (.coreSyncStat 0) CoreSyncStat.redundant + 1 < 2 ^ 32)
    ∧ (ready 9 []).usesTack 0 31 = false ∧ (ready 9 []).fld (.coreFault 0) CoreFault.cause = 0
    ∧ ((running 9 []).threads.map (fun x => x.2.stat)) = [.ready] := ⟨ready_runs _ _ (by decide +kernel), by decide +kernel⟩
theorem witness_CoreTacksSetClearAndWait_parked : ∀ cl ∈ [true, false],
    (listed (beside (.parked (.tack 31 cl)) (9 + 31 * 2 ^ 4) [])).Runs 0 0 (9 + 31 * 2 ^ 4)
    ∧ (listed (beside (.parked (.tack 31 cl)) (9 + 31 * 2 ^ 4) [])).usesTack 0 31 = true
    ∧ ∀ y ∈ (listed (beside (.parked (.tack 31 cl)) 9 [])).cores, y.1 = 0 → (1, y.2.thread 1) ∈ y.2.threads ∧ (y.2.thread 1).stat = .parked (.tack 31 cl) := by
  intro cl h
  simp only [List.mem_cons, List.not_mem_nil, or_false] at h
  rcases h with rfl | rfl <;> exact ⟨runs_of (by decide +kernel), by decide +kernel, by decide +kernel⟩
theorem witness_GridTacksSetClearAndWait :
    (∀ w ∈ (9 + 4 * 2 ^ 4 + 5 * 2 ^ 14 + 1023 * 2 ^ 19 + 3 * 2 ^ 9) :: [0, 1, 2, 3].map (fun sub => 9 + sub * 2 ^ 4 + 5 * 2 ^ 14 + 1023 * 2 ^ 19),
      (ready w []).Runs 0 0 w)
    ∧ (listed (ready 9 [])).usesGtack 0 1023 = true ∧ (ready 9 []).usesGtack 0 1023 = false ∧ (ready 9 []).gtacks.getLsbD 1023 = false
    ∧ (BitVec.allOnes 1024).getLsbD 1023 = true ∧ (ready 9 []).fld (.coreFault 0) CoreFault.cause = 0 :=
  ⟨ready_runs _ _ (by decide +kernel), by decide +kernel⟩
theorem witness_GridTacksSetClearAndWait_parked : ∀ cl ∈ [true, false],
    (listed (beside (.parked (.gtack 1023 cl)) (9 + 5 * 2 ^ 14 + 1023 * 2 ^ 19) [])).Runs 0 0 (9 + 5 * 2 ^ 14 + 1023 * 2 ^ 19)
    ∧ (listed (beside (.parked (.gtack 1023 cl)) (9 + 5 * 2 ^ 14 + 1023 * 2 ^ 19) [])).usesGtack 0 1023 = true
    ∧ ∀ y ∈ (listed (beside (.parked (.gtack 1023 cl)) 9 [])).cores, y.1 = 0 → mfind (listed (beside (.parked (.gtack 1023 cl)) 9 [])).cores 0 = some y.2
      ∧ (1, y.2.thread 1) ∈ y.2.threads ∧ (y.2.thread 1).stat = .parked (.gtack 1023 cl) := by
  intro cl h
  simp only [List.mem_cons, List.not_mem_nil, or_false] at h
  rcases h with rfl | rfl <;> exact ⟨runs_of (by decide +kernel), by decide +kernel, by decide +kernel⟩
theorem witness_CinchLinesGatherAndRelease :
    (∀ w ∈ [9 + 6 * 2 ^ 14 + 5 * 2 ^ 19], (ready w []).Runs 0 0 w)
    ∧ (∀ s ∈ [listed (ready 9 [])], s.ownerOf 0 = some 0 ∧ s.lineUse 0 5 = some ⟨5, false, 1, [0]⟩ ∧ s.lineUse 0 6 = none
      ∧ (1 : BitVec 8).getLsbD 0 = true ∧ (1 : BitVec 8).getLsbD 1 = false ∧ s.linePart 5 = some (0, ⟨5, false, 1, [0]⟩)
      ∧ (s.thread 0 0).unacked = 0 ∧ s.allArrived ⟨5, false, 1, [0]⟩ = false
      ∧ State.allArrived { s with cinches := [(5, ⟨[0], false, []⟩)] } ⟨5, false, 1, [0]⟩ = true
      ∧ (s.modThread 0 0 (fun t => { t with stat := .parked (.cinch 5) })).thread 0 0 ≠ s.thread 0 0 ∧ ((owing 1 9 []).thread 0 0).unacked ≠ 0
      ∧ State.runsNow (owing 1 (9 + 6 * 2 ^ 14 + 5 * 2 ^ 19) []) 0 0 (9 + 6 * 2 ^ 14 + 5 * 2 ^ 19) = true
      ∧ s.fld (.coreFault 0) CoreFault.cause = 0) := ⟨ready_runs _ _ (by decide +kernel), by decide +kernel⟩
theorem witness_ReceiveCountersArmAndWait :
    (0x80000003F / 64 % 2 ^ 26 = 0 ∧ 0x80000003F % 64 = 63 ∧ 0x80000003F / 2 ^ 32 = 8)
    ∧ (∀ w ∈ [9 + 1 * 2 ^ 9 + 7 * 2 ^ 14 + 1023 * 2 ^ 19, 9 + 2 ^ 4 + 1 * 2 ^ 9 + 7 * 2 ^ 14], (ready w [0x80000003F]).Runs 0 0 w)
    ∧ (reached 7 8 = false ∧ reached 8 8 = true ∧ reached 0 0 = true) ∧ 64 / 64 % 2 ^ 26 ≠ 0 :=
  ⟨by decide +kernel, ready_runs _ _ (by decide +kernel), by decide +kernel⟩
theorem witness_IssueCapturesTheDescriptor :
    (∀ w ∈ [8 + 1 * 2 ^ 4 + 2 ^ 7 + 8 * 2 ^ 9, 8 + 1 * 2 ^ 4 + 1 * 2 ^ 9], (ready w [4032]).Runs 0 0 w)
    ∧ (4032 % 64 = 0 ∧ 4032 + 64 ≤ 4096)
    ∧ headerBad 0x100000000000001 1 = false ∧ headerBad 0 1 = true
    ∧ (∀ d ∈ [(⟨[0x100000000000001], 0, 0, [], false⟩ : Desc)], (ready 8 []).tackListed 0 d.wait = true ∧ (ready 8 []).tackListed 0 d.set = true)
    ∧ (∀ d ∈ [(⟨[0x100000000001001], 0, 0, [], false⟩ : Desc)], headerBad 0x100000000001001 1 = false ∧ (ready 8 []).tackListed 0 d.wait = false)
    ∧ ((running 8 []).queue 1).length < 16
    ∧ 16 ≤ (Core.queue { running 8 [] with queues := [(1, List.replicate 16 ⟨[1], 0, 0, [], false⟩)] } 1).length :=
  ⟨ready_runs _ _ (by decide +kernel), by decide +kernel⟩
theorem witness_IssueCapturesTheDescriptor_stops :
    (∀ w ∈ [8 + 1 * 2 ^ 4 + 2 ^ 7 + 7 * 2 ^ 9], (ready w []).Runs 0 0 w)
    ∧ (∀ w ∈ [8 + 1 * 2 ^ 4 + 1 * 2 ^ 9], (ready w [4033]).Runs 0 0 w) ∧ (∀ w ∈ [8 + 1 * 2 ^ 4 + 1 * 2 ^ 9], (ready w [4096]).Runs 0 0 w)
    ∧ (4033 % 64 ≠ 0 ∧ 4096 % 64 = 0 ∧ 4096 < 4096 + 64)
    ∧ (State.readSpans (ready 8 []) (.spm 0) [(4032, 64)] [.spmLost 0 4032 true]).2.2 ≠ .none
    ∧ (State.readSpans (ready 8 []) (.spm 0) [(4032, 64)] [.spmLost 0 4032 true]).1.fld (.coreFault 0) CoreFault.cause = 0 :=
  ⟨ready_runs _ _ (by decide +kernel), ready_runs _ _ (by decide +kernel), ready_runs _ _ (by decide +kernel), by decide +kernel⟩

/-! ## Remote access -/

/-- A device that plays logical node 0 and whose partition 0 reaches itself and partition 1 there. -/
def netted (s : State) : State :=
  (((s.setReg (.fabXlate 0) (gfPair 1024)).setReg (.fabReach 0 0) (gfPair 0x10400)).setReg (.fabReach 0 1) (gfPair 0x101)).setReg
    (.fabReach 0 2) (gfPair 0x100000)
/-- A packet of operation `op` from core 0 of this device to its scratchpad, for `n` bytes. -/
def packet (op n : Nat) (data : List Byte) : Pkt :=
  ⟨op, 0, 0, 0, 64, 0, 0, 0, 0, 0, 9, false, 0, 0, false, false, 0, 0, 0, 0, n, data⟩
/-- That packet waiting, all its flits received. -/
def waiting (op n : Nat) (data : List Byte) : WaitPkt := ⟨none, 3, 1, 1, packet op n data⟩
/-- The armed device where it waits. -/
def arrived (w : WaitPkt) : State := { netted (listed (ready 0 [])) with fab := { armed.fab with waiting := [w] } }
theorem witness_FarAccessesToTheOwnScratchpad :
    (∀ w ∈ (List.range 13).map (fun fn => 4 + 4 * 2 ^ 4 + 1 * 2 ^ 9 + 2 * 2 ^ 14 + fn * 2 ^ 19 + 3 * 2 ^ 24), (ready w [4080, 7, 9]).Runs 0 0 w)
    ∧ (∀ s ∈ [ready 4 [4080, 7, 9]], s.noLogical = false ∧ s.ownLnode = 0 ∧ s.ownerOf 0 = some 0 ∧ (s.gpr 0 0 1).toNat = 4080
      ∧ 4080 % 16 = 0 ∧ 4080 + 16 ≤ envAt (s.thread 0 0).env 1 ∧ s.stepGuards (.spm 0) 4080 16 = false
      ∧ (Acc.ofLp (leNat (memRead (running 4 []).spm 4080 16))).wide = false) := ⟨ready_runs _ _ (by decide +kernel), by decide +kernel⟩
theorem witness_FarAccessesToTheOwnScratchpad_stops :
    (∀ w ∈ (List.range 13).map (fun fn => 4 + 4 * 2 ^ 4 + 1 * 2 ^ 9 + 2 * 2 ^ 14 + fn * 2 ^ 19 + 3 * 2 ^ 24), (ready w [4081, 7, 9]).Runs 0 0 w)
    ∧ (∀ w ∈ (List.range 13).map (fun fn => 4 + 4 * 2 ^ 4 + 1 * 2 ^ 9 + 2 * 2 ^ 14 + fn * 2 ^ 19 + 3 * 2 ^ 24), (ready w [4096, 7, 9]).Runs 0 0 w)
    ∧ (∀ w ∈ [4 + 4 * 2 ^ 4 + 1 * 2 ^ 9 + 2 * 2 ^ 14 + 2 ^ 19], (owing 16 w [4080, 7]).Runs 0 0 w)
    ∧ ((ready 4 []).fld (.coreFault 0) CoreFault.cause = 0 ∧ 16 ≤ ((owing 16 4 []).thread 0 0).unacked
      ∧ (Acc.ofLp (2 ^ 126)).wide = true ∧ leNat (memRead (memWrite [] 4080 (leBytes 16 (2 ^ 126))) 4080 16) = 2 ^ 126) :=
  ⟨ready_runs _ _ (by decide +kernel), ready_runs _ _ (by decide +kernel), all_runs (fun w => owing 16 w [4080, 7]) _ (by decide +kernel), by decide +kernel⟩
theorem witness_FarRequestsBecomePackets :
    (∀ w ∈ [4 + 4 * 2 ^ 4 + 1 * 2 ^ 9 + 2 * 2 ^ 14, 4 + 4 * 2 ^ 4 + 1 * 2 ^ 9 + 2 * 2 ^ 14 + 2 ^ 19, 9 + 5 * 2 ^ 4 + 1 * 2 ^ 9 + 5 * 2 ^ 14 + 3 * 2 ^ 19],
      (ready w [0x2000000000040, 7]).Runs 0 0 w)
    ∧ (bitsOf 0x2000000000040 54 10 = 0 ∧ bitsOf 0x2000000000040 49 5 = 1 ∧ bitsOf 0x2000000000040 46 3 = 0 ∧ 0x2000000000040 % 8 = 0
      ∧ wbits 0x2000000000040 39 10 = 0)
    ∧ (∀ s ∈ [netted (ready 4 [])], s.injectStopped 0 = false ∧ s.xlate 0 = some s.ownNode ∧ s.inReach 0 0 1 = true
      ∧ 0 / 32 = s.ownLnode / 32 ∧ (s.thread 0 0).unacked < 16
      ∧ s.xlate 5 = none ∧ bitsOf (5 * 2 ^ 54 + 0x2000000000040) 54 10 = 5 ∧ wbits (BitVec.ofNat 64 (2 ^ 39)) 39 10 ≠ 0
      ∧ s.inReach 0 0 3 = false ∧ s.fld (.coreFault 0) CoreFault.cause = 0) := ⟨ready_runs _ _ (by decide +kernel), by decide +kernel⟩
theorem witness_FarRequestsBecomePackets_stops :
    (∀ w ∈ [4 + 4 * 2 ^ 4 + 1 * 2 ^ 9 + 2 * 2 ^ 14], (ready w [BitVec.ofNat 64 (5 * 2 ^ 54 + 0x2000000000040)]).Runs 0 0 w)
    ∧ (∀ w ∈ [9 + 5 * 2 ^ 4 + 1 * 2 ^ 9 + 5 * 2 ^ 14 + 3 * 2 ^ 19], (ready w [BitVec.ofNat 64 (2 ^ 39)]).Runs 0 0 w)
    ∧ (∀ w ∈ [4 + 4 * 2 ^ 4 + 1 * 2 ^ 9 + 2 * 2 ^ 14 + 2 ^ 19, 9 + 5 * 2 ^ 4 + 1 * 2 ^ 9 + 5 * 2 ^ 14 + 3 * 2 ^ 19], (owing 16 w [0x2000000000040]).Runs 0 0 w) :=
  ⟨ready_runs _ _ (by decide +kernel), ready_runs _ _ (by decide +kernel), all_runs (fun w => owing 16 w [0x2000000000040]) _ (by decide +kernel)⟩
theorem witness_StoresArriveAtTheirPlace :
    (∀ op ∈ [8, 0x10, 0x18, 0x19], ∀ w ∈ [waiting op 4 [1, 2, 3, 4]], ∀ s ∈ [arrived w],
      s.waitingPkt 0 (fun p => p.op = op || isReservedOp p.op) = some w ∧ w.pkt.data.length = w.pkt.length
      ∧ s.checkPacket w = .inl (some (.spm 0, 64)) ∧ w.pkt.flagged = false)
    ∧ (∀ w ∈ [waiting 9 8 (leBytes 8 1023)], State.waitingPkt (arrived w) 0 (fun p => p.op = 9 || isReservedOp p.op) = some w
      ∧ State.checkPacket { arrived w with parts := [(0, { part with grant := grant.set 22 (1024 * 65536), gtSettable := BitVec.allOnes 1024 })] } w = .inl none ∧ bitsOf (leNat w.pkt.data) 0 10 = 1023)
    ∧ (∀ w ∈ [{ waiting 8 4 [1, 2, 3, 4] with pkt := { packet 8 4 [1, 2, 3, 4] with flagged := true, flagCount := 8 } }],
      w.pkt.flagged = true ∧ reached 0 w.pkt.flagCount = false ∧ reached 8 w.pkt.flagCount = true
      ∧ (arrived w).spaceLoc 0 w.pkt.space w.pkt.offset w.pkt.span = some (.spm 0, 64) ∧ (arrived w).stepGuards (.spm 0) 64 w.pkt.span = false
      ∧ (mfind (arrived w).parts 0).isSome = true ∧ ((arrived w).heldPkts 0).length < 16
      ∧ ∀ n ∈ [15, 16], ((State.heldPkts { arrived w with parts := [(0, { part with held := List.replicate n w })] } 0).length < 16 ↔ n = 15))
    ∧ (∀ w ∈ [{ waiting 8 4 [1, 2, 3, 4] with pkt := { packet 8 4 [1, 2, 3, 4] with srcPart := 2 } }], (arrived w).checkPacket w = .inr cNode) := by
  decide +kernel
theorem witness_LoadsAndAtomicsArriveAtTheirPlace :
    (∀ w ∈ [waiting 0 16 (leBytes 16 8)], ∀ s ∈ [arrived w], s.checkPacket w = .inl (some (.spm 0, 64)) ∧ w.pkt.srcNode = s.ownNode
      ∧ s.logicalOf s.ownNode = some s.ownLnode ∧ s.waitingPkt 0 (fun p => p.op = 0 || isReservedOp p.op) = some w)
    ∧ (∀ fn ∈ [2, 3, 5, 6, 7, 8, 9, 0xA, 0xB, 0xC], ∀ w ∈ [waiting 1 24 (leBytes 24 (7 + fn * 2 ^ 128))], ∀ s ∈ [arrived w],
      s.checkPacket w = .inl (some (.spm 0, 64)) ∧ s.waitingPkt 0 (fun p => p.op = 1 || isReservedOp p.op) = some w
      ∧ bitsOf (leNat w.pkt.data) 128 8 = fn ∧ w.pkt.span = farSize fn) := by decide +kernel
theorem witness_AnswersReachWhoWaits :
    (∀ op ∈ [0x20, 0x21, 0x22], ∀ w ∈ [waiting op 8 (leBytes 8 (1 + 2 ^ 8))], State.waitingPkt (arrived w) 0 (fun p => p.op = op) = some w
      ∧ bitsOf (leNat w.pkt.data) 0 6 = 1 ∧ bitsOf (leNat w.pkt.data) 8 6 = 1)
    ∧ (∀ st ∈ [TStat.parked (.far 3), .parked .fence, .ready],
        ∀ k ∈ [{ running 0 [] with threads := [(0, (⟨st, 0, [], [], 1⟩ : Thread))] }], (k.thread 0).stat = st ∧ (k.thread 0).unacked = 1)
    ∧ (∀ s ∈ [netted armed], s.logicalOf s.ownNode = some s.ownLnode)
    ∧ (∀ op ∈ [0x20, 0x21, 0x22], ∀ w ∈ [waiting op 8 (leBytes 8 (1 + 2 ^ 8))], (arrived w).takesPackets w.pkt.dstPart = true ∧ (arrived w).letsIn w.pkt = true
      ∧ (arrived w).letsIn { w.pkt with srcPart := 2 } = false ∧ (mfind (arrived w).cores 0).isSome = true ∧ (arrived w).fld (.coreFault 0) CoreFault.cause = 0)
    ∧ ([(9, (⟨.farStore 0 0 0, 0, 0, 1, false⟩ : Xfer))]).find? (fun x => x.1 = (packet 0x21 8 []).tag) = some (9, ⟨.farStore 0 0 0, 0, 0, 1, false⟩)
    ∧ ([⟨0, 0, 9, 0, 0, 0, 0, 0, 0, 1⟩] : List PendAck)[0]? = some ⟨0, 0, 9, 0, 0, 0, 0, 0, 0, 1⟩ := by decide +kernel

/-! ## Engines -/

/-- A descriptor of thread 0 in an envelope of 16 KiB: engine, operation and body. -/
def desc (eng op : Nat) (body : List Nat) : Desc :=
  ⟨BitVec.ofNat 64 (eng + 16 * op + 2 ^ 56) :: body.map (BitVec.ofNat 64), 0, 0, [0, 16384, 0, 0, 0, 0], false⟩
/-- The device with that descriptor at the head of its engine's queue, `acts` in progress, and bytes in the scratchpad. -/
def headed (d : Desc) (acts : List Act) (spm : Mem) : State :=
  let s := (((((netted (listed (ready 0 []))).setReg (.coreMxState 0) (BitVec.allOnes 64)).setFld (.optSlewPart 0) OptSlewPart.allowance 2048).setReg
    (.fabXlate 1) (gfPair 1025)).setReg (.fabReach 0 0) (gfPair 0x20400)).setReg (.fabRoute 1) (gfPair 14)
  { s.setPort 3 3 with
    cores := mmod s.cores 0 (fun k => { k with queues := [(d.f 0 0 4, [d])], active := acts, spm := spm })
    parts := mmod s.parts 0 (fun q => { q with bucket := 1 }) }
/-- The device with that descriptor at the head, and block 0 of the scratchpad VALID with check value `v`. -/
def checked (d : Desc) (v : BitVec 32) : State := { headed d [] [] with
  cores := mmod (headed d [] []).cores 0 (fun k => { k with blk := [(0, ⟨v, true⟩)] }) }
/-- A VALID block whose check value is 0 in one state and 1 in another that holds the same bytes mismatches in one of them. -/
theorem mismatch_some (f : BitVec 32 → State) (spans : List Span) (hb : (blocksOf spans).contains 0 = true) (hc : coversBlock spans 0 = true)
    (h0 : (f 0).blkOf (.spm 0) 0 = ⟨0, true⟩) (h1 : (f 1).blkOf (.spm 0) 0 = ⟨1, true⟩)
    (hs : (mfind (f 0).cores 0).map Core.spm = (mfind (f 1).cores 0).map Core.spm) : ∃ v, (f v).mismatch (.spm 0) spans = true := by
  have hp : (f 0).peekBlock (.spm 0) 0 = (f 1).peekBlock (.spm 0) 0 := by
    unfold State.peekBlock State.readSpan
    rcases e0 : mfind (f 0).cores 0 with _ | k0 <;> rcases e1 : mfind (f 1).cores 0 with _ | k1 <;> rw [e0, e1] at hs <;>
      simp only [Option.map_none, Option.map_some, Option.some.injEq, reduceCtorEq] at hs
    · simp only [e0, e1]
    · simp only [e0, e1, hs]
  have key : ∀ v x, (f v).blkOf (.spm 0) 0 = ⟨x, true⟩ → crc32c ((f v).peekBlock (.spm 0) 0) ≠ x.toNat → (f v).mismatch (.spm 0) spans = true := by
    intro v x hx hn
    unfold State.mismatch
    refine List.any_eq_true.mpr ⟨0, by simpa using hb, ?_⟩
    simp only [hc, hx, Bool.true_and, bne_iff_ne]
    exact hn
  by_cases h : crc32c ((f 0).peekBlock (.spm 0) 0) = (0 : BitVec 32).toNat
  · exact ⟨1, key 1 1 h1 (by rw [← hp, h]; decide)⟩
  · exact ⟨0, key 0 0 h0 h⟩

theorem witness_CoresResumeStopAndComplete :
    (∀ b ∈ [true, false], ∀ k ∈ [{ Core.fresh 0 with halted := b }], k.halted = b ∧ k.active = [])
    ∧ (armed.isRetired 0 = false ∧ State.isRetired (armed.setFld (.coreMxState 0) CoreMxState.stripOk 15) 0 = false)
    ∧ (∀ d ∈ [desc 1 1 [0, 0, 0, 0, 0, 0, 0]], ∀ a ∈ [act 1 d], ∀ s ∈ [headed d [a] []], (s.actsOf 0 1)[0]? = some a ∧ s.actReady 0 a = true
      ∧ s.actReady 0 { a with left := 1 } = false ∧ a.silent = false ∧ a.failed = false)
    ∧ (armed.pkg.booted = true ∧ armed.devState ≠ 3 ∧ (dev 3 1).devState = 3)
    ∧ (desc 1 0 []).set = (0, 0) ∧ (⟨[BitVec.ofNat 64 (2 ^ 25 + 31 * 2 ^ 27 + 2 ^ 37)], 0, 0, [], false⟩ : Desc).set = (1, 31)
    ∧ (⟨[BitVec.ofNat 64 (2 ^ 25 + 31 * 2 ^ 27 + 2 ^ 37)], 0, 0, [], false⟩ : Desc).f 0 37 1 = 1 := by decide +kernel

/-- One strip, `m` by `m` outputs, 64 positions of BF16, from zero: rows of A in the lower and columns of B in the upper half of
block 0. -/
def mmaBody (m : Nat) : List Nat := [2048 * 2 ^ 21, 128 + 128 * 2 ^ 21, 64 + 256 + 4096 + m * 2 ^ 16 + m * 2 ^ 23 + 2 * 2 ^ 36, 0, 0, 0, 0]
/-- The state in which a matrix operation of core 0 has its effect. -/
def begun (s : State) (d : Desc) : State := (s.popHead 0 0 d).noteUnit 0 d
theorem witness_MatrixProductsAccumulate :
    (∀ d ∈ [desc 0 1 (mmaBody 15)], ∀ s ∈ [headed d [] []], s.head 0 0 = some (0, d) ∧ s.actsOf 0 0 = [] ∧ s.slewOk 0 (d.stripIds 0) = true
      ∧ State.slewOk (s.setFld (.optSlewPart 0) OptSlewPart.allowance 0) 0 (d.stripIds 0) = false
      ∧ State.mmaOk (begun s d) 0 d = true ∧ inEnv d (mmaSpans d 64 (List.range 15)) = true
      ∧ State.mismatch (begun s d) (.spm 0) (relSpans d (mmaSpans d 64 ((List.range 15).filter (bitAt (2 ^ 64 - 1))) ++ [])) = false
      ∧ mxConflict (act 0 d).desc d = true ∧ metaBad 0 64 [] = false)
    ∧ (∀ d ∈ [desc 0 1 [0, 0, 0, 0, 0, 0, 1]], ∀ s ∈ [headed d [] []], s.slewOk 0 (d.stripIds 0) = true ∧ State.mmaOk (begun s d) 0 d = false)
    ∧ (∀ b ∈ [0, 1], ∀ d ∈ [desc 0 5 [0, 0, 2 ^ 16 + 2 ^ 23, b, 0, 0, 0]], ∀ s ∈ [headed d [] []], s.head 0 0 = some (0, d)
      ∧ (State.mxCommonOk (begun s d) 0 d && otherBodyOk d false false) = decide (b = 0))
    ∧ (∀ d ∈ [desc 0 1 (mmaBody 15)], ∀ s ∈ [headed d [] []], s.reshapes 0 d = false
      ∧ State.reshapes { s with cores := mmod s.cores 0 (fun k => { k with matrix := { k.matrix with lastShape := [(0, 1)] } }) } 0 d = true
      ∧ (∃ x ∈ (act 0 d).desc.strips, x ∈ d.strips) ∧ s.failedUnits 0 0 = [0] ∧ ((begun s d).failedUnits 0 0).contains 1 = false)
    ∧ (mfind armed.cores 0).isSome = true ∧ armed.isRetired 0 = false
    ∧ (∀ m ∈ [3, 7, 15], (popcount 4 m ≤ 2 ↔ m = 3)) := by decide +kernel
theorem witness_MatrixProductsAccumulate_mismatch :
    ∃ v, (begun (checked (desc 0 1 (mmaBody 16)) v) (desc 0 1 (mmaBody 16))).mismatch (.spm 0)
      (relSpans (desc 0 1 (mmaBody 16)) (mmaSpans (desc 0 1 (mmaBody 16)) 64 ((List.range 16).filter (bitAt (2 ^ 64 - 1))) ++ [])) = true :=
  mismatch_some (fun v => begun (checked (desc 0 1 (mmaBody 16)) v) (desc 0 1 (mmaBody 16))) _ (by decide +kernel) (by decide +kernel)
    (by decide +kernel) (by decide +kernel) (by decide +kernel)
theorem witness_DrainAndLongPartials :
    (∀ x ∈ [(0, true, true), (16384, true, false), (1, false, false)], ∀ op ∈ [2, 3, 4],
      ∀ d ∈ [desc 0 op [x.1 / 128 * 128 * 2 ^ 42, 0, 2 ^ 16 + 2 ^ 23, x.1 % 128, 0, 0, 0]], ∀ s ∈ [headed d [] []],
      s.head 0 0 = some (0, d) ∧ s.actsOf 0 0 = [] ∧ (op = 2 → State.drainOk (begun s d) 0 d = x.2.1)
      ∧ (op ≠ 2 → (State.mxCommonOk (begun s d) 0 d && otherBodyOk d true false && al128 (d.f 1 42 21) && al128 (d.f 2 42 21)) = x.2.1)
      ∧ (x.2.1 = true → inEnv d (outSpans d 16) = x.2.2) ∧ State.stepGuarded (begun s d) (.spm 0) (relSpans d (outSpans d 4)) = false
      ∧ State.mismatch (begun s d) (.spm 0) (relSpans d (outSpans d 16)) = false)
    ∧ (∃ a : Acc, a ≠ Acc.zero ∧ a.wide ≠ (Acc.ofLp 0).wide) := ⟨by decide +kernel, Acc.ofLp (2 ^ 126 + 1), by decide +kernel⟩
theorem witness_VectorOperationsWriteTheirRows :
    (∀ op ∈ [1, 2, 3, 4, 5, 8, 0x10, 0x11, 0x12, 0x20, 0x21, 0x22, 0x23, 0x24, 0x25, 0x26, 0x27, 0x28, 0x29, 0x2A],
      ∀ d ∈ [desc 1 op [0, if vTwo op then 128 else 0, 256, 1 + 2 ^ 16, 0, 0, 0]], ∀ s ∈ [headed d [] []],
      s.head 0 1 = some (0, d) ∧ vectorOk d = true ∧ (inEnv d (vReads d ++ vWrites d)
        && !State.stepGuarded (s.popHead 0 1 d) (.spm 0) (relSpans d (vWrites d))) = true
      ∧ State.mismatch (s.popHead 0 1 d) (.spm 0) (relSpans d (vReads d)) = false)
    ∧ (∀ d ∈ [desc 1 1 [0, 128, 256, 0, 0, 0, 0]], vectorOk d = false)
    ∧ (∀ d ∈ [desc 1 1 [0, 128, 16384, 1 + 2 ^ 16, 0, 0, 0]], vectorOk d = true ∧ inEnv d (vReads d ++ vWrites d) = false) := by decide +kernel
theorem witness_VectorOperationsWriteTheirRows_mismatch :
    ∀ d, d = desc 1 0x21 [0, 0, 4096, 1 + 1024 * 2 ^ 16, 0, 0, 0] → vectorOk d = true ∧ inEnv d (vReads d ++ vWrites d) = true
      ∧ ∃ v, ((checked d v).popHead 0 1 d).mismatch (.spm 0) (relSpans d (vReads d)) = true := by
  rintro d rfl
  exact ⟨by decide +kernel, by decide +kernel, mismatch_some (fun v => (checked (desc 1 0x21 [0, 0, 4096, 1 + 1024 * 2 ^ 16, 0, 0, 0]) v).popHead 0 1
    (desc 1 0x21 [0, 0, 4096, 1 + 1024 * 2 ^ 16, 0, 0, 0])) _ (by decide +kernel) (by decide +kernel) (by decide +kernel) (by decide +kernel)
    (by decide +kernel)⟩

/-- A DMA body: endpoints, one run of `n` bytes under `chk`, in local form, and word 6. -/
def dmaBody (dst n chk v : Nat) : List Nat := [0, dst, n + 3 * 2 ^ 24 + chk * 2 ^ 26 + 2 ^ 32 + 2 ^ 48, 0, 0, v, 0]
theorem witness_LocalCopiesFillsAndDigests :
    (∀ op ∈ [1, 2, 3, 4], ∀ d ∈ [desc 2 op (dmaBody 4096 64 2 (if op < 3 then 0 else 4096))], ∀ s ∈ [headed d [] []],
      s.head 0 2 = some (0, d) ∧ (s.actsOf 0 2).length < 8 ∧ s.dmaConflict 0 0 d = false ∧ State.dmaBad (s.popHead 0 2 d) 0 d = false
      ∧ d.chk = 2 ∧ d.f 7 32 1 = 0 ∧ (State.dmaPlan (s.popHead 0 2 d) 0 0 d).bad = false
      ∧ State.epForeign (s.popHead 0 2 d) 0 (State.dmaSrc (s.popHead 0 2 d) 0 d) = false
      ∧ State.epForeign (s.popHead 0 2 d) 0 (State.dmaDst (s.popHead 0 2 d) 0 d) = false
      ∧ (State.dmaPlan (s.popHead 0 2 d) 0 0 d).dst.map Piece.spot = [.mem (.spm 0) 4096])
    ∧ (∀ d ∈ [desc 2 1 (dmaBody 4096 0 2 0)], State.dmaBad ((headed d [] []).popHead 0 2 d) 0 d = true)
    ∧ (∀ n ∈ [64, 4096], ∀ d ∈ [desc 2 1 (dmaBody 4096 n 0 0)], ∀ s ∈ [State.popHead (headed d [] []) 0 2 d], s.dmaBad 0 d = false
      ∧ d.chk = 0 ∧ s.chkAligned 0 0 d (s.dmaSrc 0 d) 4 = decide (n = 4096) ∧ s.chkAligned 0 0 d (s.dmaDst 0 d) 5 = decide (n = 4096))
    ∧ (∀ n ∈ [64, 4096], ∀ d ∈ [desc 2 3 (dmaBody 4096 n 0 4096)], ∀ s ∈ [State.popHead (headed d [] []) 0 2 d], s.dmaBad 0 d = false
      ∧ d.chk = 0 ∧ s.chkAligned 0 0 d (s.dmaSrc 0 d) 4 = decide (n = 4096))
    ∧ (∀ d ∈ [desc 2 1 (dmaBody (2 * 2 ^ 21) 64 2 0)], ∀ s ∈ [State.popHead (headed d [] []) 0 2 d], s.dmaBad 0 d = false
      ∧ s.epForeign 0 (s.dmaDst 0 d) = true)
    ∧ (∀ d ∈ [desc 2 1 (dmaBody 4096 64 2 0)], 8 ≤ (State.actsOf (headed d (List.replicate 8 (act 2 d)) []) 0 2).length) := by decide +kernel
theorem witness_MulticastCopiesReachEveryMember :
    (∀ op ∈ [5, 6], ∀ d ∈ [desc 2 op [0, 0x201000, 64 + 2 ^ 24 + 2 * 2 ^ 26 + 2 ^ 32 + 2 ^ 48, 0, 0, 2, 0]], ∀ s ∈ [headed d [] []],
      s.head 0 2 = some (0, d) ∧ (s.actsOf 0 2).length < 8 ∧ s.dmaConflict 0 0 d = false ∧ d.chk = 2
      ∧ s.fab.inject = [] ∧ s.fab.mstore.length < 256 ∧ mfind s.fab.mstore s.fab.nextMid = none ∧ 1 ≠ s.ownNode)
    ∧ (∀ op ∈ [5, 6], ∀ d ∈ [desc 2 op [0, 0x201000, 64 + 2 ^ 24 + 2 * 2 ^ 26 + 2 ^ 32 + 2 ^ 48, 0, 0, 2, 0]], ∀ s ∈ [State.popHead (headed d [] []) 0 2 d],
      s.dmaBad 0 d = false ∧ s.injectStopped 0 = false ∧ (s.dmaPlan 0 0 d).bad = false
      ∧ (s.dmaPlan 0 0 d).src.map Piece.spot = [.mem (.spm 0) 0] ∧ (s.dmaPlan 0 0 d).dst = [⟨.far 0x201000, 64, 0⟩]
      ∧ s.epForeign 0 (s.dmaSrc 0 d) = false ∧ s.epForeign 0 (s.dmaDst 0 d) = false ∧ (s.dmaSrc 0 d).space ≠ 3 ∧ (s.dmaDst 0 d).space ≠ 3
      ∧ ((s.setReg (.fabXlate 1) (gfPair 0)).mayInject 0 1 (s.dmaDst 0 d).part).isLeft = false ∧ s.fld (.coreFault 0) CoreFault.cause = 0
      ∧ s.mcastMembers d = [1] ∧ s.mayInject 0 1 (s.dmaDst 0 d).part = .inl 1 ∧ 2 ≤ bitsOf (s.routeEntry 1) 0 2
      ∧ s.choosePort (s.routeEntry 1) 0x201000 0 = some 3) := ⟨by decide +kernel, by decide +kernel⟩
/-- Body of a collective of two members with 64 bytes each and its member table at offset 128: own buffers, then those of partition 1. -/
def collBody (op : Nat) : List Nat := [if op = 0x12 then 0 else 4096, if op = 0x10 then 8192 else 0, 64 + 2 * 2 ^ 42, 128, 0, 0, 0]
/-- That table. -/
def collMem : Mem := memWrite [] 128 (leBytes 8 4096 ++ leBytes 8 8192 ++ leBytes 8 (2 ^ 49 + 4096) ++ leBytes 8 (2 ^ 49 + 8192))
theorem witness_CollectivesSendAndCombine :
    (∀ op ∈ [0x10, 0x11, 0x12], ∀ d ∈ [desc 2 op (collBody op)], ∀ s ∈ [headed d [] collMem],
      s.head 0 2 = some (0, d) ∧ s.actsOf 0 2 = [] ∧ s.dmaConflict 0 0 d = false ∧ s.collBusy 0 < 2
      ∧ inEnv d d.cTables = true ∧ d.cUneven = false)
    ∧ (∀ op ∈ [0x10, 0x11, 0x12], ∀ d ∈ [desc 2 op (collBody op)], ∀ s ∈ [State.popHead (headed d [] collMem) 0 2 d],
      s.collBad 0 0 d = false ∧ s.injectStopped 0 = false
      ∧ (s.collTable 0 d).all (fun w => decide (s.mayInject 0 (wbits w.1 54 10) (wbits w.1 49 5) = .inl 0)
        && decide (s.mayInject 0 (wbits w.2 54 10) (wbits w.2 49 5) = .inl 0)) = true
      ∧ (s.collPieces 0 0 d (s.collSizes 0 d)).map Piece.spot = (if op = 0x10 then [.mem (.spm 0) 4096, .mem (.spm 0) 8192]
          else if op = 0x11 then [.mem (.spm 0) 4096] else []))
    ∧ (∀ d ∈ [desc 2 0x10 [0, 0, 64 + 1024 * 2 ^ 42, 128, 0, 0, 0]], inEnv d d.cTables = false)
    ∧ (∀ d ∈ [desc 2 0x11 [0, 128, 64 + 2 * 2 ^ 42, 128, 0, 0, 0]], State.collBad (headed d [] collMem) 0 0 d = true)
    ∧ (∀ d ∈ [desc 2 0x10 (collBody 0x10)], ∀ a ∈ [{ act 2 d with sizes := [64, 64], table := State.collTable (headed d [] collMem) 0 d }],
      ∀ s ∈ [headed d [a] collMem], (s.actsOf 0 2)[0]? = some a ∧ s.ownerOf 0 = some 0 ∧ a.phase = 1 ∧ a.failed = false ∧ a.desc.op = 0x10
      ∧ s.collReached 0 a = false ∧ State.collReached (s.setFld (.partRxBytes 0 0) PartRxBytes.bytes 128) 0 a = true
      ∧ s.resultPieces 0 0 d a.sizes true = ([⟨.mem (.spm 0) 8192, 64, 0⟩], false)
      ∧ wbits (a.table.getD d.cS (0, 0)).1 46 3 = 0 ∧ wbits (a.table.getD d.cS (0, 0)).1 0 46 = 4096
      ∧ (List.range 2).map (fun j => s.spaceLoc 0 0 (4096 + j * roundBlk 64) 64) = [some (.spm 0, 4096), some (.spm 0, 8192)]
      ∧ (∀ j ∈ [1, 2], s.mismatch (.spm 0) (cutAt 4096 65 (4096 * j) 64) = false)
      ∧ (collCombine 0 0 64 [List.replicate 64 0, List.replicate 64 0]).map List.length = some 64) :=
  ⟨by decide +kernel, by decide +kernel, by decide +kernel, by decide +kernel, by decide +kernel⟩

/-- A Skiver body of each operation, and what its operands are. -/
def skBody (op : Nat) : List Nat :=
  if op = 1 then [2048 * 2 ^ 21, 0, 1 + 128 * 2 ^ 16, 0, 0, 0, 0]
  else if op = 2 then [2048 * 2 ^ 21 + 1024 * 2 ^ 42, 0, 1 + 128 * 2 ^ 16, 0, 0, 0, 0]
  else if op = 6 ∨ op = 9 then [2048 * 2 ^ 21 + 1024 * 2 ^ 42, 0, 1 + 32 * 2 ^ 16 + 2 ^ 38, 1, 0, 0, 0]
  else if op = 7 then [2048 * 2 ^ 21 + 1024 * 2 ^ 42, 0, 2 ^ 16, 1 + 2 ^ 23, 0, 1, 0]
  else [2048 * 2 ^ 21 + 1024 * 2 ^ 42, 0, 1 + 32 * 2 ^ 16, 0, 0, 0, 0]
/-- A tile header at 0 for EXPAND, a record of one expert at 1024 for SLOTS, nothing for the others. -/
def skMem (op : Nat) : Mem :=
  if op = 1 then memWrite [] 0 (tileHeader (desc 3 1 (skBody 1)) 0) else if op = 7 then memWrite [] 1024 (leBytes 2 0 ++ leBytes 2 1) else []
theorem witness_SkiverOperationsWriteTheirRuns :
    (∀ op ∈ [1, 2, 3, 4, 5, 6, 7, 9], ∀ d ∈ [desc 3 op (skBody op)], ∀ s ∈ [headed d [] (skMem op)], s.head 0 3 = some (0, d) ∧ skiverOk d = true
      ∧ ∀ s1 ∈ [s.popHead 0 3 d], (s1.skWork 0 d).bad = false
        ∧ (inEnv d ((s1.skWork 0 d).reads ++ (s1.skWork 0 d).runs.map (fun y => (y.1, y.2.length)))
            && !s1.stepGuarded (.spm 0) (relSpans d ((s1.skWork 0 d).runs.map (fun y => (y.1, y.2.length))))) = true
        ∧ s1.mismatch (.spm 0) (relSpans d (s1.skWork 0 d).reads) = false)
    ∧ (∀ d ∈ [desc 3 7 (skBody 7)], ∀ s ∈ [headed d [] []], skiverOk d = true ∧ (State.skWork (s.popHead 0 3 d) 0 d).bad = true)
    ∧ skiverOk (desc 3 1 [0, 0, 0, 0, 0, 0, 0]) = false
    ∧ (∀ d ∈ [desc 3 3 [16384 * 2 ^ 21, 0, 1 + 32 * 2 ^ 16, 0, 0, 0, 0]], skiverOk d = true
      ∧ inEnv d ((State.skWork (headed d [] []) 0 d).runs.map (fun y => (y.1, y.2.length))) = false) := by decide +kernel
theorem witness_SkiverOperationsWriteTheirRuns_mismatch :
    ∀ d, d = desc 3 3 [4096 * 2 ^ 21 + 8192 * 2 ^ 42, 512, 8 + 128 * 2 ^ 16, 0, 0, 0, 0] → skiverOk d = true ∧ d.f 3 36 1 = 0
      ∧ ∃ v, ((checked d v).popHead 0 3 d).mismatch (.spm 0) (relSpans d (skScan ((checked d v).skRead 0 d) d).reads) = true := by
  rintro d rfl
  exact ⟨by decide +kernel, by decide +kernel, mismatch_some (fun v => (checked (desc 3 3 [4096 * 2 ^ 21 + 8192 * 2 ^ 42, 512, 8 + 128 * 2 ^ 16, 0, 0, 0, 0]) v).popHead
    0 3 (desc 3 3 [4096 * 2 ^ 21 + 8192 * 2 ^ 42, 512, 8 + 128 * 2 ^ 16, 0, 0, 0, 0])) _ (by decide +kernel) (by decide +kernel) (by decide +kernel)
    (by decide +kernel) (by decide +kernel)⟩
theorem witness_ExchangeWritesItsItems :
    (∀ d ∈ [desc 3 8 [256 * 2 ^ 42, 0, 1 + 32 * 2 ^ 16 + 2 ^ 36, 1 + 2 ^ 23, 128, 0, 0]],
      ∀ s ∈ [headed d [] (memWrite [] 128 (leBytes 8 0 ++ leBytes 8 4096 ++ leBytes 8 0 ++ leBytes 2 0 ++ leBytes 2 1))],
      s.head 0 3 = some (0, d) ∧ d.op = 8 ∧ s.actsOf 0 3 = [] ∧ skiverOk d = true
      ∧ ∀ s1 ∈ [s.popHead 0 3 d], inEnv d (xchgPlan (s1.skRead 0 d) d).reads = true ∧ (xchgPlan (s1.skRead 0 d) d).bad = false
        ∧ (s1.xchgSends 0 0 d (xchgPlan (s1.skRead 0 d) d).items).2 = false
        ∧ (s1.xchgSends 0 0 d (xchgPlan (s1.skRead 0 d) d).items).1.map (fun y => y.2) = [[⟨.mem (.spm 0) 4096, 128, 0⟩]])
    ∧ (∀ d ∈ [desc 3 8 [0, 0, 0, 0, 0, 0, 0]], skiverOk d = false ∧ (State.actsOf (headed d [act 3 d] []) 0 3).map (fun a => a.desc.op) = [8]) := by
  decide +kernel

/-! ## HBM -/

/-- The device with one working stack of two channels, a region on it, and a full pending-block store above a dirty line. -/
def stacked : State :=
  let g := ((grant.set 17 1).set 18 0)
  let s := ((((armed.setReg (.hbmRegion 0) (word64 [(HbmRegion.stacks, 1), (HbmRegion.base, 4), (HbmRegion.valid, 1), (HbmRegion.size, 8)])).setFld
    (.llsSlice 0 0) LlsSlice.mode 1).setFld (.hbmStackState 0) HbmStackState.state 1).setFld (.hbmStackState 0) HbmStackState.working 2).setFld
    .hbmScrubCtl HbmScrubCtl.enable 1
  { s with parts := [(0, { part with grant := g })], hbm := { armed.hbm with trained := [(0, 3)] }
           lls := [(0, ⟨[], [], [⟨0, [(0, 1)], true⟩], List.replicate 1536 ⟨0, 0, true⟩⟩)] }
theorem witness_HbmScrubsLosesAndMargins :
    (∀ s ∈ [stacked], s.llsCache 0 0 = true ∧ 1536 * s.llsWays 0 0 ≤ (s.slice 0 0).pend.length ∧ (s.slice 0 0).lines.map Line.dirty = [true]
      ∧ s.hbmPlace 0 0 = some (0, 4 * 4096) ∧ s.chLost 0 = false ∧ s.chWorks 0 0 = true ∧ s.chWorks 0 1 = true ∧ s.chWorks 0 31 = false
      ∧ s.fld .hbmScrubCtl HbmScrubCtl.enable ≠ 0 ∧ s.hbm.margin = none ∧ s.hbm.margin ≠ some 0 ∧ (s.hblk 0).poison = 0 ∧ s.partsOnStack 0 = [0]
      ∧ s.fld (.hbmStackState 0) HbmStackState.state = 1 ∧ armed.fld (.hbmStackState 0) HbmStackState.state = 0)
    ∧ armed.llsCache 0 0 = false
    ∧ (∀ v ∈ [2 ^ HbmMarginCtl.start.lo + 67 * 2 ^ HbmMarginCtl.lane.lo], HbmMarginCtl.start.get (BitVec.ofNat 64 v) ≠ 0
      ∧ HbmMarginCtl.lane.get (BitVec.ofNat 64 v) ≤ 67) ∧ HbmMarginCtl.start.get 0 = 0
    ∧ (∀ m ∈ [none, some 1], ∀ s ∈ [({ stacked with hbm := { stacked.hbm with margin := m } } : State)], (s.hbm.margin = some (0 * 32 + 1) ↔ m = some 1) ∧ s.pkg.booted = true
      ∧ s.devState ≠ 3) ∧ (dev 3 1).devState = 3 ∧ State.reset.pkg.booted = false
    ∧ (dev 1 1).drained = true ∧ armed.drained = false := by decide +kernel

/-! ## The stitch -/

/-- The armed device with its tick in a state and port 3 up, following node 5 on port 3 at 8 us; partition 0 is job 7 in segments
over two nodes, and what waits at the X-die is `w`. -/
def ticking (st : Nat) (w : List WaitPkt) : State :=
  let s := (((netted (listed (port 3))).setFld .stchStatus StchStatus.state st).setFld .stchCtl StchCtl.periodUs 8).setReg (.stchPart 0)
    (word64 [(StchPart.entry, 7 + 2 ^ 21), (StchPart.rect, 2 ^ 10 + 2 * 2 ^ 16)])
  { s with harn := { s.harn with staging := sectionImg 10 [8, 5, 0xFFFFFF03, 0] }, fab := { s.fab with waiting := w } }
theorem witness_TheTickCountsLatchesAndReleases :
    (ticking 0 []).tickState = 0
    ∧ (∀ s ∈ [ticking 2 []], s.tickState ≠ 0 ∧ s.fld .stchStatus StchStatus.rejoinPending = 0 ∧ s.partNums.count 0 = 1
      ∧ s.segmented 0 = true ∧ s.partState 0 = 2 ∧ s.isHeld 0 = false ∧ (0, (s.count + 1) % 2 ^ 48) ∉ s.stitch.withheld
      ∧ (0, 1) ∈ (State.modStitch s (fun t => { t with withheld := [(0, 1)] })).stitch.withheld)
    ∧ (∀ s ∈ [((ticking 2 []).setFld .stchStatus StchStatus.rejoinPending 1).setFld .stchMasterCount StchMasterCount.valid 1],
      s.tickState ≠ 0 ∧ s.fld .stchStatus StchStatus.rejoinPending = 1 ∧ s.fld .stchMasterCount StchMasterCount.valid = 1) := by
  decide +kernel
/-- A marker of node 5 with period 8 us. -/
def markerBytes : List Byte := leBytes 6 9 ++ [8, 0] ++ leBytes 2 5 ++ List.replicate 102 0
theorem witness_MarkersSteerTheTick :
    (∀ st ∈ [1, 2], ∀ s ∈ [ticking st []], s.carrying 3 = true ∧ s.carrying 63 = false
      ∧ (List.range 4).find? (fun j => decide (s.inputPort j = some 3)) = some 0 ∧ s.tickRole ≠ 1 ∧ s.acting = false ∧ s.masterNode = 5
      ∧ s.fld .stchCtl StchCtl.periodUs = 8 ∧ s.tickState = st
      ∧ (s.modStitch (fun t => { t with inputs := mset t.inputs 0 ⟨false, false⟩ })).pickInput = 0)
    ∧ (markerBytes.length = 112 ∧ leNat (markerBytes.take 6) = 9 ∧ leNat ((markerBytes.drop 6).take 1) = 8
      ∧ leNat ((markerBytes.drop 7).take 1) = 0 ∧ leNat ((markerBytes.drop 8).take 2) % 1024 = 5)
    ∧ (phaseError 16 8000 = 16 ∧ phaseError 17 8000 = 17 ∧ phaseError (-16) 8000 = -16)
    ∧ (∀ s ∈ [State.modStitch (ticking 2 []) (fun t => { t with inputs := [(0, ⟨false, false⟩), (1, ⟨false, true⟩)] })],
      (mfind s.stitch.inputs 0).isSome = true ∧ (mfind s.stitch.inputs 3).isSome = false ∧ s.tickInput ≠ 1
      ∧ (s.setFld .stchStatus StchStatus.input 0).tickInput = 0)
    ∧ (∀ s ∈ [{ ((ticking 4 []).setFld .stchCtl StchCtl.role 2) with harn := { armed.harn with staging := sectionImg 10 [8, 5 + 4 * 65536, 0, 0] } }],
      s.tickRole = 2 ∧ s.tickState = 4 ∧ ¬ s.staged 10 1 / 65536 ≤ s.stitch.holdTicks
      ∧ State.staged (s.modStitch (fun t => { t with holdTicks := 4 })) 10 1 / 65536 ≤ 4)
    ∧ (∀ s ∈ [ticking 2 []], s.partNums = [0] ∧ s.spans 0 = true ∧ s.isHeld 0 = false
      ∧ (s.setFld (.partStchCtl 0) PartStchCtl.hold 1).isHeld 0 = true) := by decide +kernel
theorem witness_SegmentsSlipTogether :
    (∀ s ∈ [ticking 2 []], s.tickState ≠ 0 ∧ s.segmented 0 = true ∧ s.segmented 31 = false ∧ s.partState 0 = 2 ∧ s.coresOf 0 = [0, 1]
      ∧ s.unfinished 0 = [] ∧ { s with cores := mmod s.cores 0 (fun k => { k with threads := (running 0 []).threads }) }.unfinished 0 ≠ []
      ∧ s.fld (.partStchCtl 0) PartStchCtl.hold ≠ 1)
    ∧ (∀ w ∈ [waiting 0x30 16 (leBytes 16 (7 + 2 * 2 ^ 16 + 5 * 2 ^ 64))], ∀ s ∈ [ticking 2 [w]],
      s.waitingPkt 0 (fun q => decide (q.op = 0x30)) = some w ∧ bitsOf (leNat w.pkt.data) 0 16 = 7 ∧ s.jobPart 7 = some 0
      ∧ bitsOf (leNat w.pkt.data) 16 48 = 2 ∧ (2 + 2 ^ 48 - s.count) % 2 ^ 48 = 2 ∧ s.isHeld 0 = false ∧ s.stitch.seen = []
      ∧ s.jobPart 8 = none)
    ∧ (∀ w ∈ [waiting 0x31 16 (leBytes 16 (7 + 6 * 2 ^ 16 + 3 * 2 ^ 24))],
      ∀ s ∈ [{ ticking 2 [w] with parts := [(0, { part with lines := [⟨6, true, 1, [0]⟩] })] }],
      s.waitingPkt 0 (fun q => decide (q.op = 0x31)) = some w ∧ bitsOf (leNat w.pkt.data) 16 6 = 6 ∧ bitsOf (leNat w.pkt.data) 24 10 = 3
      ∧ s.jobPart 7 = some 0 ∧ s.lineUse 0 6 = some ⟨6, true, 1, [0]⟩ ∧ (s.cinch 6).localDone = false ∧ s.jobMembers 0 = []
      ∧ (State.cinch { s with cinches := [(6, ⟨[0], true, []⟩)] } 6).localDone = true)
    ∧ (mfind (ticking 2 []).parts 0).isSome = true ∧ (ticking 2 []).host.vfEnable = true := by decide +kernel

/-! ## Tables -/

theorem witness_RejectedGrainFleshWritesKeepTheRegister :
    gfOk 5 = false ∧ bare.pkg.booted = true ∧ armed.pkg.booted = true ∧ armed.devState ≠ 3 ∧ (mfind armed.cores 1).isSome = true ∧ (mfind armed.parts 0).isSome = true
    ∧ armed.host.vfEnable = true
    ∧ (0x1005800 % 8 = 0 ∧ viewOf 0x1005800 = none ∧ (match pfPlace 0x1005800 with | .reg r => decide (r = .coreSpmRemap 1 0 0) | _ => false) = true) := by decide +kernel
/-- The device with every port dark and the FAB tables open. -/
def quiesced : State := (netted (dev 1 1)).setFld .fabTableCtl FabTableCtl.quiesce 1
theorem witness_PartitionAndTableWrites :
    ((mfind armed.parts 0).isSome = true ∧ armed.host.vfEnable = true ∧ gfOk (gfPair 5) = true)
    ∧ (PartRxCtl.zero.get 0 = 0 ∧ PartRxCtl.zero.get (BitVec.ofNat 64 (2 ^ PartRxCtl.zero.lo)) = 1)
    ∧ (∀ s ∈ [{ armed with parts := [(0, { part with grant := grant.set 22 (16 * 65536) })] }], s.partState 0 = 2 ∧ s.gtFirst 0 ≤ 15
      ∧ 15 < s.gtFirst 0 + s.gtCount 0 ∧ ¬ 16 < s.gtFirst 0 + s.gtCount 0)
    ∧ (quiesced.tableOpen = true ∧ armed.tableOpen = false ∧ quiesced.xlate 0 = some 0 ∧ (grain (gfPair 1024)).testBit 10 = true)
    ∧ (FabTableCtl.quiesce.get (quiesced.reg .fabTableCtl) = 1 ∧ quiesced.pkg.booted = true ∧ quiesced.devState ≠ 3 ∧ (dev 3 1).devState = 3)
    ∧ (PartGtackCtl.value.get (gfPair 15) = 0 ∧ PartGtackCtl.value.get (gfPair (15 + 2 ^ PartGtackCtl.value.lo)) = 1 ∧ PartGtackCtl.tack.get (gfPair 15) = 15)
    ∧ (∀ y ∈ armed.cores, y.2.threads = [])
    ∧ (∀ e ∈ [((packet 8 4 [], 3, none) : Pkt × Nat × Option Nat)], e.1.srcPart = 0 ∧ (FabTableCtl.partMask.get (BitVec.ofNat 64 (2 ^ FabTableCtl.partMask.lo))).testBit 0 = true)
    ∧ (GfTable.wf .route 1023 0 = true ∧ routeOff 1023 ∈ { armed.fab with disabled := [routeOff 1023] }.disabled ∧ routeOff 1023 ∉ armed.fab.disabled
      ∧ routeOff 1023 ∉ armed.fab.written) := by decide +kernel

/-! ## Links -/

/-- Port 3 up, its link layer as given, no packet waiting at the X-die but `w`. -/
def linked (f : Link → Link) (w : List WaitPkt) : State :=
  let s := ((netted (listed (port 3))).modLink 3 f).setReg .fabVcCfg (BitVec.ofNat 64 (32 * 2 ^ 48))
  { s with fab := { s.fab with waiting := w } }
/-- A packet of VC7 in an output queue, one flit, ready. -/
def outgoing (vc : Nat) : OutPkt := ⟨none, none, vc, 0, 1, 1, 0, packet 0x30 16 []⟩
theorem witness_LinksSendAndRepeatFlits :
    (∀ s ∈ [linked id []], s.carrying 3 = true ∧ s.carrying 4 = false ∧ (s.link 3).marker = none ∧ (s.link 3).ctrl = [] ∧ (s.link 3).resend = 0
      ∧ (s.link 3).nextSeq < 4096 ∧ (s.link 3).nextFor 0 none = none ∧ frameSlot s.frameShares 0 = 192 ∧ s.slotPacket 3 192 = none
      ∧ (s.link 3).unacked = [] ∧ (s.link 3).gap = false ∧ (s.link 3).sinceAck = 0)
    ∧ (∀ s ∈ [linked (fun l => { l with marker := some [], ctrl := [⟨1, 2, 3, 4, 0⟩], gap := true, sinceAck := 1 }) []],
      (s.link 3).marker = some [] ∧ (s.link 3).ctrl = [⟨1, 2, 3, 4, 0⟩] ∧ (s.link 3).gap = true ∧ (s.link 3).sinceAck ≠ 0)
    ∧ (∀ r ∈ [6, 7], ∀ s ∈ [linked (fun l => { l with unacked := [⟨4095, 4, 7, [], (0, 255), none⟩], resend := 1, replays := r }) []],
      (s.link 3).unacked[(s.link 3).unacked.length - (s.link 3).resend]? = some ⟨4095, 4, 7, [], (0, 255), none⟩ ∧ ((s.link 3).replays + 1 < 8 ↔ r = 6))
    ∧ (∀ v ∈ [0, 7], ∀ h ∈ [0, 1], ∀ s ∈ [linked (fun l => { l with out := [outgoing v], h := [(pairOf v 0, h)] }) []],
      (s.link 3).nextFor 0 none = (if v = 0 then some (outgoing 0, 0) else none) ∧ (s.link 3).mayLeave (outgoing v) = decide (h = 1)
      ∧ (v = 7 → s.slotPacket 3 192 = if h = 1 then some (outgoing 7, 0) else none))
    ∧ (port 2).portState 3 = 2 ∧ (port 2).carrying 3 = false ∧ (port 1).portState 3 ≠ 2 ∧ (port 1).carrying 3 = false
    ∧ (∀ n ∈ [99, 100], ∀ s ∈ [linked (fun l => { l with reqs := [⟨credMsg 0x20 1 0 0 0, n⟩] }) []], (s.link 3).reqs[1]? = none
      ∧ (s.link 3).reqs[0]?.map CtrlReq.sends = some n ∧ (s.link 3).reqs[0]?.map (fun r => r.msg.kind) = some 0x20) := by decide +kernel
theorem witness_LinksSendAndRepeatFlits_more :
    (∀ s ∈ [State.modLink (port 2) 3 (fun l => { l with ctrl := [⟨1, 2, 3, 4, 0⟩] })], s.portState 3 = 2 ∧ (s.link 3).ctrl = [⟨1, 2, 3, 4, 0⟩])
    ∧ ((linked id []).creditReturn 3).2 < 256 ∧ ((linked id []).opt 3).moves = [] ∧ ((linked id []).link 3).lastAcc < 4096 := by decide +kernel
/-- A flit with a header whose check passes. -/
def flit (h : Nat) : List Byte := let b := leBytes 8 h ++ List.replicate 112 0
  b ++ leBytes 8 (crc64 b)
theorem witness_FlitsArriveAndPacketsGoOn :
    (∀ h ∈ [0, 5, 6, 1 + 3 * 2 ^ 3, 2 + 3 * 2 ^ 3, 4 + 3 * 2 ^ 3 + 2 ^ 6], (flit h).length = 128 ∧ flitOk (flit h) = true
      ∧ bitsOf (leNat ((flit h).take 8)) 0 3 = h % 8 ∧ bitsOf (leNat ((flit h).take 8)) 6 12 = h / 64)
    ∧ flitOk (List.replicate 128 0) = false ∧ (Link.idle.lastAcc + 1) % 4096 = 0
    ∧ (∀ n ∈ [30, 31], ∀ s ∈ [linked (fun l => { l with sinceAck := n }) []], s.carrying 3 = true ∧ (32 ≤ (s.link 3).sinceAck + 1 ↔ n = 31))
    ∧ (∀ st ∈ [0, 2], (port st).carrying 3 = false ∧ ((port st).portState 3 = 2 ↔ st = 2))
    ∧ (∀ o ∈ [(⟨some 3, none, 3, 1, 1, 2, 5, packet 8 112 [1]⟩ : OutPkt)], ∀ s ∈ [(linked id []).modLink 4 (fun l => { l with out := [o] })],
      (List.range 64).findSome? (fun m => ((s.link m).out.find? (fun o => o.src = some 3 && o.vc = 3 && decide (o.got < o.total))).map (fun o => (m, o))) = some (4, o)
      ∧ s.fab.waiting.any (fun y => y.port = some 3 && y.vc = 3 && decide (y.got < y.total)) = false)
    ∧ (∀ w ∈ [{ waiting 8 112 [1] with port := some 3, total := 2 }], ∀ s ∈ [linked id [w]], s.carrying 3 = true
      ∧ s.fab.waiting.findIdx? (fun y => y.port = some 3 && y.vc = 3 && decide (y.got < y.total)) = some 0 ∧ w.got ≠ 0)
    ∧ (∀ hops ∈ [3, 4], ∀ w ∈ [{ waiting 8 4 [1, 2, 3, 4] with pkt := { packet 8 4 [1, 2, 3, 4] with dstNode := 1, route := 2, hops := hops } }],
      ∀ s ∈ [(linked id [w]).setReg (.fabRoute 1) (gfPair 14)], w.got = w.total ∧ w.pkt.dstNode ≠ s.ownNode
      ∧ 2 ≤ bitsOf (s.routeEntry w.pkt.target) 0 2 ∧ s.choosePort (s.routeEntry w.pkt.target) w.pkt.offset w.pkt.srcPart = some 3
      ∧ State.choosePort (s.setPort 3 1) (s.routeEntry w.pkt.target) w.pkt.offset w.pkt.srcPart = none ∧ w.pkt.target ≠ s.ownNode)
    ∧ isRequest 0x21 = false ∧ (waiting 8 4 []).pkt.dstNode = armed.ownNode := by decide +kernel
theorem witness_CreditsResynchronise :
    (∀ s ∈ [linked id []], s.carrying 3 = true ∧ (s.link 3).waitSync = [] ∧ (s.link 3).sync 193 false = none ∧ (s.link 3).sync 193 true = none
      ∧ (s.link 3).resyncs.countP (fun r => r.asSender = false) < 16 ∧ 193 < pairCount
      ∧ (s.link 3).accepted 4095 = true ∧ (s.link 3).accepted 0 = false ∧ mfind (s.link 3).epochs (epochKey 193 true) = none)
    ∧ (∀ s ∈ [linked (fun l => { l with epochs := [(epochKey 193 true, 255)], waitSync := [⟨193, false, 0, 1, 0, 0, 0⟩] }) []],
      mfind (s.link 3).epochs (epochKey 193 true) = some 255 ∧ (s.link 3).waitSync.any (fun w => w.pair = 193 && !w.asSender) = true)
    ∧ (∀ s ∈ [linked (fun l => { l with resyncs := (List.range 16).map (fun i => ⟨i, false, 1, 2, 0, 0, 0⟩) }) []],
      16 ≤ (s.link 3).resyncs.countP (fun r => r.asSender = false) ∧ (s.link 3).sync 193 false = none) ∧ pairCount ≤ 194 ∧ (port 2).carrying 3 = false
    ∧ (∀ st ∈ [1, 2, 3, 4], ∀ snd ∈ [true, false], ∀ s ∈ [linked (fun l => { l with resyncs := [⟨193, snd, 255, st, 0, 0, 0⟩] }) []],
      (s.link 3).sync 193 snd = some ⟨193, snd, 255, st, 0, 0, 0⟩ ∧ wbits (BitVec.ofNat 64 (193 + 255 * 2 ^ 8)) 8 8 = 255)
    ∧ (∀ n ∈ [14, 15], ∀ s ∈ [linked (fun l => { l with faultAt := List.replicate n 0 }) []],
      (s.count :: (s.link 3).faultAt.filter (fun t => (s.count + 2 ^ 48 - t) % 2 ^ 48 < 1024)).length = n + 1) := by decide +kernel

/-! ## Optics -/

/-- Port 3 in Train at a step, or in traffic, with the given optics. -/
def optics (st : Nat) (f : Opt → Opt) : State := (port st).modOpt 3 f
/-- A lane tag of node 0 on line 3. -/
def tagBytes : List Byte := let b := [0, 0, 48, 0, 0, 0]
  b ++ leBytes 2 (crc16 b)
theorem witness_TrainingTakesAPortUp :
    (∀ s ∈ [optics 1 (fun o => { o with seekWait := true })], s.portState 3 = 1 ∧ (s.opt 3).seekWait = true ∧ s.loopHolds 3 = false
      ∧ s.feedLow 3 = false ∧ tagValid tagBytes = true ∧ s.tagMine 3 tagBytes = true ∧ tagValid (List.replicate 8 1) = false ∧ tagBytes.length = 8
      ∧ (tagBytes.getD 2 0).toNat / 16 = 3 ∧ State.tagMine (s.modOpt 3 (fun o => { o with peerPort := some 5 })) 3 tagBytes = false
      ∧ State.feedLow (s.setFld (.optFeed 0) OptFeed.low 1) 3 = true ∧ (s.setFld (.optPortCtl 3) OptPortCtl.loop 1).loopHolds 3 = true)
    ∧ (port 3).carrying 3 = true ∧ (port 3).portState 3 ≠ 1
    ∧ ((port 3).pkg.booted = true ∧ (port 3).devState = 2 ∧ (dev 3 1).devState = 3 ∧ State.reset.pkg.booted = false ∧ (port 3).lit 3 = true ∧ (port 1).lit 3 = false)
    ∧ (∀ s ∈ [optics 3 (fun o => { o with recovers := [⟨3, 7, 1, 2, true⟩] })], (s.opt 3).recovers.any (fun r => decide (r.line = 3)) = true)
    ∧ (∀ st ∈ [1, 2, 3, 4, 5, 6], ∀ b ∈ [true, false], ∀ s ∈ [optics 2 (fun o => { o with trainStep := st, doneGot := b, doneSent := b, echoes := 63 })],
      s.portState 3 = 2 ∧ (s.opt 3).trainStep = st ∧ (s.opt 3).doneGot = b ∧ (s.opt 3).doneSent = b ∧ (s.opt 3).echoes = 63
      ∧ 7 ≤ (s.usable 3 true).length ∧ 7 ≤ (s.usable 3 false).length)
    ∧ (∀ m ∈ [63, 127], ∀ s ∈ [optics 2 (fun o => { o with lines := BitVec.ofNat 9 m })], ((s.usable 3 true).length < 7 ↔ m = 63))
    ∧ (∀ m ∈ [3, 7], ∀ s ∈ [optics 2 (fun o => { o with peerRetired := BitVec.ofNat 9 m })], ((s.usable 3 false).length < 7 ↔ m = 7))
    ∧ (wbits 0 0 10 = (port 2).fld (.fabPortState 3) FabPortState.partner ∧ wbits 1 0 10 ≠ (port 2).fld (.fabPortState 3) FabPortState.partner)
    ∧ ((port 3).setFld (.optPortCtl 3) OptPortCtl.loop 5).loopMode 3 = 5
    ∧ (∀ s ∈ [{ (armed.setFld .stchStatus StchStatus.state 1) with harn := { armed.harn with staging := sectionImg 7 [1, 1, 1, 1] } }],
      bitsOf (s.staged 7 3) 0 2 ≠ 0 ∧ s.portState 3 = 0 ∧ s.devState = 2 ∧ s.lit 3 = false) :=
  ⟨by decide +kernel, by decide +kernel, by decide +kernel, by decide +kernel, by decide +kernel, by decide +kernel, by decide +kernel, by decide +kernel, by decide +kernel, by decide +kernel, by decide +kernel⟩
/-- Port 3 in traffic on lines 1 to 8, line 0 its spare, in both directions. -/
def lit (f : Opt → Opt) : State := (((port 3).layLanes 3 true).layLanes 3 false).modOpt 3 f
theorem witness_RingsAreBurnishedRecoveredAndRetired :
    (∀ s ∈ [lit id], s.carrying 3 = true ∧ s.working 3 true = 9 ∧ s.working 3 false = 9 ∧ s.spareNow 3 false = 0 ∧ s.spareNow 3 true = 0
      ∧ s.engineBurns 3 < 4 ∧ (s.opt 3).txBurn = none ∧ (s.opt 3).rxBurn = none ∧ (s.opt 3).txOut = [] ∧ (s.opt 3).sweeps = []
      ∧ s.laneOf 3 true 8 = 7 ∧ s.laneOf 3 true 0 = 15 ∧ (s.outLines 3 true).contains 0 = false ∧ (s.usable 3 true).contains 8 = true
      ∧ bitAt (s.retiredLines 3 true) 8 = false ∧ bitAt (s.retiredLines 3 false) 8 = false
      ∧ bitAt (State.retiredLines (s.setFld (.optPortState 3) OptPortState.txRetired 256) 3 false) 8 = true
      ∧ (s.opt 3).recovers.find? (fun y => decide (y.line = 8)) = none)
    ∧ (port 2).carrying 3 = false
    ∧ (∀ ph ∈ [0, 1, 2, 3], ∀ n ∈ [2, 3], ∀ s ∈ [lit (fun o => { o with recovers := [⟨8, 7, n, ph, true⟩] })],
      (s.opt 3).recovers.find? (fun y => decide (y.line = 8)) = some ⟨8, 7, n, ph, true⟩ ∧ 7 ≤ s.working 3 true ∧ 7 ≤ s.working 3 false)
    ∧ (∀ s ∈ [lit (fun o => { o with sweeps := [8] })], (s.opt 3).sweeps.contains 8 = true ∧ 7 ≤ s.working 3 false)
    ∧ (∀ st ∈ [1, 2, 3, 4, 5], ∀ l ∈ [0, 8], ∀ n ∈ [1, 2], ∀ s ∈ [lit (fun o => { o with txBurn := some ⟨l, 7, 0, st, n⟩, rxBurn := some ⟨l, 7, 0, st, n⟩ })],
      (s.opt 3).txBurn = some ⟨l, 7, 0, st, n⟩ ∧ (s.opt 3).rxBurn = some ⟨l, 7, 0, st, n⟩ ∧ 8 ≤ s.working 3 true ∧ 8 ≤ s.working 3 false)
    ∧ ((List.range 9).filter (fun l => (lit id).laneOf 3 false l = 7)).length = 1
    ∧ (∀ m ∈ [1, 3], ∀ s ∈ [lit (fun o => { o with peerRetired := BitVec.ofNat 9 m })],
      (((s.usable 3 false).filter (fun l => decide (l ≠ 8) && !(s.outLines 3 false).contains l)).length < 7 ↔ m = 3)) := by decide +kernel
theorem witness_RingsAreBurnishedRecoveredAndRetired_moves :
    (∀ rx ∈ [true, false], ∀ line ∈ [0, 8], ∀ lane ∈ [3, 7], ∀ at_ ∈ [0, 1], ∀ off ∈ [true, false], ∀ st ∈ [3, 5],
      ∀ s ∈ [lit (fun o => { o with moves := [⟨rx, off, lane, line, at_⟩], txBurn := some ⟨8, 7, 0, st, 0⟩, rxBurn := some ⟨8, 7, 0, st, 0⟩ })],
      s.carrying 3 = true ∧ (s.opt 3).moves = [⟨rx, off, lane, line, at_⟩] ∧ s.moveDue 3 ⟨rx, off, lane, line, at_⟩ = decide (at_ = 0)
      ∧ 8 ≤ s.working 3 rx ∧ (s.opt 3).rxBurn.map Burn.step = some st)
    ∧ (∀ s ∈ [lit (fun o => { o with due := [8], asked := [8], burnt := [8] })], (s.opt 3).urgent ++ (s.opt 3).due = [8] ∧ s.engineBurns 3 < 4 ∧ (s.opt 3).moves = []
      ∧ (s.opt 3).recovers.all (fun r => decide (r.phase ≠ 3)) = true ∧ (s.opt 3).asked.contains 8 = true ∧ (s.opt 3).burnt.contains 8 = true
      ∧ (s.setFld (.optPortState 3) OptPortState.txSpare 15).spareNow 3 false = 15)
    ∧ (∀ s ∈ [lit (fun o => { o with recovers := [⟨8, 7, 1, 3, false⟩] })], (s.opt 3).recovers = [⟨8, 7, 1, 3, false⟩] ∧ (s.opt 3).txBurn = none)
    ∧ (tagValid tagBytes = true ∧ (lit id).portState 3 ≠ 1 ∧ (tagBytes.getD 2 0).toNat / 16 ≠ 8 ∧ ((lit id).opt 3).recovers.any (fun r => decide (r.line = 8)) = false) := by decide +kernel

/-! ## Ethernet and management -/

/-- An Armed device with an ETHERNET section, port 65 in a state, and two queues of partition 0 with that control on it. -/
def ethDev (st ctl : Nat) (peers : List Peer) : State :=
  let e : Eth := { armed.eth with
    present := true, udpPort := 5000, ip := List.replicate 16 1, queuePort := [1, 1], partMac := [[2, 0, 0, 0, 0, 1]],
    devMac := [2, 0, 0, 0, 0, 9], peers := peers }
  let s := State.setPort { armed with eth := e } 65 st
  (s.setReg (.partEthqCtl 0 0) (BitVec.ofNat 64 ctl)).setReg (.partEthqCtl 0 1) (BitVec.ofNat 64 ctl)
/-- A queue control: enabled, its message on, vector 3, rings of 64 entries. -/
def ctlWord : Nat := 1 + 2 + 3 * 4 + 6 * 256 + 6 * 4096
/-- A frame with its FCS. -/
def fcs (b : List Byte) : List Byte := b ++ leBytes 4 (crc32 b)
/-- Sixty bytes of a frame to an address. -/
def frameTo (dst : List Byte) : List Byte := dst ++ [4, 0, 0, 0, 0, 7, 8, 0] ++ List.replicate 46 7
/-- A peer on port 65 with one packet not yet acknowledged. -/
def peer (down : Bool) (un : List PeerPkt) (n : Nat) : Peer :=
  ⟨7, 1, List.replicate 16 3, [2, 0, 0, 0, 0, 5], 9, un, 0, [], n, 4, false, false, false, down⟩
/-- That packet. -/
def peerPkt : PeerPkt := ⟨8, 3, 32, [1]⟩
/-- A frame from that peer to the device. -/
def peerFrame (seq ack vc : Nat) (nak : Bool) : List Byte :=
  udpFrame [2, 0, 0, 0, 0, 9] [2, 0, 0, 0, 0, 5] (List.replicate 16 3) (List.replicate 16 1) 5000 (ethShim seq ack vc nak ++ (packet 8 4 [1, 2, 3, 4]).header ++ [1, 2, 3, 4])
theorem witness_EthernetQueuesAndPeers :
    (∀ s ∈ [ethDev 1 ctlWord []], s.portState 65 = 1 ∧ s.feedLow 65 = false ∧ s.loopHolds 65 = false ∧ s.portState 64 ≠ 1 ∧ s.portState 64 ≠ 3)
    ∧ (∀ s ∈ [ethDev 3 ctlWord []], s.portState 65 = 3 ∧ s.eth.present = true ∧ s.queuesOn 0 1 = [0, 1] ∧ s.queuesOn 0 0 = [] ∧ s.partState 0 = 2
      ∧ s.partNums.count 0 = 1 ∧ s.host.busMaster.getLsbD 1 = true ∧ s.queueRuns 0 0 = true ∧ s.queueRuns 0 1 = true
      ∧ mfind s.eth.sending 1 = none ∧ s.eth.tx = [] ∧ mfind s.eth.rx 0 = none ∧ s.nextTurn 1 = none
      ∧ ({ s with host := { s.host with busMaster := 1 } } : State).host.busMaster.getLsbD 1 = false)
    ∧ (∀ g ∈ [true, false], ∀ s ∈ [ethDev 3 ctlWord [{ peer false [peerPkt] 6 with gap := g }]], ∀ r ∈ s.eth.peers, r.port = 1 ∧ r.gap = g ∧ r.resend ≤ r.unacked.length
      ∧ ∀ k ∈ r.unacked ++ r.wait, k.src ≤ 32)
    ∧ (∀ dst ∈ [[2, 0, 0, 0, 0, 1], [255, 255, 255, 255, 255, 255], [2, 0, 0, 0, 0, 8], [2, 0, 0, 0, 0, 9]], frameOk (fcs (frameTo dst)) = true
      ∧ (fcs (frameTo dst)).length = 64 ∧ etherType (frameTo dst) ≠ 0x8808 ∧ frameOk (frameTo dst) = false
      ∧ (ethDev 3 ctlWord []).eth.accepts (frameTo dst) = false)
    ∧ (∀ t ∈ [0, 5], ∀ s ∈ [((ethDev 3 ctlWord []).setFld (.partEthqRxTail 0 0) PartEthqRxTail.index t).setFld (.partEthqRxTail 0 1) PartEthqRxTail.index t],
      ∀ q ∈ [0, 1], (s.fld (.partEthqRxHead 0 q) PartEthqRxHead.index ≠ s.fld (.partEthqRxTail 0 q) PartEthqRxTail.index ↔ t = 5))
    ∧ bitsOf (0x1000 + 100 * 2 ^ 64) 64 14 = 100 ∧ bitsOf (0x1000 + 10 * 2 ^ 64) 64 14 = 10 := by
  refine ⟨?_, ?_, ?_, ?_, ?_, ?_, ?_⟩ <;> decide +kernel
theorem witness_EthernetPeers :
    (∀ seq ∈ [5, 6], ∀ nak ∈ [true, false], ∀ r ∈ [peer false [peerPkt] 6], ∀ s ∈ [ethDev 3 ctlWord [r]], ∀ f ∈ [peerFrame seq 3 3 nak],
      etherType f ≠ 0x8808 ∧ f.take 6 = s.eth.devMac ∧ s.eth.accepts f = true
      ∧ s.eth.peers.zipIdx.find? (fun y => decide (y.1.ip = ipBytes f 8 16)) = some (r, 0)
      ∧ leNat (((f.drop 54).drop 8).take 2) = seq ∧ ((((f.drop 54).drop 8).drop 4).headD 0).toNat / 8 % 2 = (if nak then 1 else 0)
      ∧ (r.acked 3).down = false ∧ (r.acked 3).unacked ≠ [] ∧ (r.acked 3).replays = 6)
    ∧ (∀ n ∈ [6, 7], ((peer false [peerPkt] n).acked 3).replays = n)
    ∧ (∀ r ∈ [peer false [peerPkt] 6], ∀ s ∈ [ethDev 3 ctlWord [r]], s.eth.peers[0]? = some r ∧ s.portState (64 + r.port) = 3
      ∧ State.portState (s.setPort 65 1) (64 + r.port) ≠ 3)
    ∧ (∀ f ∈ [peerFrame 5 3 3 false], frameOk (fcs f) = true ∧ fcs f = f ++ leBytes 4 (BitVec.ofNat 32 (crc32 f)).toNat
      ∧ (ethDev 3 ctlWord []).eth.accepts f = true ∧ (ethDev 3 ctlWord []).eth.peers = [])
    ∧ (∀ d ∈ [true, false], ∀ n ∈ [6, 7], ∀ r ∈ [peer d [peerPkt] n], ∀ s ∈ [ethDev 3 ctlWord [r]],
      s.peerOf 7 = some (r, 0) ∧ s.eth.peers[0]? = some r ∧ s.peerOf 8 = none ∧ (n + 1 < 8 ↔ n = 6)) := by
  refine ⟨?_, ?_, ?_, ?_, ?_⟩ <;> decide +kernel
theorem witness_EthernetQueues :
    (∀ st ∈ [1, 3], ∀ s ∈ [(ethDev st ctlWord []).setFld (.partEthqTxTail 0 1) PartEthqTxTail.index 3], 1 < s.ethCount 0 ∧ s.queueRuns 0 1 = true
      ∧ s.fld (.partEthqTxHead 0 1) PartEthqTxHead.index ≠ s.fld (.partEthqTxTail 0 1) PartEthqTxTail.index
      ∧ s.host.busMaster.getLsbD 1 = true ∧ s.host.busMaster.getLsbD 2 = false ∧ (s.portState (64 + s.queuePort 0 1) = 3 ↔ st = 3)
      ∧ (mfind s.parts 0).isSome = true ∧ s.host.vfEnable = true ∧ ¬ 2 < s.ethCount 0)
    ∧ (∀ l ∈ [59, 60, 9212, 9213], ((l < 60 ∨ 9212 < l) ↔ (l = 59 ∨ l = 9213)) ∧ bitsOf (l * 2 ^ 64) 64 14 = l)
    ∧ (∀ t ∈ [64, 65], ∀ s ∈ [ethDev 3 ctlWord []], (2 ^ s.fld (.partEthqCtl 0 0) PartEthqCtl.txLog2 < (t + 65536 - 0) % 65536 ↔ t = 65)
      ∧ (2 ^ s.fld (.partEthqCtl 0 0) PartEthqCtl.rxLog2 < (t + 65536 - 0) % 65536 ↔ t = 65))
    ∧ (∀ c ∈ [1, 1 + 3 * 4], PartEthqCtl.enable.get (BitVec.ofNat 64 c) = 1 ∧ (ethDev 3 0 []).fld (.partEthqCtl 0 0) PartEthqCtl.enable ≠ 1
      ∧ (PartEthqCtl.vector.get (BitVec.ofNat 64 c) < 3 ↔ c = 1)) ∧ PartEthqCtl.enable.get 0 = 0
    ∧ (∀ s ∈ [({ ethDev 3 ctlWord [] with eth := { (ethDev 3 ctlWord []).eth with deferred := [1] } } : State)],
      s.ethFirst 0 + 1 ∈ s.eth.deferred ∧ s.ethFirst 0 + 0 ∉ s.eth.deferred) := by
  refine ⟨?_, ?_, ?_, ?_, ?_, ?_⟩ <;> decide +kernel
/-- A ring entry of a frame of `len` bytes at 0x1000. -/
def entry (len : Nat) : Nat := 0x1000 + len * 2 ^ 64
/-- The device with a frame of queue 0 under way: its entry read or not, on the line of port 65 or not, and one host read. -/
def queued (ent : Option Nat) (line : Bool) (stale : Bool) (use : HostUse) (n : Nat) : State :=
  let s := (ethDev 3 ctlWord []).setFld (.partEthqTxTail 0 0) PartEthqTxTail.index 1
  { s with eth := { s.eth with tx := [(0, ⟨0, 0, 0x2000, ent, 1, [], stale⟩)], rx := [(0, ⟨0, 0, 0x3000, [List.replicate 60 7], stale⟩)]
                               sending := if line then [(1, 0)] else [] }
           host := { s.host with reqs := [(9, ⟨1, 0x2000, n, use⟩)] } }
theorem witness_EthernetQueues_frames :
    (∀ stale ∈ [true, false], ∀ s ∈ [queued (some (entry 100)) true stale (.txEntry 0 0) 16], 0 < s.ethCount 0 ∧ s.ethFirst 0 = 0 ∧ s.queuePort 0 0 = 1
      ∧ mfind s.eth.sending 1 = some 0 ∧ mfind s.eth.tx 0 = some ⟨0, 0, 0x2000, some (entry 100), 1, [], stale⟩ ∧ s.host.busMaster.getLsbD 1 = true)
    ∧ (∀ s ∈ [queued none false false (.txEntry 0 0) 16], mfind s.host.reqs 9 = some ⟨1, 0x2000, 16, .txEntry 0 0⟩ ∧ s.queueRuns 0 0 = true
      ∧ mfind s.eth.tx 0 = some ⟨0, 0, 0x2000, none, 1, [], false⟩ ∧ (leBytes 16 (entry 100)).length = 16)
    ∧ (∀ s ∈ [queued (some (entry 100)) false false (.txFrame 0 0 0) 100], mfind s.host.reqs 9 = some ⟨1, 0x2000, 100, .txFrame 0 0 0⟩
      ∧ s.queuesOn 0 1 = [0, 1] ∧ s.portState 65 = 3 ∧ mfind s.eth.sending 1 = none ∧ s.eth.peers = [])
    ∧ (∀ s ∈ [queued none false false (.rxEntry 0 0) 16], mfind s.host.reqs 9 = some ⟨1, 0x2000, 16, .rxEntry 0 0⟩
      ∧ mfind s.eth.rx 0 = some ⟨0, 0, 0x3000, [List.replicate 60 7], false⟩
      ∧ ∀ len ∈ [59, 60], (bitsOf (leNat (leBytes 16 (entry len))) 64 14 < (List.replicate 60 (7 : Byte)).length ↔ len = 59))
    ∧ (∀ s ∈ [ethDev 3 ctlWord []], (s.reg (.partEthqTxBase 0 0)).toNat % 4096 = 0 ∧ s.fld (.partEthqTxTail 0 0) PartEthqTxTail.index = 0 ∧ s.devState ≠ 3) := by
  refine ⟨?_, ?_, ?_, ?_, ?_⟩ <;> decide +kernel
/-- Whether a command answers a next state with a property. -/
def answers (i : Instr) (s : State) (f : State → Bool) : Bool := match exec i s with
  | .next t => f t
  | _ => false
theorem test_entry_write_back :
    answers (.ethTxComplete 0 0 1) (queued (some (entry 100)) true false (.txEntry 0 0) 16)
      (fun x => x.out.take 1 = [.hostWrite 1 0x2000 (leBytes 16 (entry 100 + 2 ^ 79))]) = true := by decide +kernel
/-- A device with a firmware copy update under way. -/
def updating : State := { bare with pkg := { bare.pkg with fwUpdate := some (1, [5]) } }
theorem witness_ManagementAnswers :
    (∀ tr ∈ [Transport.mctp, .vfDoe 1], tr.wf = true) ∧ armed.pkg.standby = true ∧ armed.pkg.booted = true ∧ armed.host.vfEnable = true
    ∧ State.reset.pkg.booted = false ∧ bare.host.vfEnable = false ∧ mfind armed.parts 1 = none ∧ (mfind armed.parts 0).isSome = true
    ∧ armed.pldmSensor 1000 = none
    ∧ (armed.pldmSensor 0).isSome = true
    ∧ updating.pkg.fwUpdate = some (1, [5]) ∧ bare.pkg.fwUpdate = none ∧ bare.harn.op = none
    ∧ bare.fwOk [] = false
    ∧ (∀ st ∈ [0, 1, 2, 3], ∀ s ∈ [({ armed with pkg := { armed.pkg with spdm := [(1, st)] } } : State)], mget s.pkg.spdm 1 0 = st)
    ∧ ((busy (.strap req 4)).harn.op = some (.strap req 4) ∧ (busy (.slotWrite 1)).harn.op = some (.slotWrite 1)) := by
  refine ⟨?_, ?_, ?_, ?_, ?_, ?_, ?_, ?_, ?_, ?_, ?_, ?_, ?_, ?_, ?_, ?_⟩ <;> decide +kernel

/-! ## Firmware -/

/-- The image words of a 384-bit number. -/
def numWords (v : Nat) : List Nat := (List.range 12).map (fun i => leNat ((beBytes 48 v).drop (4 * i) |>.take 4))
/-- A firmware image of one word with a sequence, signed with the private key 1 and the nonce 1, so that the key is the base point of
P-384, r its x coordinate and s the sum of digest and r. -/
def firmware (seq : Nat) : List (BitVec 64) :=
  let body := ([0x5348524E, 0x30001, 70, 1, 0xA15264, seq] ++ List.replicate 10 0 ++ [0x30, 20, 1, 0] ++ [7] ++ [0xFFFFFFFE] ++ numWords g384.1
    ++ numWords g384.2).map gfPair
  let r := g384.1 % n384
  body ++ (numWords r ++ numWords ((beNat (sha384 (imageBytes body)) + r) % n384)).map gfPair
/-- The digest of that key. -/
def firmwareKey : Nat := leNat (sha384 ([4] ++ beBytes 48 g384.1 ++ beBytes 48 g384.2))
/-- A device that has not booted, with that key fused and that image in the first firmware copy. -/
def unbooted : State := { bare with
  pkg := { bare.pkg with booted := false, bootDone := false, fwKey := firmwareKey }, flash := { bare.flash with fw0 := firmware 3 } }
theorem witness_firmware : unbooted.fwOk (fwImage unbooted.flash.fw0) = true := by decide +kernel
/-- The same device with a stage, a primary die, and dies tested and passed. -/
def testing (fallback prim tested ok : Nat) : State :=
  ((((({ bare with pkg := { bare.pkg with bootDone := false } } : State).setFld .devBoot DevBoot.stage 2).setFld .devBoot DevBoot.fallback fallback).setFld
    .devBoot DevBoot.primary prim).setFld .devDie DevDie.tested tested).setFld .devDie DevDie.ok ok
theorem witness_ResetsAndBootTakeTheDeviceThroughItsStages :
    (bare.pkg.perstHigh = true ∧ bare.pkg.sysRstHigh = true ∧ bare.pkg.standby = true ∧ bare.pkg.booted = true ∧ bare.pkg.rails = true)
    ∧ (∀ s ∈ [{ bare with pkg := { bare.pkg with standby := false, rails := false } }], s.pkg.standby = false)
    ∧ (∀ h ∈ [true, false], ∀ s ∈ [{ bare with pkg := { bare.pkg with rails := false, sagHold := h } }], s.pkg.rails = false ∧ s.pkg.standby = true
      ∧ s.pkg.sagHold = h ∧ s.pkg.tripHold = false)
    ∧ (unbooted.pkg.booted = false ∧ unbooted.pkg.standby = true ∧ unbooted.pkg.rails = true ∧ unbooted.pkg.perstHigh = true
      ∧ unbooted.pkg.sysRstHigh = true ∧ unbooted.pkg.sagHold = false ∧ unbooted.pkg.tripHold = false ∧ unbooted.pkg.refOk = true
      ∧ (7 : BitVec 4).getLsbD 3 = false ∧ (8 : BitVec 4).getLsbD 3 = true ∧ unbooted.fwOk (fwImage unbooted.flash.fw1) = false
      ∧ unbooted.fwOk (fwImage bare.flash.fw0) = false)
    ∧ (∀ f ∈ [0, 1], ∀ d ∈ [1, 2], ∀ s ∈ [testing f d 0 0], s.pkg.booted = true ∧ s.pkg.bootDone = false ∧ s.fld .devBoot DevBoot.stage = 2
      ∧ (s.fld .devDie DevDie.tested).testBit d = false ∧ s.fld .devBoot DevBoot.fallback = f ∧ s.fld .devBoot DevBoot.primary = d)
    ∧ ((testing 0 0 1 1).fld .devDie DevDie.tested).testBit 0 = true
    ∧ (∀ s ∈ [testing 0 0 1 1], ((s.fld .devDie DevDie.ok).testBit 0 = true) ∧ s.fld .devBoot DevBoot.primary = 0)
    ∧ (∀ a ∈ [true, false], ∀ c ∈ [SlotCtl.copy { bare.flash.ctl with autoload := a, count := 1 }],
      ∀ s ∈ [State.setFld { testing 0 0 1 1 with flash := { bare.flash with ctl0 := c } } .devStrap DevStrap.noAutoload 0],
      s.flash.current.isSome = true ∧ s.flash.ctl.autoload = a ∧ s.fld .devStrap DevStrap.noAutoload = 0)
    ∧ (∀ c ∈ [{ bare.flash.ctl0 with crc := 0 }], ∀ f ∈ [{ bare.flash with ctl0 := c, ctl1 := c }], f.current = none)
    ∧ (armed.pkg.booted = true ∧ armed.devState = 2 ∧ bare.devState = 0 ∧ bare.pkg.refOk = true ∧ unbooted.pkg.refOk = true)
    ∧ (∀ b ∈ [true, false], ∀ s ∈ [State.setFld { bare with pkg := { bare.pkg with loopBusy := b } } .harnState HarnState.devState 1],
      s.devState = 1 ∧ s.drained = true ∧ s.pkg.loopBusy = b ∧ s.pkg.booted = true ∧ 1 ≤ DevLoopCtl.kind.get (DevLoopCtl.start.put (DevLoopCtl.kind.put 0 4) 1)
      ∧ DevLoopCtl.kind.get (DevLoopCtl.start.put (DevLoopCtl.kind.put 0 4) 1) ≤ 4 ∧ DevLoopCtl.start.get (DevLoopCtl.start.put (DevLoopCtl.kind.put 0 4) 1) ≠ 0)
      := by
  refine ⟨?_, ?_, ?_, ?_, ?_, ?_, ?_, ?_, ?_, ?_, ?_⟩ <;> decide +kernel
theorem witness_ManagementTakesFirmware : unbooted.pkg.standby = true ∧ unbooted.harn.op = none ∧ unbooted.pkg.fwUpdate = none
    ∧ (fwImage unbooted.flash.fw0).length * 8 = 560 ∧ unbooted.bootedSeq = none := by
  refine ⟨?_, ?_, ?_, ?_, ?_⟩ <;> decide +kernel

/-! ## The test port -/

theorem witness_TheTestPortHoldsABareDevice : bare.devState = 0 ∧ armed.devState ≠ 0 ∧ bare.pkg.booted = true
    ∧ (∀ l ∈ [true, false], (({ bare with host := { bare.host with linkUp := l } } : State).host.linkUp = l)) ∧ (8 : BitVec 8).toNat = 8 := by
  refine ⟨?_, ?_, ?_, ?_, ?_⟩ <;> decide +kernel

/-! ## Errors, steps and power -/

/-- An event record of partition 0. -/
def record (code part flags : Nat) : Rec :=
  { code := code, block := 3, flags := flags, count := 1, uptime := 5, bootId := 1, stitch := 2, part := part, core := none, phys := 0xFFFF,
    detail := List.replicate 20 9 }
/-- The device with intake and overflow entries. -/
def entries (i : List Rec) (o : List (Nat × Rec)) : State := { armed with err := { armed.err with intake := i, overflow := o } }
/-- Core 1 of a Framed partition with a run of Awl. -/
def awl (r : Option AwlRun) (d p : Nat) : State :=
  let s := dev d p
  { s with cores := [(0, Core.fresh 0), (1, { Core.fresh 1 with awl := r })] }
theorem witness_EventsAndKernelsAreRecorded :
    (∀ c ∈ [0x1801, 0x3C02], ∀ p ∈ [0, 1, 32], ∀ f ∈ [0, 8], ∀ r ∈ [record c p f], ∀ i ∈ [[r], []],
      (entries i (if i = [] then [(1, r)] else [])).nextEntry.isSome = true ∧ (entries i []).partNums.count 0 = 1
      ∧ (r.code / 4096 = 3 ↔ c = 0x3C02) ∧ (r.part < 32 ↔ p ≠ 32) ∧ r.flags.testBit 3 = decide (f = 8)
      ∧ (mfind (entries i []).parts r.part).isSome = decide (p = 0))
    ∧ (armed.err.intake = [] ∧ armed.err.overflow = [])
    ∧ (ErrCapCtl.firstValid.get (BitVec.ofNat 64 (2 ^ 64 - 1)) = 1 ∧ ErrCapCtl.firstValid.get 0 ≠ 1 ∧ armed.pkg.booted = true ∧ unbooted.pkg.booted = false) := by
  refine ⟨?_, ?_, ?_⟩ <;> decide +kernel
theorem witness_KernelsRun :
    (∀ m ∈ [0, 6], (ErrAwlCtl.start.get (ErrAwlCtl.core.put (ErrAwlCtl.mask.put (ErrAwlCtl.start.put 0 1) m) 1) = 1
      ∧ ErrAwlCtl.core.get (ErrAwlCtl.core.put (ErrAwlCtl.mask.put (ErrAwlCtl.start.put 0 1) m) 1) = 1
      ∧ ErrAwlCtl.mask.get (ErrAwlCtl.core.put (ErrAwlCtl.mask.put (ErrAwlCtl.start.put 0 1) m) 1) = m))
    ∧ (∀ s ∈ [awl none 2 1], s.fld .errAwlStat ErrAwlStat.busy = 0 ∧ mfind s.cores 1 = some { Core.fresh 1 with awl := none } ∧ s.isRetired 1 = false
      ∧ s.ownerOf 1 = some 0 ∧ s.partState 0 ≠ 2 ∧ mfind s.cores 2 = none)
    ∧ (armed.partState 0 = 2 ∧ armed.ownerOf 1 = some 0)
    ∧ (∀ first ∈ [none, some 6], ∀ rest ∈ [[], [2]], ∀ dec ∈ [true, false], ∀ s ∈ [awl (some ⟨some 1, none, rest, dec, first⟩) 2 2],
      mfind s.cores 1 = some { Core.fresh 1 with awl := some ⟨some 1, none, rest, dec, first⟩ } ∧ s.ownerOf 1 = some 0)
    ∧ (∀ n ∈ [0, 1, 2], ∀ f ∈ [1, 2], ∀ v ∈ [[PartAwlCtl.fromF.put (PartAwlCtl.stitches.put 0 n) f]], ∀ w ∈ v.map (fun x => (PartAwlCtl.stitches.get x, PartAwlCtl.fromF.get x)),
      w.1 = n ∧ ((2 ≤ w.1 ∧ armed.count + 1 < w.2) ↔ n = 2 ∧ f = 2))
    ∧ (armed.fld (.partAwlWin 0) PartAwlWin.offset + 262144 ≤ 2097152 ∧ (mfind armed.parts 0).isSome = true ∧ armed.host.vfEnable = true
      ∧ (mfind armed.parts 1).isSome = false) := by
  refine ⟨?_, ?_, ?_, ?_, ?_, ?_⟩ <;> decide +kernel
/-- Partition 0 in a state of a step, its fold running or not, with an output range of three blocks of core 1. -/
def inStep (st busy : Nat) : State :=
  (((((armed.setFld (.partStepStatus 0) PartStepStatus.state st).setFld (.partStepStatus 0) PartStepStatus.busy busy).setFld (.partStepRange 0 5 0)
    PartStepRange.kind 2).setFld (.partStepRange 0 5 0) PartStepRange.whereF 1).setFld (.partStepRange 0 5 1) PartStepRange1.base 2).setFld (.partStepRange 0 5 1)
      PartStepRange1.size 3
/-- A replay of partition 0 that waits for a response. -/
def replaying (busy : Nat) : State :=
  let s := armed.setFld (.partReplayStatus 0) PartReplayStatus.busy busy
  { s with fab := { s.fab with xfers := [(5, ⟨.replay 0 0, 0, 4, 4, false⟩)] } }
theorem witness_StepsReplaysAndReplicas :
    (∀ st ∈ [0, 1, 2, 3], ∀ b ∈ [0, 1], ∀ s ∈ [inStep st b], s.fld (.partStepStatus 0) PartStepStatus.state = st
      ∧ s.fld (.partStepStatus 0) PartStepStatus.busy = b ∧ (mfind s.parts 0).isSome = true ∧ s.host.vfEnable = true)
    ∧ (∀ i, i < 16 → (inStep 0 0).stepRangeOk 0 i = true ∧ ((inStep 0 0).stepRange 0 i).2.2.2 ≤ 2 ^ 28)
    ∧ ((inStep 0 0).stepRange 0 5).1 = 2 ∧ ((inStep 0 0).stepRange 0 5).2.2.2 = 3
    ∧ (∀ n ∈ [0, 8192], ∀ s ∈ [armed.setFld (.partReplayLen 0) PartReplayLen.bytes n], s.partState 0 = 2 ∧ (s.reg (.partReplaySrc 0)).toNat % 4096 = 0
      ∧ (s.reg (.partReplayDst 0)).toNat % 4096 = 0 ∧ s.fld (.partReplayLen 0) PartReplayLen.bytes = n ∧ s.fld (.partReplayStatus 0) PartReplayStatus.busy = 0
      ∧ (s.spaceLoc 0 0 0 n).isSome = true)
    ∧ (∀ v ∈ [0, 1], ∀ s ∈ [armed.setReg (.partWdigMine 0 3) (BitVec.ofNat 64 v)], ((∀ j, j < 4 → s.reg (.partWdigMine 0 j) = s.reg (.partWdigPeer 0 j)) ↔ v = 0))
    ∧ (PartWdigCtl.compare.get 0 = 0 ∧ PartWdigCtl.compare.get (PartWdigCtl.compare.put 0 1) ≠ 0)
    ∧ ((replaying 1).fab.xfers.find? (fun y => y.2.isReplayOf 0)).isSome = true ∧ (replaying 1).fld (.partReplayStatus 0) PartReplayStatus.busy = 1
    ∧ armed.fab.xfers.find? (fun y => y.2.isReplayOf 0) = none := by
  refine ⟨?_, ?_, ?_, ?_, ?_, ?_, ?_, ?_, ?_, ?_⟩ <;> decide +kernel
/-- The device of the example of R527: a cap and three partitions' holdings. -/
def capped : State :=
  let s : State := { armed with parts := [(0, part), (1, part), (2, part)] }
  let s := (((s.setFld .pwrCfg PwrCfg.cap0 2000).setFld .pwrState PwrState.cap 2000).setFld .pwrState PwrState.pool 200).setFld .pwrSagCtl PwrSagCtl.cut 1
  (((s.setFld .pwrSagCtl PwrSagCtl.pct 50).setHeld 0 800).setHeld 1 600).setHeld 2 400
/-- That device with the reset limits in every class and a history of domain 0. -/
def limits (crit : List Nat) : State :=
  let s := (List.range 4).foldl (fun (s : State) c => s.setReg (.thrmClass c) (BitVec.ofNat 64 (105 + 115 * 256 + 15 * 65536 + 4 * 2 ^ 24))) capped
  { s with pwr := { s.pwr with critOnce := crit } }
theorem witness_PowerHeatAndLightLimits :
    (∀ x ∈ [0, 1], ∀ s ∈ [capped.setFld .pwrState PwrState.sag x], s.fld .pwrState PwrState.sag = x)
    ∧ (∀ c ∈ [0, 1], ∀ cap ∈ [900, 2000], ∀ s ∈ [(capped.setFld .pwrSagCtl PwrSagCtl.cut c).setFld .pwrState PwrState.cap cap],
      s.fld .pwrSagCtl PwrSagCtl.cut = c ∧ s.cap0 ≠ 0 ∧ s.fld .pwrSagCtl PwrSagCtl.pct < s.capPct
      ∧ (s.cap0 * s.fld .pwrSagCtl PwrSagCtl.pct / 100 < s.fld .pwrState PwrState.cap ↔ cap = 2000))
    ∧ lossShares 800 [(0, 800), (1, 600), (2, 400)] = [(0, 356), (1, 267), (2, 177)]
    ∧ (armed.pkg.standby = true ∧ armed.pkg.rails = true ∧ gfOk (gfPair 700) = true ∧ gfOk 700 = false)
    ∧ (∀ a ∈ [1000, 1001], (((mfind capped.parts 0).isSome = true ∧ ((capped.partNums.filter (fun q => decide (q ≠ 0))).map
        (fun q => (capped.setFld (.pwrGrant 1) PwrGrant.allot 1000).fld (.pwrGrant q) PwrGrant.allot)).sum + a ≤ capped.cap0) ↔ a = 1000))
    ∧ capped.cap0 = 2000 := by
  refine ⟨?_, ?_, ?_, ?_, ?_, ?_⟩ <;> decide +kernel
theorem witness_SensorsFeedsAndSlew :
    (∀ t ∈ [850, 1199], ∀ s ∈ [limits []], s.pkg.rails = true ∧ s.sensorFailed 0 = false ∧ s.sensorGone 0 = false
      ∧ ((s.readSensor 0 (.value t)).tripped = none ↔ t = 850) ∧ (s.readSensor 0 (.value t)).atThrottle 0 = true
      ∧ (s.readSensor 0 .failed).tripped = none ∧ (s.fld .thrmStatus ThrmStatus.atLimit).testBit 0 = false)
    ∧ (∀ s ∈ [(limits [0]).readSensor 0 (.value 930)], s.atCritical 0 = true ∧ s.tripped = none ∧ (0 ∈ s.pwr.critOnce))
    ∧ (∀ s ∈ [((limits []).readSensor 0 (.value 200)).readSensor 0 (.value 800)], s.tooFast 0 = true ∧ s.tripped = none
      ∧ (s.fld .thrmStatus ThrmStatus.rising).testBit 0 = false)
    ∧ (3 ∈ feedPorts 0 ∧ (lit id).lit 3 = true ∧ (port 2).portState 3 = 2 ∧ (port 1).lit 3 = false ∧ (port 1).portState 3 = 1
      ∧ ((port 1).opt 3).seekWait = false ∧ (port 1).loopHolds 3 = false ∧ 8 ∉ feedPorts 0)
    ∧ (∀ s ∈ [{ armed with parts := [(0, { part with slewHist := [8, 3] })] }], s.partNums.count 0 = 1
      ∧ mfind s.parts 0 = some { part with slewHist := [8, 3] } ∧ s.fld .pwrState PwrState.sag = 0 ∧ s.devState ≠ 3
      ∧ ((s.setReg (.coreMxState 0) (BitVec.allOnes 64)).setReg (.coreMxState 1) (BitVec.allOnes 64)).idleStrips 0 = 8)
    ∧ (∀ s ∈ [awl (some ⟨none, some 4, [], false, none⟩) 2 1], ((mfind s.cores 1).bind Core.awl).bind AwlRun.wait = some 4 ∧ ((mfind s.cores 0).bind Core.awl).bind AwlRun.wait = none
      ∧ s.awlMay (kernelStrips 1 4) = false ∧ s.awlMay (kernelStrips 1 13) = true) := by
  refine ⟨?_, ?_, ?_, ?_, ?_, ?_⟩ <;> decide +kernel
theorem test_sag_example : answers (.sagWarn 688) capped (fun x => x.heldBy 0 = 444 && x.heldBy 1 = 333 && x.heldBy 2 = 223
    && x.fld .pwrState PwrState.pool = 0 && x.fld .pwrState PwrState.cap = 1000) = true := by decide +kernel

/-! ## The machine -/

theorem witness_StepRunsTheFrontCommand : (∀ s ∈ [({ armed with pending := [.arm] } : State)], s.pending = .arm :: [])
    ∧ armed.pending = [] ∧ armed.pkg.standby = true ∧ armed.pkg.refOk = true := by refine ⟨?_, ?_, ?_, ?_⟩ <;> decide +kernel
theorem witness_EveryQueueOfCommandsIsServed :
    (∀ s ∈ [({ armed with pending := [.arm, .drain] } : State)], (∀ i ∈ s.pending, i.wf = true) ∧ 2 ≤ s.pending.length)
    ∧ (∀ s ∈ [({ armed with pending := [.vfFlr 33] } : State)], s.pending = .vfFlr 33 :: [] ∧ (Instr.vfFlr 33).wf = false) := by
  refine ⟨?_, ?_⟩ <;> decide +kernel

end Sys2Proof.Tests
end

section
/-! PROOF. Writes that reach their block, and writes to GF registers whose halves do not complement (R8, R428, R457). -/
namespace Sys2Proof.Machine

/-! ## Commands that complete -/

/-- A command whose operands name units completes when its effect leaves the queue alone. -/
theorem completes_commit {i : Instr} {s t : State} {P : State → Prop} (e : exec i s = commit s i.wf t) (w : i.wf = true)
    (q : t.pending = s.pending) (p : P t) : Completes i s P :=
  completes_of (w ▸ e) q p

/-- A command whose operands name units and whose effect is none leaves the state. -/
theorem completes_same {i : Instr} {s : State} (e : exec i s = commit s i.wf s) (w : i.wf = true) : Completes i s (fun x => x = s) :=
  completes_commit e w rfl rfl

/-! ## Writes that reach their block -/

theorem State.pfWrite_open {s : State} (hb : s.pkg.booted = true) (hd : s.devState ≠ 3) (eff : State) : s.pfWrite eff = eff := by
  simp [State.pfWrite, hb, hd]

theorem State.pfWrite_closed {s : State} (h : s.pkg.booted = false ∨ s.devState = 3) (eff : State) : s.pfWrite eff = s := by
  rcases h with h | h <;> simp [State.pfWrite, h]

theorem State.vfWrite_open {s : State} {p : Nat} (hp : (mfind s.parts p).isSome = true) (hv : s.host.vfEnable = true)
    (hd : s.devState ≠ 3) (eff : State) : s.vfWrite p eff = eff := by
  obtain ⟨q, hq⟩ := Option.isSome_iff_exists.mp hp
  simp [State.vfWrite, hq, hv, hd]

theorem State.vfWrite_closed {s : State} {p : Nat} (h : (mfind s.parts p).isSome = false ∨ s.devState = 3) (eff : State) :
    s.vfWrite p eff = s := by
  unfold State.vfWrite
  split
  · rfl
  · rename_i hq
    rcases h with h | h
    · simp [hq] at h
    · simp [h]

/-! ## Rejected writes -/

/-- The registers that a rejected write may change: the count of GF_MISMATCH and the error path. -/
def Reg.rejects : Reg → Bool
  | .fabConsDev => true
  | r => r.ofErr

theorem Reg.ofErr_rejects (r : Reg) (h : r.ofErr = true) : r.rejects = true := by
  unfold Reg.rejects
  split
  · rfl
  · exact h

theorem State.gfReject_noted (s : State) (p : Option Nat) (off : Nat) : (s.gfReject p off).Noted 0x4B01 :=
  State.log_noted _ _ (by simp) (by simp)

/-- A rejected write changes nothing but the count, the error path, what is sent and what is pending. -/
theorem gfReject_keep {β : Type} {g : State → β} (h : BlindReg g Reg.rejects) (ho : BlindPend g) (o : BlindOut g) (e : BlindErr g)
    (s : State) (p : Option Nat) (off : Nat) : g (s.gfReject p off) = g s := by
  unfold State.gfReject
  rw [State.log_record _ _ (by simp) (by simp), record_keep (h.mono Reg.ofErr_rejects) ho o e, satFld_keep h rfl]

theorem State.gfReject_reg (s : State) (p : Option Nat) (off : Nat) {r : Reg} (h : r.rejects = false) :
    (s.gfReject p off).reg r = s.reg r :=
  gfReject_keep (blindReg_reg h) (fun _ _ => rfl) (fun _ _ => rfl) (fun _ _ => rfl) s p off

theorem State.gfReject_pending (s : State) (p : Option Nat) (off : Nat) : (s.gfReject p off).pending = s.pending :=
  gfReject_keep (g := State.pending) (fun _ _ _ _ => rfl) (fun _ _ => rfl) (fun _ _ => rfl) (fun _ _ => rfl) s p off

theorem State.gfReject_flash (s : State) (p : Option Nat) (off : Nat) : (s.gfReject p off).flash = s.flash :=
  gfReject_keep (g := State.flash) (fun _ _ _ _ => rfl) (fun _ _ => rfl) (fun _ _ => rfl) (fun _ _ => rfl) s p off

/-- A command whose effect is the rejection of its write keeps the register and logs GF_MISMATCH. -/
theorem completes_rejected {i : Instr} {s : State} {r : Reg} {p : Option Nat} {off : Nat}
    (e : exec i s = commit s i.wf (s.gfReject p off)) (w : i.wf = true) (hr : r.rejects = false) :
    Completes i s (fun x => x.reg r = s.reg r ∧ x.Noted 0x4B01) :=
  completes_commit e w (s.gfReject_pending p off) ⟨s.gfReject_reg p off hr, s.gfReject_noted p off⟩

/-- A table write whose halves do not complement. -/
theorem State.tableWrite_rejected {s : State} {v : BitVec 64} (hv : gfOk v = false) (hb : s.pkg.booted = true) (hd : s.devState ≠ 3)
    (tab idx off : Nat) (r : Reg) (ok : Bool) (after : State → State) :
    s.tableWrite tab idx off r v ok after = s.gfReject none (0x00600000 + off) := by
  simp [State.tableWrite, State.pfWrite_open hb hd, hv]

theorem execHarnBootWrite_rejected {s : State} {v : BitVec 64} (hv : gfOk v = false) (hb : s.pkg.booted = true) (hd : s.devState ≠ 3) :
    exec (.harnBootWrite v) s = commit s (Instr.wf (.harnBootWrite v)) (s.gfReject none 0x00100028) := by
  show execHarnBootWrite v s = _
  simp [execHarnBootWrite, hb, hd, hv]

/-- Settles O44: each of the writes comes to `gfReject`, which changes only the count of mismatches and the error path. -/
theorem rejectedGrainFleshWritesKeepTheRegister : Obligations.RejectedGrainFleshWritesKeepTheRegister := by
  unfold Obligations.RejectedGrainFleshWritesKeepTheRegister
  intro s v hv hb hd
  refine ⟨?_, fun n hn => ⟨?_, ?_⟩, fun p i hp hi => ?_, fun p hp => ?_, fun off c b i ho hview hplace hc => ?_,
    fun p hp hgrant hvf => ⟨?_, fun i w hi hw => ?_⟩⟩
  · refine completes_rejected (execHarnBootWrite_rejected hv hb hd) rfl rfl
  · exact completes_rejected (congrArg (commit s _) (State.tableWrite_rejected hv hb hd ..)) (decide_eq_true hn) rfl
  · exact completes_rejected (congrArg (commit s _) (State.tableWrite_rejected hv hb hd ..)) (decide_eq_true hn) rfl
  · refine completes_rejected (congrArg (commit s _) (State.tableWrite_rejected hv hb hd ..)) ?_ rfl
    simp [Instr.wf, hp, hi]
  · refine completes_rejected (p := none) (off := 0x00300100 + 8 * p) ?_ (decide_eq_true hp) rfl
    show execPwrGrantWrite p v s = _
    simp [execPwrGrantWrite, Instr.wf, State.pfWrite_open hb hd, hv]
  · refine completes_rejected (p := none) (off := 0x1000000 + 0x4000 * c + 0x1800 + 0x40 * b + 8 * i) ?_ rfl rfl
    show execRegisterWrite .pf off v s = _
    simp [execRegisterWrite, ho, hview, hplace, BarPlace.whenFenced, State.pfWrite_open hb hd, State.writePlace, State.writeReg, hc,
      State.remapWrite, hv]
  · refine completes_rejected (p := some p) (off := 0x3610) ?_ (decide_eq_true hp) rfl
    show execPartGtackCtlWrite p v s = _
    simp [execPartGtackCtlWrite, State.vfWrite_open hgrant hvf hd, hv]
  · refine completes_rejected (p := some p) (off := 0x4000 + 0x20 * i + 8 * w) ?_ (by simp [Instr.wf, hp, hi, hw]) rfl
    show execPartRegionWrite p i w v s = _
    simp [execPartRegionWrite, State.vfWrite_open hgrant hvf hd, hv]

end Sys2Proof.Machine
end

section
/-! PROOF. RAISE_SEQ and HARN_BOOT: a refused command's frame, and the slot control block after an update (R8, R32, R40, R64). -/
namespace Sys2Proof.Machine

/-! ## Refusals through the PF -/

/-- The registers that a refusal of a command of the PF may change. -/
def Reg.refuses : Reg → Bool
  | .harnStatus => true
  | r => r.ofErr

theorem Reg.ofErr_refuses (r : Reg) (h : r.ofErr = true) : r.refuses = true := by
  unfold Reg.refuses
  split
  · rfl
  · exact h

theorem harnRefusePf_keep {β : Type} {g : State → β} (h : BlindReg g Reg.refuses) (ho : BlindPend g) (o : BlindOut g) (e : BlindErr g)
    (s : State) (cmd : Nat) : g (s.harnRefuse cmd none) = g s := by
  unfold State.harnRefuse
  dsimp only
  rw [harnEvent_keep (h.mono Reg.ofErr_refuses) ho o e, setFld_keep h rfl, setFld_keep h rfl, setFld_keep h rfl]

/-- What differs only in registers, pending messages, sent items and the event queues is the same data. -/
theorem sameData_of {P : Reg → Bool} {s t : State}
    (h : ∀ {β : Type} (g : State → β), BlindReg g P → BlindPend g → BlindOut g → BlindErr g → g t = g s) : SameData s t := by
  have e := h (fun x : State => { x with regs := s.regs, live := s.live, host := s.host, harn := s.harn, err := s.err, out := s.out, freeCtr := s.freeCtr })
    (fun _ _ _ _ => rfl) (fun _ _ => rfl) (fun _ _ => rfl) (fun _ _ => rfl)
  exact congrArg (fun x : State => { x with regs := t.regs, live := t.live, host := t.host, harn := t.harn, err := t.err, out := t.out, freeCtr := t.freeCtr }) e

theorem harnRefused_harnRefuse (s : State) (cmd : Nat) : HarnRefused s (s.harnRefuse cmd none) := by
  obtain ⟨hr, hc⟩ := s.harnRefuse_status cmd
  refine ⟨hr, hc, ?_, sameData_of (P := Reg.refuses) (fun g h ho o e => harnRefusePf_keep h ho o e s cmd), ?_⟩
  · exact harnRefusePf_keep (g := State.devState) (blindReg_fld _ rfl) (fun _ _ => rfl) (fun _ _ => rfl) (fun _ _ => rfl) s cmd
  · exact harnRefusePf_keep (g := State.harn) (fun _ _ _ _ => rfl) (fun _ _ => rfl) (fun _ _ => rfl) (fun _ _ => rfl) s cmd

theorem State.harnRefuse_pending (s : State) (cmd : Nat) : (s.harnRefuse cmd none).pending = s.pending :=
  harnRefusePf_keep (g := State.pending) (fun _ _ _ _ => rfl) (fun _ _ => rfl) (fun _ _ => rfl) (fun _ _ => rfl) s cmd

/-! ## RAISE_SEQ -/

/-- The device after RAISE_SEQ in Armed. -/
def State.seqRaised (s : State) : State :=
  (s.setFld .harnFuse HarnFuse.minSequence (max (s.fld .harnFuse HarnFuse.minSequence) (min 64 (wordAt (grains s.harn.staging) 5)))).harnDone none

theorem execRaiseSeq_done {s : State} (ho : s.HarnOpen) (hb : s.harnBusy = false) (hd : s.devState = 2) :
    exec .raiseSeq s = commit s true s.seqRaised := by
  show execRaiseSeq s = _
  simp [execRaiseSeq, Instr.wf, State.harnCommand_open s 8 none _ ho, hb, hd, State.seqRaised]

theorem execRaiseSeq_refused {s : State} (ho : s.HarnOpen) (h : s.harnBusy = true ∨ s.devState ≠ 2) :
    exec .raiseSeq s = commit s true (s.harnRefuse 8 none) := by
  show execRaiseSeq s = _
  simp [execRaiseSeq, Instr.wf, State.harnCommand_open s 8 none _ ho, h]

/-- The registers that RAISE_SEQ may change. -/
def Reg.raised (r : Reg) : Bool := decide (r ∈ [Reg.harnFuse, .harnStatus, .devIrqStat])

theorem seqRaised_keep {β : Type} {g : State → β} (h : BlindReg g Reg.raised) (ho : BlindPend g) (o : BlindOut g) (s : State) :
    g s.seqRaised = g s := by
  unfold State.seqRaised
  rw [harnDone_keep h ho o rfl rfl, setFld_keep h rfl]

/-- The fused minimum after RAISE_SEQ: the larger number still fits the field. -/
theorem State.seqRaised_minSequence (s : State) : s.seqRaised.fld .harnFuse HarnFuse.minSequence
    = max (s.fld .harnFuse HarnFuse.minSequence) (min 64 (wordAt (grains s.harn.staging) 5)) := by
  have b : BlindReg (fun x => x.fld .harnFuse HarnFuse.minSequence) (fun r => decide (r ≠ .harnFuse)) := blindReg_fld _ rfl
  have old : s.fld .harnFuse HarnFuse.minSequence < 128 := s.fld_lt _ _
  unfold State.seqRaised
  rw [harnDone_keep b (fun _ _ => rfl) (fun _ _ => rfl) rfl rfl, State.fld_setFld_self _ _ _ rfl]
  exact Nat.mod_eq_of_lt (show _ < 128 by omega)

/-! ## The slot control block (R40) -/

theorem gfPair_toNat (w : Nat) : (gfPair w).toNat = w % 2 ^ 32 + (2 ^ 32 - 1 - w % 2 ^ 32) * 2 ^ 32 := by
  have : w % 2 ^ 32 < 2 ^ 32 := Nat.mod_lt _ (by decide)
  rw [gfPair, BitVec.toNat_ofNat]
  exact Nat.mod_eq_of_lt (by omega)

/-- A pair complements. -/
theorem gfOk_gfPair (w : Nat) : gfOk (gfPair w) = true := by
  have : w % 2 ^ 32 < 2 ^ 32 := Nat.mod_lt _ (by decide)
  simp only [gfOk, gfPair_toNat, decide_eq_true_eq]
  omega

/-- The grain of a pair. -/
theorem grain_gfPair (w : Nat) : grain (gfPair w) = w % 2 ^ 32 := by
  rw [grain, gfPair_toNat]
  omega

/-- A copy as it is written is good. -/
theorem SlotCtl.copy_good (c : SlotCtl) : c.copy.good = true := by
  simp [SlotCtl.copy, SlotCopy.good, gfOk_gfPair]

theorem b2n_grain_eq (b : Bool) : decide (b2n b % 2 ^ 32 = 1) = b := by cases b <;> rfl

/-- A copy says what was written in it. -/
theorem SlotCtl.read_copy (c : SlotCtl) (h : c.count < 2 ^ 32) : c.copy.read = c := by
  have e : c.copy.read = ⟨c.count % 2 ^ 32, decide (b2n c.autoload % 2 ^ 32 = 1), decide (b2n c.preferred % 2 ^ 32 = 1),
      decide (b2n c.validA % 2 ^ 32 = 1), decide (b2n c.validB % 2 ^ 32 = 1)⟩ := by
    simp [SlotCopy.read, SlotCtl.copy, grains, wordAt, grain_gfPair]
  rw [e, Nat.mod_eq_of_lt h, b2n_grain_eq, b2n_grain_eq, b2n_grain_eq, b2n_grain_eq]

/-- The next update count is the higher one. -/
theorem countHigher_succ (n : Nat) : countHigher ((n + 1) % 2 ^ 32) n = true := by
  simp only [countHigher, Bool.and_eq_true, decide_eq_true_eq]
  omega

theorem countHigher_of_succ (n : Nat) : countHigher n ((n + 1) % 2 ^ 32) = false := by
  simp only [countHigher, Bool.and_eq_false_iff, decide_eq_false_iff_not]
  omega

/-- What an update makes of the contents in force. -/
def SlotCtl.next (c : SlotCtl) (g : SlotCtl → SlotCtl) : SlotCtl := { g c with count := (c.count + 1) % 2 ^ 32 }

theorem SlotCtl.read_next (c : SlotCtl) (g : SlotCtl → SlotCtl) : (c.next g).copy.read = c.next g :=
  SlotCtl.read_copy _ (Nat.mod_lt _ (by decide))

/-- The first copy in force: the second one takes the update and is in force. -/
theorem Flash.update_second {f : Flash} (h : f.current = some false) (g : SlotCtl → SlotCtl) :
    f.update g = { f with ctl1 := (f.ctl.next g).copy } ∧ (f.update g).current = some true ∧ (f.update g).ctl = f.ctl.next g := by
  have hu : f.update g = { f with ctl1 := (f.ctl.next g).copy } := if_pos h
  have hc : f.ctl = f.ctl0.read := by unfold Flash.ctl; rw [h]
  have hg : f.ctl0.good = true := by
    unfold Flash.current at h
    cases h0 : f.ctl0.good <;> cases h1 : f.ctl1.good <;> simp [h0, h1] at h ⊢
  have hn : (f.update g).current = some true := by
    unfold Flash.current
    rw [hu]
    simp only [hg, SlotCtl.copy_good, SlotCtl.read_next, Bool.and_self, if_true]
    rw [← hc]
    exact congrArg some (countHigher_succ _)
  refine ⟨hu, hn, ?_⟩
  unfold Flash.ctl
  rw [hn, hu]
  exact SlotCtl.read_next f.ctl g

/-- The second copy in force, or none: the first one takes the update and is in force. -/
theorem Flash.update_first {f : Flash} (h : f.current ≠ some false) (g : SlotCtl → SlotCtl) :
    f.update g = { f with ctl0 := (f.ctl.next g).copy } ∧ (f.update g).current = some false ∧ (f.update g).ctl = f.ctl.next g := by
  have hu : f.update g = { f with ctl0 := (f.ctl.next g).copy } := if_neg h
  have hn : (f.update g).current = some false := by
    cases h1 : f.ctl1.good with
    | false =>
      unfold Flash.current
      rw [hu]
      simp [h1, SlotCtl.copy_good]
    | true =>
      have hc : f.ctl = f.ctl1.read := by
        unfold Flash.ctl
        have hcur : f.current = some true := by
          unfold Flash.current at h ⊢
          cases h0 : f.ctl0.good <;> simp [h0, h1] at h ⊢
          exact h
        rw [hcur]
      unfold Flash.current
      rw [hu]
      simp only [h1, SlotCtl.copy_good, SlotCtl.read_next, Bool.and_self, if_true]
      rw [← hc]
      exact congrArg some (countHigher_of_succ _)
  refine ⟨hu, hn, ?_⟩
  unfold Flash.ctl
  rw [hn, hu]
  exact SlotCtl.read_next f.ctl g

/-! ## HARN_BOOT -/

/-- What a write of HARN_BOOT changes in the slot control block. -/
def bootFlags (v : BitVec 64) (c : SlotCtl) : SlotCtl := { c with autoload := bitAt v.toNat 0, preferred := bitAt v.toNat 1 }

theorem SlotCtl.next_bootFlags (c : SlotCtl) (v : BitVec 64) :
    c.next (bootFlags v) = ⟨(c.count + 1) % 2 ^ 32, bitAt v.toNat 0, bitAt v.toNat 1, c.validA, c.validB⟩ := rfl

/-- The device with another boot flash. -/
def State.withFlash (s : State) (f : Flash) : State := { s with flash := f }

theorem State.withFlash_pending (s : State) (f : Flash) : (s.withFlash f).pending = s.pending := rfl
theorem State.withFlash_flash (s : State) (f : Flash) : (s.withFlash f).flash = f := rfl
theorem State.withFlash_reg (s : State) (f : Flash) (r : Reg) : (s.withFlash f).reg r = s.reg r := rfl

theorem commit_bootSet (s : State) (v : BitVec 64) :
    commit s (Instr.wf (.harnBootWrite v)) { s.setReg .harnBoot (gfPair (v.toNat % 4)) with
        flash := s.flash.update (fun c => { c with autoload := bitAt v.toNat 0, preferred := bitAt v.toNat 1 }) }
      = commit s true ((s.setReg .harnBoot (gfPair (v.toNat % 4))).withFlash (s.flash.update (bootFlags v))) := rfl

theorem execHarnBootWrite_accepted {s : State} {v : BitVec 64} (hv : gfOk v = true) (hb : s.pkg.booted = true) (hd : s.devState ≠ 3) :
    exec (.harnBootWrite v) s
      = commit s true ((s.setReg .harnBoot (gfPair (v.toNat % 4))).withFlash (s.flash.update (bootFlags v))) := by
  have hopen : ¬ ((!s.pkg.booted) = true ∨ s.devState = 3) := by simp [hb, hd]
  have hpair : ¬ ((!gfOk v) = true) := by simp [hv]
  show execHarnBootWrite v s = _
  exact (congrArg (commit s _) ((if_neg hopen).trans (if_neg hpair))).trans (commit_bootSet s v)

theorem execHarnBootWrite_fenced {s : State} {v : BitVec 64} (hd : s.devState = 3) :
    exec (.harnBootWrite v) s = commit s true s := by
  show execHarnBootWrite v s = _
  simp [execHarnBootWrite, Instr.wf, hd]

/-- The flash after an accepted write of HARN_BOOT. -/
theorem Flash.update_bootFlags (f : Flash) (v : BitVec 64) :
    let t := f.update (bootFlags v)
    t = { f with ctl0 := t.ctl0, ctl1 := t.ctl1 } ∧ t.ctl = f.ctl.next (bootFlags v)
    ∧ (if f.current = some false then t.ctl0 = f.ctl0 ∧ t.ctl1.good = true ∧ t.current = some true
       else t.ctl1 = f.ctl1 ∧ t.ctl0.good = true ∧ t.current = some false) := by
  intro t
  by_cases h : f.current = some false
  · obtain ⟨hu, hn, hc⟩ := Flash.update_second h (bootFlags v)
    rw [if_pos h]
    refine ⟨?_, hc, ?_, ?_, hn⟩ <;> simp only [t, hu, SlotCtl.copy_good]
  · obtain ⟨hu, hn, hc⟩ := Flash.update_first h (bootFlags v)
    rw [if_neg h]
    refine ⟨?_, hc, ?_, ?_, hn⟩ <;> simp only [t, hu, SlotCtl.copy_good]

/-- What an accepted write of HARN_BOOT leaves, for any word that it stores and any outcome of the update. -/
theorem completes_bootWrite {i : Instr} {s : State} {v w : BitVec 64} {f : Flash}
    (e : exec i s = commit s true ((s.setReg .harnBoot w).withFlash f))
    (hf : f = { s.flash with ctl0 := f.ctl0, ctl1 := f.ctl1 }) (hc : f.ctl = s.flash.ctl.next (bootFlags v))
    (hcur : if s.flash.current = some false then f.ctl0 = s.flash.ctl0 ∧ f.ctl1.good = true ∧ f.current = some true
      else f.ctl1 = s.flash.ctl1 ∧ f.ctl0.good = true ∧ f.current = some false) :
    Completes i s (fun t =>
      t.reg .harnBoot = w ∧ t.flash.ctl.autoload = bitAt v.toNat 0 ∧ t.flash.ctl.preferred = bitAt v.toNat 1
      ∧ t.flash.ctl.count = (s.flash.ctl.count + 1) % 2 ^ 32
      ∧ t.flash.ctl.validA = s.flash.ctl.validA ∧ t.flash.ctl.validB = s.flash.ctl.validB
      ∧ (if s.flash.current = some false then t.flash.ctl0 = s.flash.ctl0 ∧ t.flash.ctl1.good = true ∧ t.flash.current = some true
         else t.flash.ctl1 = s.flash.ctl1 ∧ t.flash.ctl0.good = true ∧ t.flash.current = some false)
      ∧ t = { s with regs := t.regs, flash := { s.flash with ctl0 := t.flash.ctl0, ctl1 := t.flash.ctl1 } }
      ∧ ∀ r, r ≠ .harnBoot → t.reg r = s.reg r) := by
  refine completes_of e (State.withFlash_pending _ f) ?_
  refine ⟨?_, ?_, ?_, ?_, ?_, ?_, ?_, ?_, fun r hr => ?_⟩
  · rw [State.withFlash_reg, State.reg_setReg, if_pos rfl]
  · rw [State.withFlash_flash, hc, SlotCtl.next_bootFlags]
  · rw [State.withFlash_flash, hc, SlotCtl.next_bootFlags]
  · rw [State.withFlash_flash, hc, SlotCtl.next_bootFlags]
  · rw [State.withFlash_flash, hc, SlotCtl.next_bootFlags]
  · rw [State.withFlash_flash, hc, SlotCtl.next_bootFlags]
  · exact hcur
  · exact congrArg (s.setReg .harnBoot w).withFlash hf
  · rw [State.withFlash_reg, State.reg_setReg, if_neg hr]

/-- What RAISE_SEQ in Armed leaves. -/
theorem raiseSeq_completes {s : State} (ho : s.HarnOpen) (hb : s.harnBusy = false) (hd : s.devState = 2) :
    Completes .raiseSeq s (fun t =>
      t.fld .harnFuse HarnFuse.minSequence = max (s.fld .harnFuse HarnFuse.minSequence) (min 64 (wordAt (grains s.harn.staging) 5))
      ∧ s.fld .harnFuse HarnFuse.minSequence ≤ t.fld .harnFuse HarnFuse.minSequence
      ∧ t.fld .harnStatus HarnStatus.result = 1 ∧ RegFrame Reg.raised s t) := by
  have hp : s.seqRaised.pending = s.pending := seqRaised_keep (g := State.pending) (fun _ _ _ _ => rfl) (fun _ _ => rfl) (fun _ _ => rfl) s
  refine completes_of (execRaiseSeq_done ho hb hd) hp ⟨s.seqRaised_minSequence, ?_, State.harnDone_result _, ?_⟩
  · rw [s.seqRaised_minSequence]
    exact Nat.le_max_left _ _
  · exact regFrame_of (fun g h hp o => seqRaised_keep h hp o s)

/-- Settles O2: RAISE_SEQ by its frame and its one field, HARN_BOOT by what an update leaves in the copies of the slot control
block. -/
theorem raiseSeqAndBootSettings : Obligations.RaiseSeqAndBootSettings := by
  unfold Obligations.RaiseSeqAndBootSettings
  intro s
  refine ⟨fun ho => ⟨raiseSeq_completes ho, fun h => ?_⟩, fun v hb => ⟨fun hd hv => ?_, fun hd hv => ?_, fun hd => ?_⟩⟩
  · exact completes_of (execRaiseSeq_refused ho h) (s.harnRefuse_pending 8) (harnRefused_harnRefuse s 8)
  · obtain ⟨hf, hc, hcur⟩ := s.flash.update_bootFlags v
    exact completes_bootWrite (execHarnBootWrite_accepted hv hb hd) hf hc hcur
  · exact completes_of (execHarnBootWrite_rejected hv hb hd) (s.gfReject_pending _ _) ⟨s.gfReject_reg _ _ rfl, s.gfReject_flash _ _⟩
  · exact completes_of (execHarnBootWrite_fenced hd) rfl rfl

end Sys2Proof.Machine
end

section
/-! PROOF. A plain register write changes each field by its access code (R7), wherever it comes from (R51, R428, R431). -/
namespace Sys2Proof.Machine

/-! ## One field -/

theorem land_mod_two (a b : Nat) : (a &&& b) % 2 = 1 ↔ a % 2 = 1 ∧ b % 2 = 1 := by
  have h := Nat.testBit_and a b 0
  rw [Nat.testBit_zero, Nat.testBit_zero, Nat.testBit_zero, ← Bool.decide_and, decide_eq_decide] at h
  exact h

/-- Clearing the bits of a mask, bit by bit: no bit borrows, so the halves are cleared on their own. -/
theorem testBit_sub_land (a b i : Nat) : (a - (a &&& b)).testBit i = (a.testBit i && !b.testBit i) := by
  induction i generalizing a b with
  | zero =>
    have hc := land_mod_two a b
    have hle : a &&& b ≤ a := Nat.and_le_left
    have h : (a - (a &&& b)) % 2 = 1 ↔ a % 2 = 1 ∧ ¬ b % 2 = 1 := by omega
    rw [Nat.testBit_zero, Nat.testBit_zero, Nat.testBit_zero, ← decide_not, ← Bool.decide_and, decide_eq_decide]
    exact h
  | succ i ih =>
    have hc := land_mod_two a b
    have hle : a &&& b ≤ a := Nat.and_le_left
    have hd : (a &&& b) / 2 = a / 2 &&& b / 2 := Nat.and_div_two
    have h : (a - (a &&& b)) / 2 = a / 2 - (a / 2 &&& b / 2) := by omega
    rw [Nat.testBit_succ, Nat.testBit_succ, Nat.testBit_succ, h, ih]

/-- What a plain write does to one field of a word. -/
def Fld.plainStep (v : BitVec 64) (w : BitVec 64) (f : Fld) : BitVec 64 :=
  match f.acc with
  | .rw => f.put w (f.get v)
  | .w1c => f.put w (f.get w - (f.get w &&& f.get v))
  | .w1s => f.put w (f.get w ||| f.get v)
  | _ => w

theorem plainWord_eq_foldl (r : Reg) (w v : BitVec 64) : plainWord r w v = r.fields.foldl (Fld.plainStep v) w := rfl

theorem Fld.apart_comm (f g : Fld) : f.apart g = g.apart f := Bool.or_comm _ _

/-- A step leaves a field that shares no bit with its own. -/
theorem Fld.get_plainStep_apart {f g : Fld} (hf : f.fits = true) (d : f.apart g = true) (v w : BitVec 64) :
    g.get (f.plainStep v w) = g.get w := by
  unfold Fld.plainStep
  split
  · exact Fld.get_put_apart _ _ hf d
  · exact Fld.get_put_apart _ _ hf d
  · exact Fld.get_put_apart _ _ hf d
  · rfl

/-- A step treats its own field as its access code says. -/
theorem Fld.written_plainStep {f : Fld} (hf : f.fits = true) (v w : BitVec 64) :
    f.written (f.get w) (f.get v) (f.get (f.plainStep v w)) := by
  have hv := f.get_lt v
  have hw := f.get_lt w
  unfold Fld.written Fld.plainStep
  cases f.acc with
  | rw => exact (Fld.get_put _ _ hf).trans (Nat.mod_eq_of_lt hv)
  | w1c =>
    intro i
    dsimp only
    rw [Fld.get_put _ _ hf, Nat.mod_eq_of_lt (by omega), testBit_sub_land]
  | w1s =>
    intro i
    dsimp only
    rw [Fld.get_put _ _ hf, Nat.mod_eq_of_lt (Nat.or_lt_two_pow hw hv), Nat.testBit_or]
  | ro => rfl
  | wo => rfl
  | gf => rfl
  | snap => rfl

/-- A plain write treats every field of a list of disjoint fields as its access code says. -/
theorem written_foldl_plainStep {l : List Fld} (hd : l.Pairwise (fun f g => f.apart g = true)) (hf : ∀ f ∈ l, f.fits = true)
    (v w : BitVec 64) {f : Fld} (m : f ∈ l) : f.written (f.get w) (f.get v) (f.get (l.foldl (Fld.plainStep v) w)) := by
  induction l generalizing w with
  | nil => cases m
  | cons a t ih =>
    obtain ⟨ha, ht⟩ := List.pairwise_cons.mp hd
    have fa : a.fits = true := hf a List.mem_cons_self
    have ft : ∀ b ∈ t, b.fits = true := fun b hb => hf b (List.mem_cons_of_mem _ hb)
    rw [List.foldl_cons]
    rcases List.mem_cons.mp m with rfl | m
    · rw [foldl_keep_mem f.get _ t fun x b hb => Fld.get_plainStep_apart (ft b hb) (Fld.apart_comm b f ▸ ha b hb) v x]
      exact Fld.written_plainStep fa v w
    · have := ih ht ft (a.plainStep v w) m
      rwa [Fld.get_plainStep_apart fa (ha f m) v w] at this

/-! ## One register -/

/-- The fields of every register lie in it and share no bit. -/
theorem Reg.fields_apart (r : Reg) : r.fields.Pairwise (fun f g => f.apart g = true) ∧ ∀ f ∈ r.fields, f.fits = true := by
  cases r
  case devCoreGood | partStepRange =>
    simp only [Reg.fields]
    split <;> exact of_decide_eq_true rfl
  case pwrLastgasp =>
    simp only [Reg.fields]
    repeat' split
    all_goals exact of_decide_eq_true rfl
  all_goals exact of_decide_eq_true rfl

theorem written_plainWord (r : Reg) (w v : BitVec 64) {f : Fld} (m : f ∈ r.fields) :
    f.written (f.get w) (f.get v) (f.get (plainWord r w v)) := by
  obtain ⟨hd, hf⟩ := r.fields_apart
  exact written_foldl_plainStep hd hf v w m

/-- What a plain write of `v` to `r` leaves. -/
def PlainWritten (s : State) (v : BitVec 64) (r : Reg) (t : State) : Prop :=
  (∀ f ∈ r.fields, f.written (s.fld r f) (f.get v) (t.fld r f)) ∧ t = { s with regs := t.regs } ∧ ∀ q, q ≠ r → t.reg q = s.reg q

theorem plainWritten_plainWrite (s : State) (r : Reg) (v : BitVec 64) : PlainWritten s v r (s.plainWrite r v) := by
  refine ⟨fun f m => ?_, rfl, fun q hq => ?_⟩
  · unfold State.plainWrite
    rw [State.fld_setReg, if_pos rfl]
    exact written_plainWord r (s.reg r) v m
  · unfold State.plainWrite
    rw [State.reg_setReg, if_neg hq]

/-- A command whose effect is a plain write. -/
theorem completes_plainWrite {i : Instr} {s : State} {r : Reg} {v : BitVec 64} (e : exec i s = commit s i.wf (s.plainWrite r v))
    (w : i.wf = true) : Completes i s (PlainWritten s v r) :=
  completes_commit e w rfl (plainWritten_plainWrite s r v)

/-- A register without behaviour of its own is written by its access codes alone. -/
theorem State.writeReg_plain (s : State) {r : Reg} (v : BitVec 64) (h : r.plain = true) : s.writeReg r v = s.plainWrite r v := by
  cases r <;> first | rfl | cases h

/-- No register without behaviour of its own is written while the device is Fenced. -/
theorem Reg.whenFenced_plain {r : Reg} (h : r.plain = true) : (BarPlace.reg r).whenFenced = false := by
  cases r <;> first | rfl | cases h

/-! ## Where a write leads -/

theorem execRegisterWrite_pf_plain {s : State} {off : Nat} {r : Reg} {v : BitVec 64} (hb : s.pkg.booted = true) (hd : s.devState ≠ 3)
    (ho : off % 8 = 0) (hv : viewOf off = none) (hp : pfPlace off = .reg r) (h : r.plain = true) :
    exec (.registerWrite .pf off v) s = commit s (Instr.wf (.registerWrite .pf off v)) (s.plainWrite r v) := by
  show execRegisterWrite .pf off v s = _
  simp [execRegisterWrite, ho, hv, hp, Reg.whenFenced_plain h, State.pfWrite_open hb hd, State.writePlace, State.writeReg_plain s v h]

theorem execRegisterWrite_vf_plain {s : State} {p off : Nat} {r : Reg} {v : BitVec 64} (hg : (mfind s.parts p).isSome = true)
    (he : s.host.vfEnable = true) (hd : s.devState ≠ 3) (ho : off % 8 = 0) (hp : s.vfPlace p off = .reg r) (h : r.plain = true) :
    exec (.registerWrite (.vf (p + 1)) off v) s = commit s (Instr.wf (.registerWrite (.vf (p + 1)) off v)) (s.plainWrite r v) := by
  show execRegisterWrite (.vf (p + 1)) off v s = _
  simp [execRegisterWrite, ho, hp, Reg.whenFenced_plain h, State.vfWrite_open hg he hd, State.writePlace, State.writeReg_plain s v h]

/-- A write through the PF that does not reach a register. -/
theorem execRegisterWrite_pf_lost {s : State} {off : Nat} {v : BitVec 64}
    (h : (viewOf off).isSome = true ∨ s.pkg.booted = false ∨ (s.devState = 3 ∧ (pfPlace off).whenFenced = false)) :
    exec (.registerWrite .pf off v) s = commit s (Instr.wf (.registerWrite .pf off v)) s := by
  show execRegisterWrite .pf off v s = _
  unfold execRegisterWrite
  refine congrArg (commit s _) ?_
  split
  · rfl
  · dsimp only
    split
    · rfl
    · rename_i hv
      rcases h with h | h | ⟨hd, hf⟩
      · exact absurd h hv
      · rw [State.pfWrite_closed (.inl h), State.pfRead, h]
        simp
      · rw [hf, if_neg (by simp), State.pfWrite_closed (.inr hd)]

/-- A write through a VF that does not reach a register. -/
theorem execRegisterWrite_vf_lost {s : State} {p off : Nat} {v : BitVec 64}
    (h : (mfind s.parts p).isSome = false ∨ (s.devState = 3 ∧ (s.vfPlace p off).whenFenced = false)) :
    exec (.registerWrite (.vf (p + 1)) off v) s = commit s (Instr.wf (.registerWrite (.vf (p + 1)) off v)) s := by
  show execRegisterWrite (.vf (p + 1)) off v s = _
  unfold execRegisterWrite
  refine congrArg (commit s _) ?_
  have hc : ¬ ((s.vfPlace p off).whenFenced = true ∧ (mfind s.parts p).isSome = true ∧ s.host.vfEnable = true) := by
    rcases h with h | ⟨-, h⟩ <;> simp [h]
  have hw : ∀ eff, s.vfWrite p eff = s := State.vfWrite_closed (h.imp id And.left)
  split
  · rfl
  · dsimp only
    rw [Nat.add_sub_cancel, if_neg hc, hw]

/-! ## The interrupt status registers -/

theorem execIrqStatusClear_open {s : State} (hb : s.pkg.booted = true) (hd : s.devState ≠ 3) (v : BitVec 64) :
    exec (.irqStatusClear .dev v) s = commit s (Instr.wf (.irqStatusClear .dev v)) (s.plainWrite .devIrqStat v)
    ∧ exec (.irqStatusClear .pwr v) s = commit s (Instr.wf (.irqStatusClear .pwr v)) (s.plainWrite .pwrIrqStat v) :=
  ⟨congrArg (commit s true) (State.pfWrite_open hb hd (s.plainWrite .devIrqStat v)),
    congrArg (commit s true) (State.pfWrite_open hb hd (s.plainWrite .pwrIrqStat v))⟩

theorem execIrqStatusClear_closed {s : State} (h : s.pkg.booted = false ∨ s.devState = 3) (v : BitVec 64) :
    exec (.irqStatusClear .dev v) s = commit s (Instr.wf (.irqStatusClear .dev v)) s
    ∧ exec (.irqStatusClear .pwr v) s = commit s (Instr.wf (.irqStatusClear .pwr v)) s :=
  ⟨congrArg (commit s true) (State.pfWrite_closed h (s.plainWrite .devIrqStat v)),
    congrArg (commit s true) (State.pfWrite_closed h (s.plainWrite .pwrIrqStat v))⟩

/-- Settles O8: `plainWrite` field by field, for each way by which a write reaches a register or does not. -/
theorem registerWritesFollowAccessCodes : Obligations.RegisterWritesFollowAccessCodes := by
  unfold Obligations.RegisterWritesFollowAccessCodes
  intro s v
  refine ⟨fun hb hd => ⟨fun off r ho hv hp h => ?_, ?_, ?_⟩, fun p hopen hd => ⟨fun off r ho hp h => ?_, ?_⟩, fun off h => ?_,
    fun p off hp h => ?_, fun h => ⟨?_, ?_⟩, fun p hp h => ?_⟩
  · exact completes_plainWrite (execRegisterWrite_pf_plain hb hd ho hv hp h) rfl
  · exact completes_plainWrite (execIrqStatusClear_open hb hd v).1 rfl
  · exact completes_plainWrite (execIrqStatusClear_open hb hd v).2 rfl
  · obtain ⟨h32, hg, he⟩ := hopen
    exact completes_plainWrite (execRegisterWrite_vf_plain hg he hd ho hp h) (decide_eq_true (by omega))
  · obtain ⟨h32, hg, he⟩ := hopen
    exact completes_plainWrite (congrArg (commit s _) (State.vfWrite_open hg he hd _)) (decide_eq_true h32)
  · exact completes_same (execRegisterWrite_pf_lost h) rfl
  · exact completes_same (execRegisterWrite_vf_lost h) (decide_eq_true (by omega))
  · exact completes_same (execIrqStatusClear_closed h v).1 rfl
  · exact completes_same (execIrqStatusClear_closed h v).2 rfl
  · exact completes_same (congrArg (commit s _) (State.vfWrite_closed h _)) (decide_eq_true hp)

end Sys2Proof.Machine
end

section
/-! PROOF. What the X-die may change when packets that waited for injection go on (R320 to R324, R345 to R347, R416): registers of
counts, faults and the error path, queues of packets, threads; never a memory, a table, or what still waits. -/
namespace Sys2Proof.Machine

/-- The registers that the injection of a packet, its refusal or its loss may change, but for FAB_CONS_DEV.vc0_lost. -/
def Reg.injects : Reg → Bool
  | .fabStat _ | .partFabStat _ | .partReplayStatus _ | .coreSpmBlk _ => true
  | r => r.logged

theorem Reg.logged_injects (r : Reg) (h : r.logged = true) : r.injects = true := by
  unfold Reg.injects
  split
  · rfl
  · rfl
  · rfl
  · rfl
  · exact h

/-- A reading that does not see what the injection of packets may change. -/
structure BlindInject {β : Type} (g : State → β) : Prop where
  reg : BlindReg g Reg.injects
  lost : ∀ (s : State) (w : BitVec 64), (∀ f, FabConsDev.vc0Lost.apart f = true → f.get w = f.get (s.reg .fabConsDev)) →
    g (s.setReg .fabConsDev w) = g s
  pend : BlindPend g
  out : BlindOut g
  err : BlindErr g
  live : ∀ (s : State) (x : RegFile), g { s with live := x } = g s
  eth : ∀ (s : State) (x : Eth), g { s with eth := x } = g s
  cinches : ∀ (s : State) (x : SMap CinchState), g { s with cinches := x } = g s
  fab : ∀ (s : State) (w : List WaitPkt) (x : SMap Xfer) (m v : SMap Nat) (l : SMap Link),
    g { s with fab := { s.fab with waiting := w, xfers := x, mstore := m, valiant := v, links := l } } = g s
  core : ∀ (s : State) (c : Nat) (f : Core → Core), (∀ k, (f k).spm = k.spm) → g (s.modCore c f) = g s

/-! ## Readings -/

/-- The scratchpad of every core. -/
def State.spms (s : State) (c : Nat) : Option Mem := (mfind s.cores c).map Core.spm

/-- A change of a core that leaves its scratchpad is not seen in the scratchpads. -/
theorem State.spms_modCore (s : State) (c : Nat) {f : Core → Core} (h : ∀ k, (f k).spm = k.spm) : (s.modCore c f).spms = s.spms := by
  funext d
  show (mfind (mmod s.cores c f) d).map Core.spm = _
  rw [mfind_mmod]
  split
  · rename_i e
    subst e
    rw [Option.map_map]
    exact congrFun (congrArg Option.map (funext h)) _
  · rfl

/-- A reading of the memories, the queue of commands, what waits for injection, and which table entries were written or are
disabled. -/
theorem blindInject_data {β : Type} (g : (Nat → Option Mem) → SMap Slice → Hbm → List Instr → List (Pkt × Nat × Option Nat) → List Nat
    → List Nat → β) :
    BlindInject (fun s => g s.spms s.lls s.hbm s.pending s.fab.inject s.fab.written s.fab.disabled) where
  reg _ _ _ _ := rfl
  lost _ _ _ := rfl
  pend _ _ := rfl
  out _ _ := rfl
  err _ _ := rfl
  live _ _ := rfl
  eth _ _ := rfl
  cinches _ _ := rfl
  fab _ _ _ _ _ _ := rfl
  core s c _ h := congrArg (fun m => g m s.lls s.hbm s.pending s.fab.inject s.fab.written s.fab.disabled) (s.spms_modCore c h)

/-- A field that injection does not name. -/
theorem blindInject_fld {r : Reg} {f : Fld} (h : r.injects = false) (d : r = .fabConsDev → FabConsDev.vc0Lost.apart f = true) :
    BlindInject (fun s => s.fld r f) where
  reg := blindReg_fld f h
  lost s w hw := by
    rw [State.fld_setReg]
    split
    · rename_i e
      subst e
      exact hw f (d rfl)
    · rfl
  pend _ _ := rfl
  out _ _ := rfl
  err _ _ := rfl
  live _ _ := rfl
  eth _ _ := rfl
  cinches _ _ := rfl
  fab _ _ _ _ _ _ := rfl
  core _ _ _ _ := rfl

/-- A register that injection does not name. -/
theorem blindInject_reg {r : Reg} (h : r.injects = false) (d : r ≠ .fabConsDev) : BlindInject (fun s => s.reg r) where
  reg := blindReg_reg h
  lost s w _ := (State.reg_setReg s _ r w).trans (if_neg d)
  pend _ _ := rfl
  out _ _ := rfl
  err _ _ := rfl
  live _ _ := rfl
  eth _ _ := rfl
  cinches _ _ := rfl
  fab _ _ _ _ _ _ := rfl
  core _ _ _ _ := rfl

/-- Two readings together. -/
theorem BlindInject.prod {β γ : Type} {g : State → β} {h : State → γ} (a : BlindInject g) (b : BlindInject h) :
    BlindInject (fun s => (g s, h s)) where
  reg s r v p := Prod.ext (a.reg s r v p) (b.reg s r v p)
  lost s w h := Prod.ext (a.lost s w h) (b.lost s w h)
  pend s x := Prod.ext (a.pend s x) (b.pend s x)
  out s x := Prod.ext (a.out s x) (b.out s x)
  err s x := Prod.ext (a.err s x) (b.err s x)
  live s x := Prod.ext (a.live s x) (b.live s x)
  eth s x := Prod.ext (a.eth s x) (b.eth s x)
  cinches s x := Prod.ext (a.cinches s x) (b.cinches s x)
  fab s w x m v l := Prod.ext (a.fab s w x m v l) (b.fab s w x m v l)
  core s c f p := Prod.ext (a.core s c f p) (b.core s c f p)

/-- A family of readings together. -/
theorem BlindInject.pi {ι β : Type} {g : ι → State → β} (a : ∀ i, BlindInject (g i)) : BlindInject (fun s i => g i s) where
  reg s r v p := funext fun i => (a i).reg s r v p
  lost s w h := funext fun i => (a i).lost s w h
  pend s x := funext fun i => (a i).pend s x
  out s x := funext fun i => (a i).out s x
  err s x := funext fun i => (a i).err s x
  live s x := funext fun i => (a i).live s x
  eth s x := funext fun i => (a i).eth s x
  cinches s x := funext fun i => (a i).cinches s x
  fab s w x m v l := funext fun i => (a i).fab s w x m v l
  core s c f p := funext fun i => (a i).core s c f p

/-- A Partition-fatal event fences the partition that it names. -/
theorem State.log_fencePart (s : State) {e : Ev} {p : Nat} (h2 : e.code / 4096 = 2) (hp : e.part = some p) :
    s.log e = (s.record e).fencePart p e.code := by
  unfold State.log
  simp only [h2, hp]

/-! ## The operations under an injection -/

section
variable {β : Type} {g : State → β} (b : BlindInject g)
include b

theorem BlindInject.links (s : State) (l : SMap Link) : g { s with fab := { s.fab with links := l } } = g s := b.fab s _ _ _ _ l
theorem BlindInject.waiting (s : State) (w : List WaitPkt) : g { s with fab := { s.fab with waiting := w } } = g s := b.fab s w _ _ _ _
theorem BlindInject.xfers (s : State) (x : SMap Xfer) : g { s with fab := { s.fab with xfers := x } } = g s := b.fab s _ x _ _ _
theorem BlindInject.mstore (s : State) (m : SMap Nat) : g { s with fab := { s.fab with mstore := m } } = g s := b.fab s _ _ m _ _
theorem BlindInject.valiant (s : State) (v : SMap Nat) : g { s with fab := { s.fab with valiant := v } } = g s := b.fab s _ _ _ v _

/-- An event that fences nobody. -/
theorem BlindInject.log (s : State) (e : Ev) (h2 : e.code / 4096 ≠ 2) (h3 : e.code / 4096 ≠ 3) : g (s.log e) = g s := by
  rw [State.log_record s e h2 h3]
  exact record_keep (b.reg.mono fun r h => Reg.logged_injects r (r.ofErr_logged h)) b.pend b.out b.err s e

theorem BlindInject.modThread (s : State) (c t : Nat) (f : Thread → Thread) : g (s.modThread c t f) = g s := b.core s c _ fun _ => rfl

theorem BlindInject.wakeIdle (s : State) (c : Nat) : g (s.wakeIdle c) = g s :=
  b.core s c _ fun k => by split <;> rfl

theorem BlindInject.unpark (s : State) (c t : Nat) : g (s.unpark c t) = g s := (b.wakeIdle _ c).trans (b.modThread s c t _)

theorem BlindInject.arrive (s : State) (c t l : Nat) : g (s.arrive c t l) = g s := by
  unfold State.arrive
  exact Eq.trans (b.modThread _ c t _) (b.cinches s _)

theorem BlindInject.haltCore (s : State) (c : Nat) : g (s.haltCore c) = g s := b.core s c _ fun _ => rfl

theorem BlindInject.ackStore (s : State) (c t : Nat) : g (s.ackStore c t) = g s := by
  have h := b.modThread s c t (fun th => { th with unacked := th.unacked - 1 })
  unfold State.ackStore
  dsimp only
  split
  · exact (b.unpark _ c t).trans h
  · split
    · split
      · exact (b.unpark _ c t).trans h
      · exact (b.arrive _ c t _).trans h
      · exact h
    · exact h

theorem BlindInject.modAct (s : State) (c id : Nat) (f : Act → Act) : g (s.modAct c id f) = g s := b.core s c _ fun _ => rfl

/-- A core halts because a node did not answer. -/
theorem BlindInject.coreFault (s : State) (c : Nat) (w : FaultAt) : g (s.coreFault c cNode w) = g s := by
  have noCrc : ¬ (cNode = cCrc ∧ w.engine ≠ 0xF) := fun h => absurd h.1 (by decide)
  unfold State.coreFault
  split
  · rfl
  · dsimp only
    rw [if_neg noCrc, b.log _ _ (by simp [causeCode, cNode]) (by simp [causeCode, cNode])]
    refine (b.haltCore _ c).trans ?_
    split
    · rw [setFld_keep b.reg rfl, setFld_keep b.reg rfl, setFld_keep b.reg rfl, setFld_keep b.reg rfl, setFld_keep b.reg rfl]
    · exact satFld_keep b.reg rfl s _ _

/-! ### A partition that is fenced -/

theorem BlindInject.zeroCoreRegs (s : State) (c : Nat) : g (s.zeroCoreRegs c) = g s := by
  unfold State.zeroCoreRegs
  rw [setReg_keep b.reg rfl, setReg_keep b.reg rfl, setReg_keep b.reg rfl]
  exact b.core s c _ fun _ => rfl

theorem BlindInject.stopDone (s : State) (c : Nat) : g (s.stopDone c) = g s := by
  unfold State.stopDone
  refine Eq.trans (b.core _ c _ fun _ => by rfl) ?_
  rw [setReg_keep b.reg rfl, b.zeroCoreRegs]

theorem BlindInject.stopCore (s : State) (c : Nat) : g (s.stopCore c) = g s := by
  unfold State.stopCore
  split
  · rfl
  · rename_i k _
    split
    · rfl
    · have h : ∀ f : Core → Core, (∀ k, (f k).spm = k.spm) → g ((s.orphanFar c).modCore c f) = g s :=
        fun f hf => (b.core _ c f hf).trans (b.xfers s _)
      dsimp only
      split
      · exact (b.stopDone _ c).trans (h _ fun _ => rfl)
      · exact h _ fun _ => rfl

theorem BlindInject.fencePart (s : State) (p code : Nat) : g (s.fencePart p code) = g s := by
  unfold State.fencePart
  split
  · rfl
  · split
    · rfl
    · rw [setPartState_keep b.reg b.pend b.out rfl rfl rfl, setFld_keep b.reg rfl]
      exact foldl_keep g _ b.stopCore _ s

/-- A replay loses its source, and its partition is fenced (R503). -/
theorem BlindInject.replayLost (s : State) (p node reason : Nat) : g (s.replayLost p node reason) = g s := by
  unfold State.replayLost
  split
  · rfl
  · dsimp only
    rw [State.log_fencePart _ (by simp) rfl, b.fencePart]
    rw [record_keep (b.reg.mono fun r h => Reg.logged_injects r (r.ofErr_logged h)) b.pend b.out b.err]
    refine Eq.trans (b.xfers _ _) ?_
    rw [setFld_keep b.reg rfl, setFld_keep b.reg rfl]

/-! ### A refused transaction -/

theorem BlindInject.xferFault (s : State) (x : Xfer) (rsp : Nat) : g (s.xferFault x cNode rsp) = g s := by
  unfold State.xferFault
  dsimp only
  split
  · exact (b.coreFault _ _ _).trans (b.modThread s _ _ _)
  · exact (b.coreFault _ _ _).trans (b.ackStore s _ _)
  · split
    · exact b.coreFault s _ _
    · exact (b.coreFault _ _ _).trans (b.modAct s _ _ _)
  · split
    · exact b.coreFault s _ _
    · exact (b.coreFault _ _ _).trans (b.modAct s _ _ _)
  · exact b.replayLost s _ _ _
  · rfl

theorem BlindInject.countXfer (s : State) (tag n : Nat) : g (s.countXfer tag n) = g s := by
  unfold State.countXfer
  split
  · rfl
  · dsimp only
    split
    · exact (b.modAct _ _ _ _).trans (b.xfers s _)
    · exact (b.modAct _ _ _ _).trans (b.xfers s _)
    · exact b.xfers s _

theorem BlindInject.refuseSource (s : State) (p q : Nat) (reach : Bool) : g (s.refuseSource p q reach) = g s := by
  unfold State.refuseSource
  dsimp only
  split
  · rw [b.log _ _ (by simp) (by simp), satFld_keep b.reg rfl, satFld_keep b.reg rfl, satFld_keep b.reg rfl]
  · exact satFld_keep b.reg rfl s _ _

theorem BlindInject.refuseXfer (s : State) (pkt : Pkt) (reach : Bool) : g (s.refuseXfer pkt reach) = g s := by
  unfold State.refuseXfer
  split
  · rfl
  · rw [b.xferFault, b.countXfer, b.refuseSource]

/-! ### A packet on its way -/

theorem BlindInject.copyGone (s : State) (mid : Option Nat) : g (s.copyGone mid) = g s := by
  unfold State.copyGone
  split
  · rfl
  · exact b.mstore s _

theorem BlindInject.modPeer (s : State) (i : Nat) (f : Peer → Peer) : g (s.modPeer i f) = g s := b.eth s _

theorem BlindInject.sendEncap (s : State) (i : Nat) (r : Peer) (seq vc : Nat) (bs : List Byte) : g (s.sendEncap i r seq vc bs) = g s :=
  (b.out _ _).trans (b.modPeer s i _)

theorem BlindInject.sendTurn (s : State) (i q : Nat) : g (s.sendTurn i q) = g s := by
  unfold State.sendTurn
  split
  · rfl
  · split
    · exact (b.sendEncap _ _ _ _ _ _).trans (b.modPeer s _ _)
    · exact (b.sendEncap _ _ _ _ _ _).trans (b.modPeer s _ _)
    · exact b.sendEncap s _ _ _ _ _

theorem BlindInject.oneTurn (s : State) (e : Nat) : g (s.oneTurn e) = g s := by
  unfold State.oneTurn
  split
  · rfl
  · split
    · rfl
    · dsimp only
      split
      · exact (b.sendTurn _ _ _).trans (b.eth s _)
      · split
        · exact b.eth s _
        · exact (b.out _ _).trans ((b.eth _ _).trans (b.eth s _))

theorem BlindInject.sendPeer (s : State) (i vc : Nat) (pkt : Pkt) : g (s.sendPeer i vc pkt) = g s := by
  unfold State.sendPeer State.servePeer
  dsimp only
  split
  · exact b.modPeer s i _
  · exact (foldl_keep g _ (fun t _ => b.oneTurn t _) _ _).trans (b.modPeer s i _)

theorem BlindInject.vc0Lost (s : State) (p : Pkt) (member : Nat) : g (s.vc0Lost p member) = g s := by
  unfold State.vc0Lost
  dsimp only
  rw [b.log _ _ (by simp) (by simp)]
  refine b.lost s _ fun f d => ?_
  exact Fld.get_put_apart _ _ rfl d

theorem BlindInject.queueOut (s : State) (k : Nat) (o : OutPkt) : g (s.queueOut k o) = g s := b.links s _

/-- A packet placed on its way, when the answer that its loss may bring is placed so too. -/
theorem BlindInject.place_of_answer {fuel : Nat}
    (ih : ∀ n, fuel = n + 1 → ∀ (s : State) (pkt : Pkt), g (State.place n s 2 none none 1 pkt) = g s)
    (s : State) (vc : Nat) (src mid : Option Nat) (got : Nat) (pkt : Pkt) : g (State.place fuel s vc src mid got pkt) = g s := by
  rw [State.place.eq_def]
  dsimp only
  split
  · exact b.waiting s _
  · split
    · have gone := b.copyGone s mid
      split
      · exact (b.sendPeer _ _ _ _).trans gone
      · split
        · exact (b.vc0Lost _ _ _).trans gone
        · split
          · exact gone
          · split
            · exact (ih _ rfl _ _).trans gone
            · exact gone
    · split
      · exact b.queueOut s _ _
      · have dropped : ∀ e : Ev, e.code = 0x1802 → g (((s.copyGone mid).satFld (.fabStat 0) FabStat.hi 1).log e) = g s := fun e he =>
          (b.log _ e (by simp [he]) (by simp [he])).trans ((satFld_keep b.reg rfl _ _ _).trans (b.copyGone s mid))
        split
        · exact (b.vc0Lost _ _ _).trans (dropped _ rfl)
        · split
          · exact dropped _ rfl
          · split
            · exact (ih _ rfl _ _).trans (dropped _ rfl)
            · exact dropped _ rfl

theorem BlindInject.place (fuel : Nat) (s : State) (vc : Nat) (src mid : Option Nat) (got : Nat) (pkt : Pkt) :
    g (State.place fuel s vc src mid got pkt) = g s := by
  induction fuel generalizing s vc src mid got pkt with
  | zero => exact b.place_of_answer (fun n h => absurd h (Nat.succ_ne_zero n).symm) s vc src mid got pkt
  | succ n ih => exact b.place_of_answer (fun m h s pkt => Nat.succ.inj h ▸ ih s 2 none none 1 pkt) s vc src mid got pkt

theorem BlindInject.originate (s : State) (vc lnode : Nat) (mid : Option Nat) (pkt : Pkt) : g (s.originate vc lnode mid pkt) = g s := by
  unfold State.originate
  dsimp only
  split
  · exact (b.place _ _ _ _ _ _ _).trans (b.valiant s _)
  · exact b.place _ s _ _ _ _ _

theorem BlindInject.injectNow (s : State) (vc : Nat) (mid : Option Nat) (pkt : Pkt) : g (s.injectNow vc mid pkt) = g s := by
  unfold State.injectNow
  split
  · exact (b.originate _ _ _ _ _).trans (b.live s _)
  · exact (b.refuseXfer _ _ _).trans (b.copyGone s _)

end

end Sys2Proof.Machine
end

section
/-! PROOF. Waiting injections that go on, FAB_NODE after a change of the XLATE table, and what table writes and reloads leave
(R319, R320, R347, R348, R457). -/
namespace Sys2Proof.Machine

/-! ## Waiting injections -/

/-- One waiting packet takes its turn; `s` is the state in which the round began. -/
def State.drainOne (s t : State) (e : Pkt × Nat × Option Nat) : State :=
  if !t.injectReady e.1 e.2.2 then { t with fab := { t.fab with inject := t.fab.inject ++ [e] } }
  else match e.2.2 with
    | none => t.injectNow e.2.1 none e.1
    | some m =>
      if (mfind t.fab.mstore m).isSome then t.injectNow e.2.1 (some m) e.1
      else match t.mcastBar m s.fab.inject with
        | some reach => t.refuseXfer e.1 reach
        | none => { t with fab := { t.fab with mstore := mset t.fab.mstore m (copiesOf m s.fab.inject) } }.injectNow e.2.1 (some m) e.1

theorem State.drainInject_eq (s : State) :
    s.drainInject = s.fab.inject.foldl s.drainOne { s with fab := { s.fab with inject := [] } } := by
  unfold State.drainInject
  congr 1
  funext t ⟨pkt, vc, mid⟩
  cases mid <;> rfl

/-- With nothing waiting nothing happens. -/
theorem State.drainInject_nil {s : State} (h : s.fab.inject = []) : s.drainInject = s := by
  rw [State.drainInject_eq, h, List.foldl_nil, ← h]

/-- A packet that may go leaves what a blind reading sees. -/
theorem BlindInject.drainOne_ready {β : Type} {g : State → β} (b : BlindInject g) (s t : State) {e : Pkt × Nat × Option Nat}
    (h : t.injectReady e.1 e.2.2 = true) : g (s.drainOne t e) = g t := by
  unfold State.drainOne
  rw [if_neg (by simp [h])]
  split
  · exact b.injectNow t _ _ _
  · split
    · exact b.injectNow t _ _ _
    · split
      · exact b.refuseXfer t _ _
      · exact (b.injectNow _ _ _ _).trans (b.mstore t _)

/-- A reading that does not see what waits for injection either. -/
def BlindWaiting {β : Type} (g : State → β) : Prop :=
  ∀ (s : State) (l : List (Pkt × Nat × Option Nat)), g { s with fab := { s.fab with inject := l } } = g s

theorem BlindInject.drainInject {β : Type} {g : State → β} (b : BlindInject g) (w : BlindWaiting g) (s : State) :
    g s.drainInject = g s := by
  rw [State.drainInject_eq]
  refine (foldl_keep g _ (fun t e => ?_) _ _).trans (w s _)
  cases h : t.injectReady e.1 e.2.2 with
  | true => exact b.drainOne_ready s t h
  | false =>
    unfold State.drainOne
    rw [if_pos (by simp [h])]
    exact w t _

/-- What stops a partition's injections. -/
def State.stopView (s : State) : Nat × Nat × Nat :=
  (s.fld .fabNode FabNode.noLogical, s.fld .fabTableCtl FabTableCtl.quiesce, s.fld .fabTableCtl FabTableCtl.partMask)

theorem blindInject_stopView : BlindInject State.stopView :=
  (blindInject_fld (r := .fabNode) rfl (fun h => nomatch h)).prod
    ((blindInject_fld (r := .fabTableCtl) rfl (fun h => nomatch h)).prod (blindInject_fld (r := .fabTableCtl) rfl (fun h => nomatch h)))

theorem State.injectStopped_congr {s t : State} (h : t.stopView = s.stopView) (p : Nat) : t.injectStopped p = s.injectStopped p := by
  simp only [State.stopView, Prod.mk.injEq] at h
  obtain ⟨hn, hq, hm⟩ := h
  unfold State.injectStopped State.noLogical
  rw [hn, hq, hm]

/-- A turn takes no other packet from those that wait, and leaves its own when its partition is stopped. -/
theorem State.mem_drainOne (s t : State) {e x : Pkt × Nat × Option Nat}
    (h : x ∈ t.fab.inject ∨ (x = e ∧ t.injectStopped x.1.srcPart = true)) : x ∈ (s.drainOne t e).fab.inject := by
  cases hr : t.injectReady e.1 e.2.2 with
  | true =>
    have k := (blindInject_data fun _ _ _ _ l _ _ => l).drainOne_ready s t hr
    rw [show (s.drainOne t e).fab.inject = t.fab.inject from k]
    rcases h with h | ⟨rfl, hs⟩
    · exact h
    · simp [State.injectReady, hs] at hr
  | false =>
    unfold State.drainOne
    rw [if_pos (by simp [hr])]
    rcases h with h | ⟨rfl, -⟩
    · exact List.mem_append_left _ h
    · exact List.mem_append_right _ List.mem_cons_self

theorem State.stopView_drainOne (s t : State) (e : Pkt × Nat × Option Nat) : (s.drainOne t e).stopView = t.stopView := by
  cases hr : t.injectReady e.1 e.2.2 with
  | true => exact blindInject_stopView.drainOne_ready s t hr
  | false =>
    unfold State.drainOne
    rw [if_pos (by simp [hr])]
    rfl

/-- What waits for injection of a partition that is stopped still waits after a round (R347). -/
theorem State.mem_drainInject {s : State} {x : Pkt × Nat × Option Nat} (hx : x ∈ s.fab.inject)
    (hs : s.injectStopped x.1.srcPart = true) : x ∈ s.drainInject.fab.inject := by
  have key : ∀ (l : List (Pkt × Nat × Option Nat)) (t : State), t.stopView = s.stopView → (x ∈ t.fab.inject ∨ x ∈ l) →
      x ∈ (l.foldl s.drainOne t).fab.inject := by
    intro l
    induction l with
    | nil => exact fun t _ h => h.resolve_right List.not_mem_nil
    | cons e r ih =>
      intro t ht h
      refine ih _ ((s.stopView_drainOne t e).trans ht) ?_
      rcases h with h | h
      · exact .inl (s.mem_drainOne t (.inl h))
      · rcases List.mem_cons.mp h with h | h
        · exact .inl (s.mem_drainOne t (.inr ⟨h, (State.injectStopped_congr ht _).trans hs⟩))
        · exact .inr h
  rw [State.drainInject_eq]
  exact key _ _ rfl (.inr hx)

/-- What keeps every blind reading keeps the memories. -/
theorem sameMemory_of {s t : State} (h : (fun x : State => (x.spms, x.lls, x.hbm)) t = (fun x : State => (x.spms, x.lls, x.hbm)) s) :
    SameMemory s t := by
  simp only [Prod.mk.injEq] at h
  obtain ⟨hc, hl, hh⟩ := h
  exact ⟨congrFun hc, hl, hh⟩

theorem State.drainInject_sameMemory (s : State) : SameMemory s s.drainInject :=
  sameMemory_of ((blindInject_data fun m l h _ _ _ _ => (m, l, h)).drainInject (fun _ _ => rfl) s)

theorem State.drainInject_pending (s : State) : s.drainInject.pending = s.pending :=
  (blindInject_data fun _ _ _ q _ _ _ => q).drainInject (fun _ _ => rfl) s

/-! ## FAB_NODE -/

/-- A reading that does not see FAB_NODE. -/
def BlindNode {β : Type} (g : State → β) : Prop := BlindReg g (fun r => decide (r = .fabNode))

theorem BlindInject.renode {β : Type} {g : State → β} (b : BlindInject g) (w : BlindWaiting g) (n : BlindNode g) (s : State) :
    g s.renode = g s := by
  unfold State.renode
  split
  · exact setFld_keep n (by simp) s _ _
  · rw [b.drainInject w, setFld_keep n (by simp), setFld_keep n (by simp)]

theorem State.renode_sameMemory (s : State) : SameMemory s s.renode :=
  sameMemory_of ((blindInject_data fun m l h _ _ _ _ => (m, l, h)).renode (fun _ _ => rfl) (fun _ _ _ _ => rfl) s)

theorem State.renode_pending (s : State) : s.renode.pending = s.pending :=
  (blindInject_data fun _ _ _ q _ _ _ => q).renode (fun _ _ => rfl) (fun _ _ _ _ => rfl) s

theorem State.renode_tables (s : State) : s.renode.fab.written = s.fab.written ∧ s.renode.fab.disabled = s.fab.disabled :=
  ⟨(blindInject_data fun _ _ _ _ _ x _ => x).renode (fun _ _ => rfl) (fun _ _ _ _ => rfl) s,
    (blindInject_data fun _ _ _ _ _ _ d => d).renode (fun _ _ => rfl) (fun _ _ _ _ => rfl) s⟩

/-- FAB_NODE shows whether a valid entry names the device, and as which logical node. -/
def State.NodeShown (s : State) : Prop :=
  (s.noLogical = true ↔ s.logicalOf s.ownNode = none) ∧ ∀ m, s.logicalOf s.ownNode = some m → s.ownLnode = m

/-- FAB_NODE, the words of the XLATE table and the disabled entries. -/
def State.nodeView (s : State) : BitVec 64 × (Nat → BitVec 64) × List Nat :=
  (s.reg .fabNode, fun n => s.reg (.fabXlate n), s.fab.disabled)

theorem blindInject_nodeView : BlindInject State.nodeView :=
  (blindInject_reg (r := .fabNode) rfl (fun h => nomatch h)).prod
    ((BlindInject.pi fun n => blindInject_reg (r := .fabXlate n) rfl (fun h => nomatch h)).prod (blindInject_data fun _ _ _ _ _ _ d => d))

theorem State.logicalOf_congr {s t : State} (hx : ∀ n, t.reg (.fabXlate n) = s.reg (.fabXlate n)) (hd : t.fab.disabled = s.fab.disabled) :
    t.logicalOf = s.logicalOf := by
  have h : ∀ n, t.xlate n = s.xlate n := fun n => by
    unfold State.xlate State.xlateWord State.tableWord
    rw [hx, hd]
  funext ph
  unfold State.logicalOf
  simp only [h]

theorem State.nodeShown_congr {s t : State} (h : t.nodeView = s.nodeView) (hs : s.NodeShown) : t.NodeShown := by
  simp only [State.nodeView, Prod.mk.injEq] at h
  obtain ⟨hn, hx, hd⟩ := h
  have hl : t.logicalOf = s.logicalOf := State.logicalOf_congr (congrFun hx) hd
  unfold State.NodeShown State.noLogical State.ownNode State.ownLnode State.fld at hs ⊢
  rwa [hl, hn]

/-- A logical node is one of 1,024. -/
theorem State.logicalOf_lt {s : State} {ph n : Nat} (h : s.logicalOf ph = some n) : n < 1024 := by
  unfold State.logicalOf at h
  exact List.mem_range.mp (List.mem_of_find?_eq_some h)

/-- A change of FAB_NODE.no_logical or FAB_NODE.logical changes neither the own physical node nor the table. -/
theorem State.logicalOf_setNode (s : State) {f : Fld} (hf : f.fits = true) (d : f.apart FabNode.physical = true) (x : Nat) :
    (s.setFld .fabNode f x).logicalOf (s.setFld .fabNode f x).ownNode = s.logicalOf s.ownNode := by
  have hl : (s.setFld .fabNode f x).logicalOf = s.logicalOf :=
    State.logicalOf_congr (fun n => State.reg_setFld_ne s f x (fun h => nomatch h)) rfl
  rw [hl]
  exact congrArg s.logicalOf (State.fld_setFld_apart s _ _ x hf d)

theorem State.renode_nodeShown (s : State) : s.renode.NodeShown := by
  unfold State.renode
  split
  · rename_i h
    have hl := (s.logicalOf_setNode (f := FabNode.noLogical) rfl rfl 1).trans h
    refine ⟨iff_of_true ?_ hl, fun m hm => ?_⟩
    · exact decide_eq_true (State.fld_setFld_self s _ 1 rfl)
    · exact absurd (hl.symm.trans hm) (fun e => nomatch e)
  · rename_i n h
    refine State.nodeShown_congr (blindInject_nodeView.drainInject (fun _ _ => rfl) _) ?_
    have hl := (State.logicalOf_setNode _ (f := FabNode.logical) rfl rfl n).trans
      ((s.logicalOf_setNode (f := FabNode.noLogical) rfl rfl 0).trans h)
    refine ⟨iff_of_false ?_ (by rw [hl]; exact fun e => nomatch e), fun m hm => ?_⟩
    · unfold State.noLogical
      rw [State.fld_setFld_apart _ _ _ _ rfl rfl, State.fld_setFld_self _ _ _ rfl]
      decide
    · obtain rfl : n = m := Option.some.inj (hl.symm.trans hm)
      exact (State.fld_setFld_self _ _ _ rfl).trans (Nat.mod_eq_of_lt (State.logicalOf_lt h))

end Sys2Proof.Machine
end

section
/-! PROOF. A partition's own register writes, the fabric's tables and their reload (R271, R285, R347, R348, R368, R457). -/
namespace Sys2Proof.Machine

/-! ## Counters -/

/-- A saturating field after an addition. -/
theorem State.fld_satFld_self (s : State) (r : Reg) {f : Fld} (n : Nat) (h : f.fits = true) :
    (s.satFld r f n).fld r f = min (2 ^ f.width - 1) (s.fld r f + n) := by
  have := Nat.two_pow_pos f.width
  unfold State.satFld
  rw [State.fld_setFld_self _ _ _ h]
  exact Nat.mod_eq_of_lt (by omega)

/-! ## Grid tacks (R264, R285) -/

/-- The registers that a change of a grid tack may change. -/
def Reg.isSyncStat : Reg → Bool
  | .partSyncStat _ => true
  | _ => false

theorem gtackPut_keep {β : Type} {g : State → β} (h : BlindReg g Reg.isSyncStat) (ht : ∀ (s : State) (x : BitVec 1024), g { s with gtacks := x } = g s)
    (s : State) (i : Nat) (v : Bool) : g (s.gtackPut i v) = g s := by
  unfold State.gtackPut
  dsimp only
  rw [ht]
  split
  · split
    · rfl
    · exact satFld_keep h rfl s _ _
  · rfl

theorem State.gtackPut_gtacks (s : State) (i : Nat) (v : Bool) :
    (s.gtackPut i v).gtacks = if v then s.gtacks ||| BitVec.ofNat 1024 (2 ^ i) else s.gtacks &&& ~~~ BitVec.ofNat 1024 (2 ^ i) := by
  unfold State.gtackPut
  dsimp only
  refine congrArg (fun x : BitVec 1024 => if v then x ||| BitVec.ofNat 1024 (2 ^ i) else x &&& ~~~ BitVec.ofNat 1024 (2 ^ i)) ?_
  split
  · split <;> rfl
  · rfl

theorem getLsbD_tackBit {i : Nat} (h : i < 1024) (j : Nat) : (BitVec.ofNat 1024 (2 ^ i)).getLsbD j = decide (j = i) := by
  rw [BitVec.getLsbD_ofNat, Nat.testBit_two_pow]
  by_cases e : j = i
  · simp [e, h]
  · simp [e, Ne.symm e]

/-- A grid tack after it has been set. -/
theorem State.gtackPut_true (s : State) {i : Nat} (h : i < 1024) (j : Nat) :
    (s.gtackPut i true).gtacks.getLsbD j = (s.gtacks.getLsbD j || decide (j = i)) := by
  rw [State.gtackPut_gtacks, if_pos rfl, BitVec.getLsbD_or, getLsbD_tackBit h]

/-- A grid tack after it has been cleared. -/
theorem State.gtackPut_false (s : State) {i : Nat} (h : i < 1024) (j : Nat) :
    (s.gtackPut i false).gtacks.getLsbD j = (s.gtacks.getLsbD j && decide (j ≠ i)) := by
  rw [State.gtackPut_gtacks, if_neg Bool.false_ne_true, BitVec.getLsbD_and, BitVec.getLsbD_not, getLsbD_tackBit h]
  by_cases hj : j < 1024
  · simp [hj]
  · simp [BitVec.getLsbD_of_ge s.gtacks j (by omega)]

/-- With no thread parked on it a grid tack wakes nobody. -/
theorem State.wakeGtack_idle {s : State} {i : Nat} (h : ∀ y ∈ s.cores, ∀ x ∈ y.2.threads, ∀ cl, x.2.stat ≠ .parked (.gtack i cl)) :
    s.wakeGtack i = s := by
  have hw : s.cores.flatMap (fun y => (y.2.threads.filter (fun x =>
      decide (x.2.stat = .parked (.gtack i true) ∨ x.2.stat = .parked (.gtack i false)))).map (fun x => (y.1, x.1, x.2.stat))) = [] := by
    simp only [List.flatMap_eq_nil_iff, List.map_eq_nil_iff, List.filter_eq_nil_iff, decide_eq_true_eq, not_or]
    exact fun y hy x hx => ⟨h y hy x hx true, h y hy x hx false⟩
  unfold State.wakeGtack
  split
  · dsimp only
    rw [hw]
    rfl
  · rfl

/-! ## A partition's registers -/

theorem partRegionWrite_completes {s : State} {v : BitVec 64} {p i w : Nat} (hp : p < 32) (hg : (mfind s.parts p).isSome = true)
    (he : s.host.vfEnable = true) (hd : s.devState ≠ 3) (hi : i < 256) (hw : w < 4) (hv : gfOk v = true) :
    Completes (.partRegionWrite p i w v) s (fun x => x = s.setReg (.partRegion p i w) (gfMasked v (regionMask w))) := by
  refine completes_commit (t := s.setReg (.partRegion p i w) (gfMasked v (regionMask w))) ?_ (by simp [Instr.wf, hp, hi, hw])
    (State.setReg_pending _ _ _) rfl
  show execPartRegionWrite p i w v s = _
  simp [execPartRegionWrite, State.vfWrite_open hg he hd, hv]

theorem partRxCtlWrite_zero {s : State} {v : BitVec 64} {p : Nat} (hp : p < 32) (hg : (mfind s.parts p).isSome = true)
    (he : s.host.vfEnable = true) (hd : s.devState ≠ 3) (hz : PartRxCtl.zero.get v = 1) :
    Completes (.partRxCtlWrite p v) s (fun x => x = s.rxZero p (PartRxCtl.counter.get v)) := by
  refine completes_commit (t := s.rxZero p (PartRxCtl.counter.get v)) ?_ (decide_eq_true hp) rfl rfl
  show execPartRxCtlWrite p v s = _
  simp [execPartRxCtlWrite, State.vfWrite_open hg he hd, hz]

theorem partRxCtlWrite_keep {s : State} {v : BitVec 64} {p : Nat} (hp : p < 32) (hg : (mfind s.parts p).isSome = true)
    (he : s.host.vfEnable = true) (hd : s.devState ≠ 3) (hz : PartRxCtl.zero.get v = 0) :
    Completes (.partRxCtlWrite p v) s (fun x => x = s) := by
  refine completes_same ?_ (decide_eq_true hp)
  show execPartRxCtlWrite p v s = _
  simp [execPartRxCtlWrite, State.vfWrite_open hg he hd, hz]

/-- A counter after it has been zeroed and disarmed (R271). -/
theorem State.rxZero_frame (s : State) (p c : Nat) : s.rxZero p c = { s with regs := (s.rxZero p c).regs }
    ∧ (s.rxZero p c).reg (.partRxBytes p c) = 0 ∧ (s.rxZero p c).reg (.partRxPkts p c) = 0 ∧ (s.rxZero p c).reg (.partRxArm p c) = 0
    ∧ ∀ q, q ≠ .partRxBytes p c → q ≠ .partRxPkts p c → q ≠ .partRxArm p c → (s.rxZero p c).reg q = s.reg q := by
  refine ⟨rfl, ?_, ?_, ?_, fun q h1 h2 h3 => ?_⟩ <;> unfold State.rxZero
  · simp
  · simp
  · simp
  · simp [h1, h2, h3]

/-- Whether a partition may set and clear a grid tack: it is Armed, and the tack is of its grant (R285). -/
def State.gtackMine (s : State) (p g : Nat) : Prop := s.partState p = 2 ∧ s.gtFirst p ≤ g ∧ g < s.gtFirst p + s.gtCount p

section
variable {s : State} {v : BitVec 64} {p : Nat} (hp : p < 32) (hg : (mfind s.parts p).isSome = true)
  (he : s.host.vfEnable = true) (hd : s.devState ≠ 3) (hv : gfOk v = true)
include hp hg he hd hv

theorem partGtackCtlWrite_other (hm : ¬ s.gtackMine p (PartGtackCtl.tack.get v)) : Completes (.partGtackCtlWrite p v) s (fun x => x = s) := by
  have h : s.partState p ≠ 2 ∨ PartGtackCtl.tack.get v < s.gtFirst p ∨ s.gtFirst p + s.gtCount p ≤ PartGtackCtl.tack.get v := by
    unfold State.gtackMine at hm
    omega
  refine completes_same ?_ (decide_eq_true hp)
  show execPartGtackCtlWrite p v s = _
  simp [execPartGtackCtlWrite, State.vfWrite_open hg he hd, hv, h]

omit hp in
/-- A write that names a tack of the grant puts it to the value that it names. -/
theorem execPartGtackCtlWrite_mine (hm : s.gtackMine p (PartGtackCtl.tack.get v)) :
    exec (.partGtackCtlWrite p v) s = commit s (Instr.wf (.partGtackCtlWrite p v))
      (if PartGtackCtl.value.get v = 1 then (s.setReg (.partGtackCtl p) (gfMasked v (2 ^ 11 - 1))).setGtack (PartGtackCtl.tack.get v)
       else (s.setReg (.partGtackCtl p) (gfMasked v (2 ^ 11 - 1))).clearGtack (PartGtackCtl.tack.get v)) := by
  have h : ¬ (s.partState p ≠ 2 ∨ PartGtackCtl.tack.get v < s.gtFirst p ∨ s.gtFirst p + s.gtCount p ≤ PartGtackCtl.tack.get v) := by
    unfold State.gtackMine at hm
    omega
  show execPartGtackCtlWrite p v s = _
  unfold execPartGtackCtlWrite
  rw [State.vfWrite_open hg he hd, if_neg (by simp [hv])]
  dsimp only
  rw [if_neg h]

end

/-- What a write of PART_GTACK_CTL that stores `w` and puts tack `g` to `b` leaves beside the tack. -/
theorem gtackPut_frame (s : State) (p g : Nat) (w : BitVec 64) (b : Bool) :
    let x := (s.setReg (.partGtackCtl p) w).gtackPut g b
    x.cores = s.cores ∧ SameMemory s x ∧ x.reg (.partGtackCtl p) = w ∧ x.pending = s.pending := by
  refine ⟨?_, ⟨fun c => ?_, ?_, ?_⟩, ?_, ?_⟩
  · exact gtackPut_keep (g := State.cores) (fun _ _ _ _ => rfl) (fun _ _ => rfl) _ _ _
  · exact gtackPut_keep (g := fun s => (mfind s.cores c).map Core.spm) (fun _ _ _ _ => rfl) (fun _ _ => rfl) _ _ _
  · exact gtackPut_keep (g := State.lls) (fun _ _ _ _ => rfl) (fun _ _ => rfl) _ _ _
  · exact gtackPut_keep (g := State.hbm) (fun _ _ _ _ => rfl) (fun _ _ => rfl) _ _ _
  · refine (gtackPut_keep (blindReg_reg (r := .partGtackCtl p) rfl) (fun _ _ => rfl) _ _ _).trans ?_
    exact (State.reg_setReg s _ _ w).trans (if_pos rfl)
  · exact gtackPut_keep (g := State.pending) (fun _ _ _ _ => rfl) (fun _ _ => rfl) _ _ _

/-! ## The quiesce control (R347) -/

/-- The device with FAB_TABLE_CTL written. -/
def State.tableCtl (s : State) (v : BitVec 64) : State :=
  (s.setFld .fabTableCtl FabTableCtl.partMask (FabTableCtl.partMask.get v)).setFld .fabTableCtl FabTableCtl.quiesce (FabTableCtl.quiesce.get v)

theorem State.tableCtl_frame (s : State) (v : BitVec 64) :
    s.tableCtl v = { s with regs := (s.tableCtl v).regs } ∧ ∀ q, q ≠ .fabTableCtl → (s.tableCtl v).reg q = s.reg q := by
  have frame : ∀ (r : Reg) (f g : Fld) (x y : Nat), (s.setFld r f x).setFld r g y = { s with regs := ((s.setFld r f x).setFld r g y).regs } :=
    fun _ _ _ _ _ => rfl
  refine ⟨frame _ _ _ _ _, fun q hq => ?_⟩
  unfold State.tableCtl
  rw [State.reg_setFld_ne _ _ _ hq, State.reg_setFld_ne _ _ _ hq]

theorem State.tableCtl_partMask (s : State) (v : BitVec 64) :
    (s.tableCtl v).fld .fabTableCtl FabTableCtl.partMask = FabTableCtl.partMask.get v := by
  unfold State.tableCtl
  rw [State.fld_setFld_apart _ _ _ _ rfl rfl, State.fld_setFld_self _ _ _ rfl]
  exact Nat.mod_eq_of_lt (Fld.get_lt _ v)

theorem State.tableCtl_quiesce (s : State) (v : BitVec 64) :
    (s.tableCtl v).fld .fabTableCtl FabTableCtl.quiesce = FabTableCtl.quiesce.get v := by
  unfold State.tableCtl
  rw [State.fld_setFld_self _ _ _ rfl]
  exact Nat.mod_eq_of_lt (Fld.get_lt _ v)

theorem bitAt_eq_testBit (n i : Nat) : bitAt n i = n.testBit i := (Nat.testBit_eq_decide_div_mod_eq).symm

theorem State.tableCtl_stops (s : State) {v : BitVec 64} (hq : FabTableCtl.quiesce.get v = 1) {p : Nat}
    (hm : (FabTableCtl.partMask.get v).testBit p = true) : (s.tableCtl v).injectStopped p = true := by
  unfold State.injectStopped
  rw [s.tableCtl_quiesce, s.tableCtl_partMask, bitAt_eq_testBit, hq, hm]
  simp

/-- What goes on after a change of FAB_TABLE_CTL that `t` is: nothing when nothing waits. -/
theorem drainInject_of_regs {s t : State} (h : t = { s with regs := t.regs }) :
    t.drainInject.pending = s.pending ∧ SameMemory s t.drainInject ∧ (s.fab.inject = [] → t.drainInject = t)
    ∧ (∀ f, t.drainInject.fld .fabTableCtl f = t.fld .fabTableCtl f)
    ∧ ∀ e ∈ s.fab.inject, t.injectStopped e.1.srcPart = true → e ∈ t.drainInject.fab.inject := by
  have hp : t.pending = s.pending := by rw [h]
  have hf : t.fab = s.fab := by rw [h]
  have hm : SameMemory s t := by rw [h]; exact ⟨fun _ => rfl, rfl, rfl⟩
  obtain ⟨hc, hl, hh⟩ := t.drainInject_sameMemory
  obtain ⟨hc', hl', hh'⟩ := hm
  refine ⟨t.drainInject_pending.trans hp, ⟨fun c => (hc c).trans (hc' c), hl.trans hl', hh.trans hh'⟩, fun hi => ?_, fun f => ?_, fun e he hs => ?_⟩
  · exact State.drainInject_nil (hf ▸ hi)
  · exact (blindInject_fld (r := .fabTableCtl) (f := f) rfl (fun h => nomatch h)).drainInject (fun _ _ => rfl) t
  · exact State.mem_drainInject (hf ▸ he) hs

theorem execFabTableCtlWrite_open {s : State} {v : BitVec 64} (hb : s.pkg.booted = true) (hd : s.devState ≠ 3) :
    exec (.fabTableCtlWrite v) s = commit s true (s.tableCtl v).drainInject := by
  show execFabTableCtlWrite v s = _
  unfold execFabTableCtlWrite
  rw [State.pfWrite_open hb hd]
  rfl

/-- What a write of FAB_TABLE_CTL leaves. -/
theorem fabTableCtlWrite_completes {s : State} {v : BitVec 64} (hb : s.pkg.booted = true) (hd : s.devState ≠ 3) :
    Completes (.fabTableCtlWrite v) s (fun x => x.fld .fabTableCtl FabTableCtl.partMask = FabTableCtl.partMask.get v
      ∧ x.fld .fabTableCtl FabTableCtl.quiesce = FabTableCtl.quiesce.get v ∧ SameMemory s x
      ∧ (s.fab.inject = [] → x = { s with regs := x.regs } ∧ ∀ q, q ≠ .fabTableCtl → x.reg q = s.reg q)
      ∧ (FabTableCtl.quiesce.get v = 1 → ∀ e ∈ s.fab.inject, (FabTableCtl.partMask.get v).testBit e.1.srcPart = true →
          e ∈ x.fab.inject)) := by
  obtain ⟨hframe, hreg⟩ := s.tableCtl_frame v
  obtain ⟨hpend, hmem, hnil, hfld, hwait⟩ := drainInject_of_regs hframe
  refine completes_commit (execFabTableCtlWrite_open hb hd) rfl hpend ⟨?_, ?_, hmem, fun h => ?_, fun hq e hx hm => ?_⟩
  · rw [hfld, s.tableCtl_partMask]
  · rw [hfld, s.tableCtl_quiesce]
  · rw [hnil h]
    exact ⟨hframe, hreg⟩
  · exact hwait e hx (s.tableCtl_stops hq hm)

/-! ## Table writes (R348) -/

/-- The registers that a refused table write may change. -/
def Reg.tableRefuses : Reg → Bool
  | .fabStat _ => true
  | r => r.ofErr

theorem Reg.ofErr_tableRefuses (r : Reg) (h : r.ofErr = true) : r.tableRefuses = true := by
  unfold Reg.tableRefuses
  split
  · rfl
  · exact h

theorem tableRefused_keep {β : Type} {g : State → β} (h : BlindReg g Reg.tableRefuses) (ho : BlindPend g) (o : BlindOut g) (e : BlindErr g)
    (s : State) (tab idx : Nat) : g (s.tableRefused tab idx) = g s := by
  unfold State.tableRefused
  rw [State.log_record _ _ (by simp) (by simp), record_keep (h.mono Reg.ofErr_tableRefuses) ho o e, satFld_keep h rfl]

/-- What a refused table write leaves. -/
def TableRefused (r : Reg) (s x : State) : Prop :=
  x.reg r = s.reg r ∧ x.fab = s.fab ∧ x.Noted 0x4803 ∧ Counted (.fabStat 1) FabStat.hi 1 s x

theorem tableRefused_tableRefused {r : Reg} (hr : r.tableRefuses = false) (s : State) (tab idx : Nat) :
    TableRefused r s (s.tableRefused tab idx) := by
  refine ⟨?_, ?_, ?_, ?_⟩
  · exact tableRefused_keep (blindReg_reg hr) (fun _ _ => rfl) (fun _ _ => rfl) (fun _ _ => rfl) s tab idx
  · exact tableRefused_keep (g := State.fab) (fun _ _ _ _ => rfl) (fun _ _ => rfl) (fun _ _ => rfl) (fun _ _ => rfl) s tab idx
  · exact State.log_noted _ _ (by simp) (by simp)
  · unfold Counted State.tableRefused
    rw [State.log_record _ _ (by simp) (by simp),
      record_keep (blindReg_fld (r := .fabStat 1) FabStat.hi rfl) (fun _ _ => rfl) (fun _ _ => rfl) (fun _ _ => rfl)]
    exact State.fld_satFld_self s _ 1 rfl

theorem State.tableSet_frame (s : State) (r : Reg) (off : Nat) (w : BitVec 64) :
    s.tableSet r off w = { s with regs := (s.tableSet r off w).regs, fab := (s.tableSet r off w).fab }
    ∧ (s.tableSet r off w).reg r = w ∧ (∀ q, q ≠ r → (s.tableSet r off w).reg q = s.reg q)
    ∧ off ∈ (s.tableSet r off w).fab.written ∧ off ∉ (s.tableSet r off w).fab.disabled := by
  refine ⟨rfl, ?_, fun q hq => ?_, List.mem_cons_self, ?_⟩
  · exact (State.reg_setReg s r r w).trans (if_pos rfl)
  · exact (State.reg_setReg s r q w).trans (if_neg hq)
  · exact fun h => of_decide_eq_true (List.mem_filter.mp h).2 rfl

theorem State.tableSet_pending (s : State) (r : Reg) (off : Nat) (w : BitVec 64) : (s.tableSet r off w).pending = s.pending := rfl

/-- A table write whose pair complements reaches the table or is refused. -/
theorem State.tableWrite_open {s : State} {v : BitVec 64} (hv : gfOk v = true) (hb : s.pkg.booted = true) (hd : s.devState ≠ 3)
    (tab idx off : Nat) (r : Reg) (ok : Bool) (after : State → State) :
    s.tableWrite tab idx off r v ok after = if s.tableOpen = false ∨ ok = false then s.tableRefused tab idx
      else after (s.tableSet r off (gfMasked v (tableMask tab idx))) := by
  unfold State.tableWrite
  rw [State.pfWrite_open hb hd, if_neg (by simp [hv])]
  simp only [Bool.not_eq_true']

section
variable {i : Instr} {s : State} {v : BitVec 64} {tab idx off : Nat} {r : Reg} {ok : Bool} {after : State → State}
  (e : exec i s = commit s i.wf (s.tableWrite tab idx off r v ok after)) (hw : i.wf = true) (hv : gfOk v = true)
  (hb : s.pkg.booted = true) (hd : s.devState ≠ 3)
include e hw hv hb hd

theorem completes_tableRefused (hr : r.tableRefuses = false) (h : s.tableOpen = false ∨ ok = false) : Completes i s (TableRefused r s) := by
  rw [State.tableWrite_open hv hb hd, if_pos h] at e
  exact completes_commit e hw (tableRefused_keep (g := State.pending) (fun _ _ _ _ => rfl) (fun _ _ => rfl) (fun _ _ => rfl) (fun _ _ => rfl) s tab idx)
    (tableRefused_tableRefused hr s tab idx)

theorem completes_tableSet (ho : s.tableOpen = true) (hok : ok = true) (hp : ∀ t, (after t).pending = t.pending) :
    Completes i s (fun x => x = after (s.tableSet r off (gfMasked v (tableMask tab idx)))) := by
  rw [State.tableWrite_open hv hb hd, if_neg (by simp [ho, hok])] at e
  exact completes_commit e hw ((hp _).trans (s.tableSet_pending r off _)) rfl

end

/-- A write of a table word that stores `w` and changes no node. -/
theorem tableSet_plain {s x : State} {r : Reg} {off : Nat} {w : BitVec 64} (h : x = s.tableSet r off w) :
    x.reg r = w ∧ off ∈ x.fab.written ∧ off ∉ x.fab.disabled ∧ SameMemory s x
    ∧ x = { s with regs := x.regs, fab := x.fab } ∧ ∀ q, q ≠ r → x.reg q = s.reg q := by
  subst h
  obtain ⟨hx, hr, hq, hin, hout⟩ := s.tableSet_frame r off w
  exact ⟨hr, hin, hout, ⟨fun _ => rfl, rfl, rfl⟩, hx, hq⟩

/-- A write of an XLATE word that stores `w`: FAB_NODE follows. -/
theorem tableSet_renode {s x : State} {n off : Nat} {w : BitVec 64} (h : x = (s.tableSet (.fabXlate n) off w).renode) :
    x.reg (.fabXlate n) = w ∧ off ∈ x.fab.written ∧ off ∉ x.fab.disabled ∧ SameMemory s x ∧ x.NodeShown := by
  rw [h]
  obtain ⟨-, hr, -, hin, hout⟩ := s.tableSet_frame (.fabXlate n) off w
  obtain ⟨hwr, hds⟩ := (s.tableSet (.fabXlate n) off w).renode_tables
  rw [← hwr] at hin
  rw [← hds] at hout
  refine ⟨?_, hin, hout, (s.tableSet (.fabXlate n) off w).renode_sameMemory, State.renode_nodeShown _⟩
  refine Eq.trans ?_ hr
  exact (blindInject_reg (r := .fabXlate n) rfl (fun h => nomatch h)).renode (fun _ _ => rfl) (blindReg_reg rfl) _

/-- An XLATE write is refused for its node exactly when another valid entry names it. -/
theorem xlateTwice_iff (s : State) (v : BitVec 64) (n : Nat) :
    (!(bitAt (grain v) 10 && s.xlateTaken n (bitsOf (grain v) 0 10))) = false
      ↔ (grain v).testBit 10 = true ∧ ∃ m, m < 1024 ∧ m ≠ n ∧ s.xlate m = some (bitsOf (grain v) 0 10) := by
  rw [bitAt_eq_testBit, Bool.not_eq_false', Bool.and_eq_true]
  refine and_congr_right fun _ => ?_
  unfold State.xlateTaken
  rw [List.any_eq_true]
  refine exists_congr fun m => ?_
  rw [List.mem_range, Bool.and_eq_true, decide_eq_true_eq, decide_eq_true_eq]

/-! ## Reload (R457) -/

theorem gfEvent_keep {β : Type} {g : State → β} (h : BlindReg g Reg.rejects) (ho : BlindPend g) (o : BlindOut g) (b : BlindErr g)
    (s : State) (e : Ev) (h2 : e.code / 4096 ≠ 2) (h3 : e.code / 4096 ≠ 3) : g (s.gfEvent e) = g s := by
  unfold State.gfEvent
  rw [State.log_record _ _ h2 h3, record_keep (h.mono Reg.ofErr_rejects) ho o b, satFld_keep h rfl]

theorem State.gfEvent_counted (s : State) (e : Ev) (h2 : e.code / 4096 ≠ 2) (h3 : e.code / 4096 ≠ 3) :
    Counted .fabConsDev FabConsDev.gf 1 s (s.gfEvent e) := by
  unfold Counted State.gfEvent
  rw [State.log_record _ _ h2 h3,
    record_keep (blindReg_fld (r := .fabConsDev) FabConsDev.gf rfl) (fun _ _ => rfl) (fun _ _ => rfl) (fun _ _ => rfl)]
  exact State.fld_satFld_self s _ 1 rfl

/-- The device with a good copy of a table entry reloaded, the event as logged. -/
def State.reloaded (s : State) (off : Nat) (e : Ev) : State :=
  (({ s with fab := { s.fab with disabled := s.fab.disabled.filter (· ≠ off) } } : State).gfEvent e).renode
/-- The device whose staging copy of a table entry fails too, the event as logged. -/
def State.notReloaded (s : State) (off : Nat) (e : Ev) : State :=
  ({ s with fab := { s.fab with written := off :: s.fab.written } } : State).gfEvent e

theorem execGfTableReload_eq (tab : GfTable) (i w : Nat) (good : Bool) (s : State) :
    exec (.gfTableReload tab i w good) s = commit s (Instr.wf (.gfTableReload tab i w good)) (
      if !s.fab.disabled.contains (tableOff tab i w).2 ∨ s.fab.written.contains (tableOff tab i w).2 then s
      else if good then s.reloaded (tableOff tab i w).2 { code := 0x0B02, detail := tableDetail (tableOff tab i w).1 i w }
      else s.notReloaded (tableOff tab i w).2 { code := 0x1B01, detail := tableDetail (tableOff tab i w).1 i w }) := by
  cases tab <;> rfl

theorem State.reloaded_spec {s : State} {off : Nat} (hw : off ∉ s.fab.written) (e : Ev) (h2 : e.code / 4096 ≠ 2) (h3 : e.code / 4096 ≠ 3) :
    Counted .fabConsDev FabConsDev.gf 1 s (s.reloaded off e) ∧ SameMemory s (s.reloaded off e)
    ∧ off ∉ (s.reloaded off e).fab.disabled ∧ off ∉ (s.reloaded off e).fab.written ∧ (s.reloaded off e).pending = s.pending := by
  let t : State := { s with fab := { s.fab with disabled := s.fab.disabled.filter (· ≠ off) } }
  have hx : s.reloaded off e = (t.gfEvent e).renode := rfl
  have hout : off ∉ t.fab.disabled := fun h => by simpa using (List.mem_filter.mp h).2
  have hf : (t.gfEvent e).fab = t.fab :=
    gfEvent_keep (g := State.fab) (fun _ _ _ _ => rfl) (fun _ _ => rfl) (fun _ _ => rfl) (fun _ _ => rfl) t e h2 h3
  obtain ⟨hwr, hds⟩ := (t.gfEvent e).renode_tables
  rw [hf] at hwr hds
  rw [← hds] at hout
  rw [show s.fab.written = t.fab.written from rfl, ← hwr] at hw
  rw [hx]
  refine ⟨?_, sameMemory_of ?_, hout, hw, ?_⟩
  · exact Eq.trans ((blindInject_fld (r := .fabConsDev) (f := FabConsDev.gf) rfl (fun _ => rfl)).renode (fun _ _ => rfl) (blindReg_fld _ rfl) _)
      (t.gfEvent_counted e h2 h3)
  · exact ((blindInject_data fun m l h _ _ _ _ => (m, l, h)).renode (fun _ _ => rfl) (fun _ _ _ _ => rfl) _).trans
      (gfEvent_keep (g := fun x => (x.spms, x.lls, x.hbm)) (fun _ _ _ _ => rfl) (fun _ _ => rfl) (fun _ _ => rfl) (fun _ _ => rfl) t e h2 h3)
  · exact (State.renode_pending _).trans
      (gfEvent_keep (g := State.pending) (fun _ _ _ _ => rfl) (fun _ _ => rfl) (fun _ _ => rfl) (fun _ _ => rfl) t e h2 h3)

theorem State.notReloaded_spec {s : State} {off : Nat} (hd : off ∈ s.fab.disabled) (e : Ev) (h2 : e.code / 4096 ≠ 2) (h3 : e.code / 4096 ≠ 3) :
    Counted .fabConsDev FabConsDev.gf 1 s (s.notReloaded off e) ∧ SameMemory s (s.notReloaded off e)
    ∧ off ∈ (s.notReloaded off e).fab.disabled ∧ off ∈ (s.notReloaded off e).fab.written ∧ (s.notReloaded off e).Noted e.code
    ∧ (s.notReloaded off e).pending = s.pending := by
  let t : State := { s with fab := { s.fab with written := off :: s.fab.written } }
  have hf : (t.gfEvent e).fab = t.fab :=
    gfEvent_keep (g := State.fab) (fun _ _ _ _ => rfl) (fun _ _ => rfl) (fun _ _ => rfl) (fun _ _ => rfl) t e h2 h3
  refine ⟨t.gfEvent_counted e h2 h3, sameMemory_of ?_, ?_, ?_, State.log_noted _ e h2 h3, ?_⟩
  · exact gfEvent_keep (g := fun x => (x.spms, x.lls, x.hbm)) (fun _ _ _ _ => rfl) (fun _ _ => rfl) (fun _ _ => rfl) (fun _ _ => rfl) t e h2 h3
  · exact hf.symm ▸ hd
  · exact hf.symm ▸ List.mem_cons_self
  · exact gfEvent_keep (g := State.pending) (fun _ _ _ _ => rfl) (fun _ _ => rfl) (fun _ _ => rfl) (fun _ _ => rfl) t e h2 h3

end Sys2Proof.Machine
end

section
/-! PROOF. What completes when a partition writes a grid tack, a table is written, or an entry is reloaded (R285, R348, R457). -/
namespace Sys2Proof.Machine

/-! ## Grid tacks of the own grant -/

/-- A write that stores `w` in PART_GTACK_CTL and puts tack `g` to `b`. -/
theorem completes_gtackPut {i : Instr} {s : State} {p g : Nat} {w : BitVec 64} {b : Bool}
    (e : exec i s = commit s i.wf ((s.setReg (.partGtackCtl p) w).gtackPut g b)) (hw : i.wf = true) (hg : g < 1024) :
    Completes i s (fun x =>
      (∀ j, x.gtacks.getLsbD j = if b then s.gtacks.getLsbD j || decide (j = g) else s.gtacks.getLsbD j && decide (j ≠ g))
      ∧ x.cores = s.cores ∧ SameMemory s x ∧ x.reg (.partGtackCtl p) = w) := by
  obtain ⟨hc, hs, hr, hq⟩ := gtackPut_frame s p g w b
  refine completes_commit e hw hq ⟨fun j => ?_, hc, hs, hr⟩
  cases b with
  | true => exact State.gtackPut_true _ hg j
  | false => exact State.gtackPut_false _ hg j

section
variable {s : State} {v : BitVec 64} {p : Nat} (hp : p < 32) (hg : (mfind s.parts p).isSome = true)
  (he : s.host.vfEnable = true) (hd : s.devState ≠ 3) (hv : gfOk v = true) (hm : s.gtackMine p (PartGtackCtl.tack.get v))
include hp hg he hd hv hm

theorem partGtackCtlWrite_clear (hz : PartGtackCtl.value.get v = 0) : Completes (.partGtackCtlWrite p v) s (fun x =>
    (∀ j, x.gtacks.getLsbD j = (s.gtacks.getLsbD j && decide (j ≠ PartGtackCtl.tack.get v))) ∧ x.cores = s.cores ∧ SameMemory s x
    ∧ x.reg (.partGtackCtl p) = gfMasked v (2 ^ 11 - 1)) := by
  have e := execPartGtackCtlWrite_mine hg he hd hv hm
  rw [if_neg (by simp [hz]), State.clearGtack] at e
  simpa using completes_gtackPut e (decide_eq_true hp) (Fld.get_lt PartGtackCtl.tack v)

theorem partGtackCtlWrite_set (ho : PartGtackCtl.value.get v = 1)
    (hw : ∀ y ∈ s.cores, ∀ x ∈ y.2.threads, ∀ cl, x.2.stat ≠ .parked (.gtack (PartGtackCtl.tack.get v) cl)) :
    Completes (.partGtackCtlWrite p v) s (fun x =>
    (∀ j, x.gtacks.getLsbD j = (s.gtacks.getLsbD j || decide (j = PartGtackCtl.tack.get v))) ∧ x.cores = s.cores ∧ SameMemory s x
    ∧ x.reg (.partGtackCtl p) = gfMasked v (2 ^ 11 - 1)) := by
  have e := execPartGtackCtlWrite_mine hg he hd hv hm
  have hc := (gtackPut_frame s p (PartGtackCtl.tack.get v) (gfMasked v (2 ^ 11 - 1)) true).1
  rw [if_pos ho, State.setGtack, State.wakeGtack_idle (by rw [hc]; exact hw)] at e
  simpa using completes_gtackPut e (decide_eq_true hp) (Fld.get_lt PartGtackCtl.tack v)

end

/-! ## Writes that do not reach the fabric -/

theorem tableWrites_closed {s : State} (h : s.pkg.booted = false ∨ s.devState = 3) (v : BitVec 64) {n : Nat} (hn : n < 1024) :
    ∀ i ∈ [Instr.fabTableCtlWrite v, .fabRouteWrite n v, .fabXlateWrite n v, .fabReachWrite (n % 32) (n % 18) v],
      Completes i s (fun x => x = s) := by
  have hr : (Instr.fabReachWrite (n % 32) (n % 18) v).wf = true := by simp [Instr.wf]; omega
  intro i hi
  simp only [List.mem_cons, List.not_mem_nil, or_false] at hi
  obtain rfl | rfl | rfl | rfl := hi
  · exact completes_same (congrArg (commit s true) (State.pfWrite_closed h _)) rfl
  · exact completes_same (congrArg (commit s _) (State.pfWrite_closed h _)) (decide_eq_true hn)
  · exact completes_same (congrArg (commit s _) (State.pfWrite_closed h _)) (decide_eq_true hn)
  · exact completes_same (congrArg (commit s _) (State.pfWrite_closed h _)) hr

/-! ## Table writes -/

/-- What a write of a table word that takes effect leaves: FAB_NODE follows an XLATE entry, for another table the node stays. -/
def TableWritten (r : Reg) (off : Nat) (w : BitVec 64) (s x : State) : Prop :=
  x.reg r = w ∧ off ∈ x.fab.written ∧ off ∉ x.fab.disabled ∧ SameMemory s x
    ∧ ((∀ n, r ≠ .fabXlate n) → x = { s with regs := x.regs, fab := x.fab } ∧ ∀ q, q ≠ r → x.reg q = s.reg q)
    ∧ (∀ n, r = .fabXlate n → x.NodeShown)

/-- A write of a route or reach word: it is stored, or refused while the tables are not open. -/
theorem completes_plainTable {i : Instr} {s : State} {v : BitVec 64} {tab idx off mask : Nat} {r : Reg}
    (e : exec i s = commit s i.wf (s.tableWrite tab idx off r v true id)) (hw : i.wf = true) (hr : r.tableRefuses = false)
    (hx : ∀ n, r ≠ .fabXlate n) (hm : tableMask tab idx = mask)
    (hv : gfOk v = true) (hb : s.pkg.booted = true) (hd : s.devState ≠ 3) :
    (s.tableOpen = false → Completes i s (TableRefused r s))
    ∧ (s.tableOpen = true → Completes i s (TableWritten r off (gfMasked v mask) s)) := by
  refine ⟨fun h => completes_tableRefused e hw hv hb hd hr (.inl h), fun h => ?_⟩
  obtain ⟨x, ex, hs⟩ := completes_tableSet e hw hv hb hd h rfl (fun _ => rfl)
  obtain ⟨hreg, hin, hout, hsame, hframe, hother⟩ := tableSet_plain hs
  exact ⟨x, ex, hm ▸ hreg, hin, hout, hsame, fun _ => ⟨hframe, hother⟩, fun n hn => absurd hn (hx n)⟩

/-- A write of an XLATE word: it is stored, or refused while the tables are not open or when it names a node twice. -/
theorem completes_xlateWrite {s : State} {v : BitVec 64} {n : Nat} (hn : n < 1024)
    (hv : gfOk v = true) (hb : s.pkg.booted = true) (hd : s.devState ≠ 3) :
    let twice : Prop := (grain v).testBit 10 = true ∧ ∃ m, m < 1024 ∧ m ≠ n ∧ s.xlate m = some (bitsOf (grain v) 0 10)
    (s.tableOpen = false ∨ twice → Completes (.fabXlateWrite n v) s (TableRefused (.fabXlate n) s))
    ∧ (s.tableOpen = true → ¬ twice →
        Completes (.fabXlateWrite n v) s (TableWritten (.fabXlate n) (xlateOff n) (gfMasked v (2 ^ 11 - 1)) s)) := by
  intro twice
  have e : exec (.fabXlateWrite n v) s = commit s (Instr.fabXlateWrite n v).wf (s.tableWrite 1 n (xlateOff n) (.fabXlate n) v
      (!(bitAt (grain v) 10 && s.xlateTaken n (bitsOf (grain v) 0 10))) State.renode) := rfl
  have hw : (Instr.fabXlateWrite n v).wf = true := decide_eq_true hn
  refine ⟨fun h => ?_, fun ho ht => ?_⟩
  · exact completes_tableRefused e hw hv hb hd rfl (h.imp_right (xlateTwice_iff s v n).mpr)
  · have hok := Bool.of_not_eq_false (mt (xlateTwice_iff s v n).mp ht)
    obtain ⟨x, ex, hs⟩ := completes_tableSet e hw hv hb hd ho hok State.renode_pending
    obtain ⟨hreg, hin, hout, hsame, hnode⟩ := tableSet_renode hs
    exact ⟨x, ex, hreg, hin, hout, hsame, fun h => absurd rfl (h n), fun _ _ => hnode⟩

theorem tableMask_reach {p j : Nat} (h : j < 18) :
    tableMask 2 (32 * p + j) = if j = 0 then 2 ^ 22 - 1 else if j = 1 then 0x1F7F else 2 ^ 25 - 1 := by
  have e : (32 * p + j) % 32 = j := by omega
  simp [tableMask, e]

/-! ## Reload -/

theorem gfTableReload_none {s : State} {tab : GfTable} {i w : Nat} {good : Bool} (hw : tab.wf i w = true)
    (h : (tableOff tab i w).2 ∉ s.fab.disabled ∨ (tableOff tab i w).2 ∈ s.fab.written) :
    Completes (.gfTableReload tab i w good) s (fun x => x = s) := by
  have e := execGfTableReload_eq tab i w good s
  rw [if_pos (by simpa using h)] at e
  exact completes_same e hw

section
variable {s : State} {tab : GfTable} {i w : Nat} (hw : tab.wf i w = true)
  (hd : (tableOff tab i w).2 ∈ s.fab.disabled) (hn : (tableOff tab i w).2 ∉ s.fab.written)
include hw hd hn

theorem gfTableReload_good : Completes (.gfTableReload tab i w true) s (fun x => Counted .fabConsDev FabConsDev.gf 1 s x ∧ SameMemory s x
    ∧ (tableOff tab i w).2 ∉ x.fab.disabled ∧ (tableOff tab i w).2 ∉ x.fab.written) := by
  have e := execGfTableReload_eq tab i w true s
  rw [if_neg (by simp [hd, hn]), if_pos rfl] at e
  obtain ⟨hc, hm, hout, hwr, hq⟩ := State.reloaded_spec hn { code := 0x0B02, detail := tableDetail (tableOff tab i w).1 i w } (by simp) (by simp)
  exact completes_commit e hw hq ⟨hc, hm, hout, hwr⟩

theorem gfTableReload_bad : Completes (.gfTableReload tab i w false) s (fun x => Counted .fabConsDev FabConsDev.gf 1 s x ∧ SameMemory s x
    ∧ (tableOff tab i w).2 ∈ x.fab.disabled ∧ (tableOff tab i w).2 ∈ x.fab.written ∧ x.Noted 0x1B01) := by
  have e := execGfTableReload_eq tab i w false s
  rw [if_neg (by simp [hd, hn]), if_neg Bool.false_ne_true] at e
  obtain ⟨hc, hm, hin, hwr, hno, hq⟩ := State.notReloaded_spec hd { code := 0x1B01, detail := tableDetail (tableOff tab i w).1 i w } (by simp) (by simp)
  exact completes_commit e hw hq ⟨hc, hm, hin, hwr, hno⟩

end

/-! ## The obligation -/

theorem onlyReg_setReg (s : State) (r : Reg) (w : BitVec 64) :
    s.setReg r w = { s with regs := (s.setReg r w).regs } ∧ (∀ q, q ≠ r → (s.setReg r w).reg q = s.reg q) ∧ (s.setReg r w).reg r = w :=
  ⟨rfl, fun q hq => (s.reg_setReg r q w).trans (if_neg hq), (s.reg_setReg r r w).trans (if_pos rfl)⟩

/-- Settles O45, each write by the effect that reaches its block, and reload by the two ways that it ends. -/
theorem partitionAndTableWrites : Obligations.PartitionAndTableWrites := by
  unfold Obligations.PartitionAndTableWrites
  intro s v
  refine ⟨fun p hp hg he hd => ?_, fun h n hn => tableWrites_closed h v hn, fabTableCtlWrite_completes, ?_, ?_⟩
  · refine ⟨fun i w hi hw hv => ?_, ⟨fun hz => ?_, partRxCtlWrite_keep hp hg he hd⟩, fun hv => ⟨?_, ?_, ?_⟩⟩
    · obtain ⟨x, ex, rfl⟩ := partRegionWrite_completes (i := i) hp hg he hd hi hw hv
      obtain ⟨hframe, hother, hself⟩ := onlyReg_setReg s (.partRegion p i w) (gfMasked v (regionMask w))
      exact ⟨_, ex, ⟨hframe, hother⟩, hself⟩
    · obtain ⟨x, ex, rfl⟩ := partRxCtlWrite_zero hp hg he hd hz
      exact ⟨_, ex, s.rxZero_frame p _⟩
    · exact partGtackCtlWrite_other hp hg he hd hv
    · exact fun hm hz => partGtackCtlWrite_clear hp hg he hd hv hm hz
    · exact fun hm ho hw => partGtackCtlWrite_set hp hg he hd hv hm ho hw
  · rintro r off mask i hv hb hd (⟨n, hn, rfl, rfl, rfl, rfl⟩ | ⟨p, j, hp, hj, rfl, rfl, rfl, rfl⟩ | ⟨n, hn, rfl, rfl, rfl, rfl⟩)
    · obtain ⟨hno, hyes⟩ := completes_plainTable (i := .fabRouteWrite n v) (s := s) (tab := 0) (idx := n) (r := .fabRoute n)
        (off := routeOff n) rfl (decide_eq_true hn) rfl (fun _ h => nomatch h) rfl hv hb hd
      exact ⟨fun h => hno (h.resolve_right fun ⟨_, _, h, _⟩ => nomatch h), fun h _ => hyes h⟩
    · obtain ⟨hno, hyes⟩ := completes_plainTable (i := .fabReachWrite p j v) (s := s) (tab := 2) (idx := 32 * p + j) (r := .fabReach p j)
        (off := reachOff p j) rfl (by simp [Instr.wf, hp, hj]) rfl (fun _ h => nomatch h) (tableMask_reach hj) hv hb hd
      exact ⟨fun h => hno (h.resolve_right fun ⟨_, _, h, _⟩ => nomatch h), fun h _ => hyes h⟩
    · obtain ⟨hno, hyes⟩ := completes_xlateWrite (s := s) hn hv hb hd
      refine ⟨fun h => hno (h.imp_right ?_), fun h ht => hyes h fun ⟨hbit, m, hm, hne, hx⟩ => ht ⟨n, m, rfl, hbit, hm, hne, hx⟩⟩
      rintro ⟨k, m, hk, hbit, hm, hne, hx⟩
      obtain rfl : n = k := Reg.fabXlate.inj hk
      exact ⟨hbit, m, hm, hne, hx⟩
  · intro tab i w good hw
    refine ⟨gfTableReload_none hw, fun hd hn => ?_⟩
    cases good with
    | true =>
      obtain ⟨x, ex, hc, hm, hout, hwr⟩ := gfTableReload_good hw hd hn
      exact ⟨x, ex, hc, hm, fun _ => ⟨hout, hwr⟩, fun h => absurd h (by simp)⟩
    | false =>
      obtain ⟨x, ex, hc, hm, hin⟩ := gfTableReload_bad hw hd hn
      exact ⟨x, ex, hc, hm, fun h => absurd h (by simp), fun _ => hin⟩

end Sys2Proof.Machine
end

section
/-! PROOF. The tick (R291, R304): two inputs for which its statement is too wide. -/
namespace Sys2Proof.Machine

/-! ## A failed word of a unit that does not exist -/

/-- A failed word of core 512, which the package does not have. -/
def noSuchWord : GfUpset := ⟨0, 512, 0, true⟩

/-- A tick whose upsets name a unit that does not exist is refused, in Off as in any other state. -/
theorem stitchTick_noSuchWord (s : State) : exec (.stitchTick [noSuchWord]) s = .fault .noSuchUnit := rfl

/-- Refutes O41: a tick in Off has no next state when it names a failed word of a core that the package does not have. The statement
asks for one whatever the upsets are; it lacks the premise that they name units of the package. -/
theorem not_theTickCountsLatchesAndReleases : ¬ Obligations.TheTickCountsLatchesAndReleases := by
  unfold Obligations.TheTickCountsLatchesAndReleases
  intro h
  obtain ⟨hoff, -⟩ := h State.reset [noSuchWord]
  obtain ⟨x, hx, -⟩ := hoff rfl
  rw [stitchTick_noSuchWord] at hx
  exact nomatch hx

/-! ## A running count of a register that counts nothing -/

/-- A device in Free whose running counts hold a value for STCH_COUNT. -/
def strayCount : State := { Tests.bare.setFld .stchStatus StchStatus.state 1 with live := [(.stchCount, 5)] }

/-- The latch writes every running count to its register (R7), here over STCH_COUNT: STCH_TICK_COUNT does not hold the count. So O41
fails for a tick without upsets too, and needs a second premise: only registers that latch a count have a running count. -/
theorem stitchTick_strayCount : Completes (.stitchTick []) strayCount (fun x =>
    x.fld .stchTickCount StchTickCount.value = 1 ∧ x.count = 5) := by
  have run : (match exec (.stitchTick []) strayCount with
      | .next x => decide (x.fld .stchTickCount StchTickCount.value = 1 ∧ x.count = 5)
      | _ => false) = true := by decide +kernel
  split at run
  · next x hx => exact ⟨x, hx, of_decide_eq_true run⟩
  · exact absurd run Bool.false_ne_true

end Sys2Proof.Machine
end
